-- ==== Sys2Proof/Word.lean ====
section
/-! DEFINITION. The word types of the Lusum (R6, R48). -/

namespace Sys2Proof

/-- A byte of memory (R6). -/
abbrev Byte := BitVec 8
/-- A 32-bit word, one slot of a bundle (R41). -/
abbrev W32 := BitVec 32
/-- A 64-bit general or control register (R48, R50). -/
abbrev Word := BitVec 64
/-- A 4-bit register field (R48). -/
abbrev RegNo := BitVec 4
/-- A short vector register, 256 bits (R48, R248). -/
abbrev VShort := BitVec 256
/-- A long vector register, 2,048 bits (R48, R248). -/
abbrev VLong := BitVec 2048

end Sys2Proof
end

