-- ==== Sys2Proof/Syntax.lean ====
section
/-! DEFINITION. The instructions and events of the part: one constructor per row of spec/opcode_table.json.
A row with an encoding carries the fields of its word (R44, R45, R64, R67); a long form carries the fields of word 0 and
its extension (R46, R70). An event carries nothing: what it concerns (a tile, a command, a packet) and the input that the
outside world gives it stand in the state's input latch (State.inp). The rows with fields stand first. -/

namespace Sys2Proof

/-- The instructions and events (spec/opcode_table.json; 95_what_each_step_holds.md). -/
inductive Instr where
  /-- CSRR (R170): Reads a control register into a general register. -/
  | csrr (d : RegNo) (c : BitVec 8)
  /-- CSRW (R170): Writes a control register from a general register, with the PRIV, ILLEGAL and field rules of R50. -/
  | csrw (a : RegNo) (c : BitVec 8)
  /-- TIME (R171): Writes pasture time in ns into a general register. -/
  | time (d : RegNo)
  /-- TRAP (R172): Raises the TRAP cause at issue with UTVAL set to imm8. -/
  | trap (i : BitVec 8)
  /-- FOLLOW (R145): Joins another slot's strand as a follower of its decoded bundle stream. -/
  | follow (a : RegNo)
  /-- JR (R169): Jumps to the byte address held in a register. -/
  | jr (a : RegNo)
  /-- HOMEOF (R167): Translates an address and returns its device, region and home tile without accessing it. -/
  | homeof (d : RegNo) (a : RegNo)
  /-- LEA (R166): Forms g[ra] plus a 17-bit signed displacement without accessing memory. -/
  | lea (d : RegNo) (a : RegNo) (i : BitVec 17)
  /-- BR (R169): Branches by a 25-bit signed bundle offset. -/
  | br (o : BitVec 25)
  /-- CALL (R169): Branches by a 25-bit bundle offset and links the next bundle's byte address into g15. -/
  | call (o : BitVec 25)
  /-- BRC (R169): Branches by a 14-bit bundle offset when the compare condition holds. -/
  | brc (a : RegNo) (b : RegNo) (c : BitVec 3) (o : BitVec 14)
  /-- CMPS (R59): Keeps or annuls the next 1 to 3 bundles according to a register comparison. -/
  | cmps (a : RegNo) (b : RegNo) (c : BitVec 3) (k : BitVec 2)
  /-- CMPSI (R59): Keeps or annuls the next 1 to 3 bundles according to a comparison with an immediate. -/
  | cmpsi (a : RegNo) (c : BitVec 3) (k : BitVec 2) (i : BitVec 12)
  /-- BRL (R169): Jumps to a register-relative byte address and links the next bundle's address. -/
  | brl (d : RegNo) (a : RegNo) (i : BitVec 17)
  /-- LD (R191): Loads 1 to 8 bytes locally, by migration or by pinned fetch. -/
  | ld (d : RegNo) (a : RegNo) (s : BitVec 3) (i : BitVec 14)
  /-- ST (R191): Stores 1 to 8 bytes locally or as a posted operation. -/
  | st (d : RegNo) (a : RegNo) (s : BitVec 3) (i : BitVec 14)
  /-- LDP (R191): Loads without ever migrating, by pinned fetch when remote. -/
  | ldp (d : RegNo) (a : RegNo) (s : BitVec 3) (i : BitVec 14)
  /-- LD_ACQ (R92): Loads with acquire ordering. -/
  | ldAcq (d : RegNo) (a : RegNo) (s : BitVec 3) (i : BitVec 14)
  /-- ST_REL (R91): Stores after a fence at the named scope, as a release. -/
  | stRel (d : RegNo) (a : RegNo) (s : BitVec 3) (p : BitVec 2) (i : BitVec 12)
  /-- LDFE (R195): Waits for FULL, reads the word and sets it EMPTY. -/
  | ldfe (d : RegNo) (a : RegNo) (i : BitVec 14)
  /-- LDFF (R195): Waits for FULL and reads the word, leaving it FULL. -/
  | ldff (d : RegNo) (a : RegNo) (i : BitVec 14)
  /-- STEF (R195): Waits for EMPTY, writes the word and sets it FULL. -/
  | stef (d : RegNo) (a : RegNo) (i : BitVec 14)
  /-- STFF (R195): Writes the word and sets it FULL without waiting. -/
  | stff (d : RegNo) (a : RegNo) (i : BitVec 14)
  /-- FEMPTY (R195): Sets a word's state to EMPTY. -/
  | fempty (a : RegNo) (i : BitVec 14)
  /-- FFULL (R195): Sets a word's state to FULL. -/
  | ffull (a : RegNo) (i : BitVec 14)
  /-- LRW (R197): Queues for a word's reservation and reads it on grant. -/
  | lrw (d : RegNo) (a : RegNo) (i : BitVec 14)
  /-- SCH (R197): Stores the reserved word, releases the reservation and grants it to the next waiter. -/
  | sch (d : RegNo) (a : RegNo) (i : BitVec 14)
  /-- RELR (R197): Releases a reservation without storing. -/
  | relr (a : RegNo) (i : BitVec 14)
  /-- AMOP (R200): Posts an atomic operation to the word's home without returning a value. -/
  | amop (a : RegNo) (b : RegNo) (o : RegNo) (z : BitVec 2)
  /-- AMOZ (R201): Posts a 64-bit add that starts a handler when the counter reaches zero. -/
  | amoz (a : RegNo) (b : RegNo)
  /-- AMOR (R202): Performs an atomic operation at the home and returns the old value. -/
  | amor (d : RegNo) (a : RegNo) (b : RegNo) (o : RegNo) (z : BitVec 2)
  /-- CAS (R203): Compares and swaps a word, returning its old value. -/
  | cas (d : RegNo) (a : RegNo) (b : RegNo) (z : BitVec 2)
  /-- GET (R208): Issues a descriptor-driven list read from a serving tile into local memory. -/
  | get (a : RegNo) (b : RegNo) (p : BitVec 2)
  /-- PUT (R208): Issues a descriptor-driven list write from local memory to a serving tile. -/
  | put (a : RegNo) (b : RegNo) (p : BitVec 2)
  /-- CCWAIT (R205): Waits until a completion counter reaches the target or shows an error, then acquires. -/
  | ccwait (a : RegNo) (b : RegNo)
  /-- CCWAIT_LONG (R205): Long form of CCWAIT with a 32-bit immediate count. -/
  | ccwaitLong (a : RegNo) (count : W32)
  /-- CCSET (R206): Sets a completion counter as a 64-bit store and wakes its waiters. -/
  | ccset (a : RegNo) (b : RegNo)
  /-- FENCE (R90): Waits for earlier long-vector accesses, posted operations and commands within the scope. -/
  | fence (p : BitVec 2)
  /-- MIG (R186): Moves the strand to the home of an address without accessing it. -/
  | mig (a : RegNo)
  /-- DISCARD (R211): Drops cached lines of a range without writing them back. -/
  | discard (a : RegNo) (b : RegNo)
  /-- PREF (R212): Hints the home to bring a line into its home cache. -/
  | pref (a : RegNo)
  /-- SPAWN (R237): Launches a child slice from a packet, returning a result code without waiting for the pool. -/
  | spawn (d : RegNo) (a : RegNo)
  /-- SPAWNW (R237): Launches a child slice, parking while the pool is full. -/
  | spawnw (d : RegNo) (a : RegNo)
  /-- JOIN (R239): Waits until a join counter is zero, then acquires. -/
  | join (a : RegNo)
  /-- DLSET (R241): Sets DEADLINE and recomputes the effective deadline. -/
  | dlset (a : RegNo)
  /-- SLICEINFO (R242): Returns a field of the slice record or pasture selected by sel. -/
  | sliceinfo (d : RegNo) (s : BitVec 8)
  /-- GBAR (R235): Arrives at a group after a release and waits for the phase to open. -/
  | gbar (n : BitVec 8)
  /-- GARRIVE (R235): Arrives at a group after a release at D. -/
  | garrive (n : BitVec 8)
  /-- GWAIT (R235): Waits until the group's phase advances past the strand's arrival. -/
  | gwait (n : BitVec 8)
  /-- VLD_V (R263): Loads a 32-byte short vector register. -/
  | vldV (d : RegNo) (a : RegNo) (i : BitVec 14)
  /-- VLD_W (R263): Queues a 256-byte long vector load on the sequencer. -/
  | vldW (d : RegNo) (a : RegNo) (i : BitVec 14)
  /-- VST_V (R263): Stores a 32-byte short vector register. -/
  | vstV (d : RegNo) (a : RegNo) (i : BitVec 14)
  /-- VST_W (R263): Queues a 256-byte long vector store on the sequencer. -/
  | vstW (d : RegNo) (a : RegNo) (i : BitVec 14)
  /-- VLOOP (R257): Queues an entry repeating the last n long instructions a register-given number of times. -/
  | vloop (a : RegNo) (n : RegNo)
  /-- VLOOP_LONG (R257): Long form of VLOOP with a 32-bit immediate count. -/
  | vloopLong (n : BitVec 4) (count : W32)
  /-- SBIND (R260): Binds a stream register to a scratchpad ring for the strand. -/
  | sbind (d : RegNo) (a : RegNo)
  /-- SFREE (R262): Unbinds a stream, discarding its operands and returning its permits. -/
  | sfree (d : RegNo)
  /-- BADD (R280): Bank command adding source elements into the range. -/
  | badd (a : RegNo) (b : RegNo) (p : BitVec 2)
  /-- BAXPY (R280): Bank command computing a times source plus range, rounded once. -/
  | baxpy (a : RegNo) (b : RegNo) (p : BitVec 2)
  /-- BSCALE (R280): Bank command scaling the range by AUXA. -/
  | bscale (a : RegNo) (b : RegNo) (p : BitVec 2)
  /-- BMAX (R280): Bank command taking the element-wise maximum of range and source. -/
  | bmax (a : RegNo) (b : RegNo) (p : BitVec 2)
  /-- BEXPS (R283): Bank command updating a softmax base-2 partial record at RES. -/
  | bexps (a : RegNo) (b : RegNo) (p : BitVec 2)
  /-- BSUM (R282): Bank command writing the once-rounded exact sum of the range to RES. -/
  | bsum (a : RegNo) (b : RegNo) (p : BitVec 2)
  /-- BFILL (R280): Bank command filling the range with the low bits of AUXA. -/
  | bfill (a : RegNo) (b : RegNo) (p : BitVec 2)
  /-- CPY (R296): Queues a tensor copy described by a shape record. -/
  | cpy (a : RegNo) (b : RegNo) (p : BitVec 2)
  /-- CPYS (R298): Queues a tensor copy into a bound stream's ring. -/
  | cpys (d : RegNo) (a : RegNo) (p : BitVec 2)
  /-- CPYSTAT (R306): Returns a copy-engine counter or stream status selected by sel. -/
  | cpystat (d : RegNo) (s : BitVec 7)
  /-- MXLDB (R322): Queues a load of B into matrix images. -/
  | mxldb (a : RegNo) (b : RegNo) (p : BitVec 2)
  /-- MXRUN (R322): Queues a matrix product run from a parameter block. -/
  | mxrun (a : RegNo) (b : RegNo) (p : BitVec 2)
  /-- MXDRAIN (R322): Queues a drain of the accumulator. -/
  | mxdrain (a : RegNo) (b : RegNo) (p : BitVec 2)
  /-- MXWAIT (R326): Waits for the strand's matrix commands or a counter, then acquires. -/
  | mxwait (a : RegNo) (b : RegNo)
  /-- MXSTAT (R330): Returns a matrix counter, held-command count or image state. -/
  | mxstat (d : RegNo) (s : BitVec 7)
  /-- MXSEND (R327): Sends a parameter block to another tile's matrix engine under an earmark. -/
  | mxsend (a : RegNo) (b : RegNo) (p : BitVec 2)
  /-- SCSET (R341): Queues new step-cache settings from a record. -/
  | scset (a : RegNo)
  /-- SCINV (R342): Queues invalidation of one step-cache entry or all. -/
  | scinv (a : RegNo)
  /-- SCSTAT (R343): Returns a step-cache counter or setting. -/
  | scstat (d : RegNo) (s : BitVec 7)
  /-- SELOPEN (R355): Takes a selection context and queues its opening. -/
  | selopen (a : RegNo)
  /-- SELPUSH (R355): Queues the offering of a key matrix to the context's lists. -/
  | selpush (a : RegNo) (b : RegNo)
  /-- SELEMIT (R355): Queues the writing of each list in rank order. -/
  | selemit (a : RegNo) (b : RegNo)
  /-- FPUSH (R379): Queues a task record push to the Flock unit of its data's home. -/
  | fpush (a : RegNo)
  /-- FPUSH_REL (R379): Queues a task push with priority raised by VT. -/
  | fpushRel (a : RegNo)
  /-- FPOP (R380): Queues a pop that returns an eligible task or 0. -/
  | fpop (d : RegNo) (a : RegNo)
  /-- FFLOOR (R382): Returns the tile's Flock floor. -/
  | ffloor (d : RegNo)
  /-- FSTAT (R383): Returns a Flock counter or status selected by sel. -/
  | fstat (d : RegNo) (s : BitVec 7)
  /-- MSEND (R399): Sends a tagged direct message to a tile or the event queue. -/
  | msend (a : RegNo) (b : RegNo)
  /-- MSENDH (R399): Sends a message that starts a handler at the target tile. -/
  | msendh (a : RegNo) (b : RegNo)
  /-- MPOST (R402): Posts a receive record, taking a matching overflow message or waiting for a list entry. -/
  | mpost (a : RegNo)
  /-- MWAIT (R405): Waits for a receive to complete or for the slot's wake latch. -/
  | mwait (d : RegNo) (a : RegNo)
  /-- MPROBE (R405): Returns a receive's status or the wake latch without waiting. -/
  | mprobe (d : RegNo) (a : RegNo)
  /-- MCANCEL (R406): Cancels a posted receive. -/
  | mcancel (a : RegNo)
  /-- WAKE (R412): Sends a wake to a strand named by an earmark. -/
  | wake (a : RegNo)
  /-- HALTT (R413): Sends a halt to a strand named by an earmark. -/
  | haltt (a : RegNo)
  /-- INSP (R414): Requests a copy of a named strand's context image. -/
  | insp (a : RegNo) (b : RegNo)
  /-- MINT (R429): Seals an earmark from a template. -/
  | mint (a : RegNo) (b : RegNo)
  /-- TLBINV (R436): Drops translations of a range in every TLB of the pasture. -/
  | tlbinv (a : RegNo) (b : RegNo)
  /-- GSTOP (R434): Stops a pasture through the halt tree. -/
  | gstop (a : RegNo)
  /-- CTXLD (R431): Reads a stopped strand's 256-byte image into a buffer. -/
  | ctxld (a : RegNo) (b : RegNo)
  /-- CTXST (R431): Replaces a stopped strand's image from a buffer. -/
  | ctxst (a : RegNo) (b : RegNo)
  /-- ADD (R155): Adds two registers. -/
  | add (d : RegNo) (a : RegNo) (b : RegNo)
  /-- SUB (R155): Subtracts two registers. -/
  | sub (d : RegNo) (a : RegNo) (b : RegNo)
  /-- AND (R155): Bitwise AND. -/
  | and (d : RegNo) (a : RegNo) (b : RegNo)
  /-- OR (R155): Bitwise OR. -/
  | or (d : RegNo) (a : RegNo) (b : RegNo)
  /-- XOR (R155): Bitwise XOR. -/
  | xor (d : RegNo) (a : RegNo) (b : RegNo)
  /-- ANDN (R155): AND with the complement of b. -/
  | andn (d : RegNo) (a : RegNo) (b : RegNo)
  /-- SHL (R155): Shifts left by b[5:0]. -/
  | shl (d : RegNo) (a : RegNo) (b : RegNo)
  /-- SHR (R155): Shifts right with zero fill. -/
  | shr (d : RegNo) (a : RegNo) (b : RegNo)
  /-- SRA (R155): Shifts right arithmetically. -/
  | sra (d : RegNo) (a : RegNo) (b : RegNo)
  /-- ROT (R155): Rotates left by b[5:0]. -/
  | rot (d : RegNo) (a : RegNo) (b : RegNo)
  /-- MUL (R155): Low 64 bits of the product. -/
  | mul (d : RegNo) (a : RegNo) (b : RegNo)
  /-- MULH (R155): High 64 bits of the signed product. -/
  | mulh (d : RegNo) (a : RegNo) (b : RegNo)
  /-- MULHN (R155): High 64 bits of the unsigned product. -/
  | mulhn (d : RegNo) (a : RegNo) (b : RegNo)
  /-- MIN (R155): Signed minimum. -/
  | min (d : RegNo) (a : RegNo) (b : RegNo)
  /-- MAX (R155): Signed maximum. -/
  | max (d : RegNo) (a : RegNo) (b : RegNo)
  /-- MINN (R155): Unsigned minimum. -/
  | minn (d : RegNo) (a : RegNo) (b : RegNo)
  /-- MAXN (R155): Unsigned maximum. -/
  | maxn (d : RegNo) (a : RegNo) (b : RegNo)
  /-- CLZ (R155): Counts leading zero bits. -/
  | clz (d : RegNo) (a : RegNo)
  /-- CTZ (R155): Counts trailing zero bits. -/
  | ctz (d : RegNo) (a : RegNo)
  /-- POPC (R155): Counts one bits. -/
  | popc (d : RegNo) (a : RegNo)
  /-- SLT (R155): Sets 1 if a < b signed. -/
  | slt (d : RegNo) (a : RegNo) (b : RegNo)
  /-- SLTN (R155): Sets 1 if a < b unsigned. -/
  | sltn (d : RegNo) (a : RegNo) (b : RegNo)
  /-- SEQ (R155): Sets 1 if a = b. -/
  | seq (d : RegNo) (a : RegNo) (b : RegNo)
  /-- DIV (R156): Signed division over 8 turns. -/
  | div (d : RegNo) (a : RegNo) (b : RegNo)
  /-- DIVN (R156): Unsigned division over 8 turns. -/
  | divn (d : RegNo) (a : RegNo) (b : RegNo)
  /-- REM (R156): Signed remainder over 8 turns. -/
  | rem (d : RegNo) (a : RegNo) (b : RegNo)
  /-- REMN (R156): Unsigned remainder over 8 turns. -/
  | remn (d : RegNo) (a : RegNo) (b : RegNo)
  /-- BEXT (R157): Extracts a bit field. -/
  | bext (d : RegNo) (a : RegNo) (l : BitVec 6) (p : BitVec 6)
  /-- BINS (R157): Inserts a bit field into gd. -/
  | bins (d : RegNo) (a : RegNo) (l : BitVec 6) (p : BitVec 6)
  /-- SEL (R158): Selects a or b according to g[gc]. -/
  | sel (d : RegNo) (a : RegNo) (b : RegNo) (c : RegNo)
  /-- ADDI (R159): Adds a signed 18-bit immediate. -/
  | addi (d : RegNo) (a : RegNo) (i : BitVec 18)
  /-- ANDI (R159): ANDs a signed 18-bit immediate. -/
  | andi (d : RegNo) (a : RegNo) (i : BitVec 18)
  /-- ORI (R159): ORs a signed 18-bit immediate. -/
  | ori (d : RegNo) (a : RegNo) (i : BitVec 18)
  /-- XORI (R159): XORs a signed 18-bit immediate. -/
  | xori (d : RegNo) (a : RegNo) (i : BitVec 18)
  /-- SHLI (R159): Shifts left by an immediate amount. -/
  | shli (d : RegNo) (a : RegNo) (h : BitVec 6)
  /-- SHRI (R159): Shifts right with zero fill by an immediate amount. -/
  | shri (d : RegNo) (a : RegNo) (h : BitVec 6)
  /-- SRAI (R159): Shifts right arithmetically by an immediate amount. -/
  | srai (d : RegNo) (a : RegNo) (h : BitVec 6)
  /-- MOVI (R159): Loads a sign-extended 18-bit immediate. -/
  | movi (d : RegNo) (i : BitVec 18)
  /-- LIW (R168): Loads a sign-extended 32-bit immediate. -/
  | liw (d : RegNo) (imm : W32)
  /-- LIH (R168): Loads the upper 32 bits of a register. -/
  | lih (d : RegNo) (imm : W32)
  /-- BR_LONG (R169): Branches by a 32-bit bundle offset. -/
  | brLong (o : W32)
  /-- CALLL (R169): Calls by a 32-bit bundle offset, linking into g15. -/
  | calll (o : W32)
  /-- LEA_LONG (R166): Forms an address with a 32-bit displacement. -/
  | leaLong (d a : RegNo) (disp : W32)
  /-- FADD (R161): Scalar floating add. -/
  | fadd (d : RegNo) (a : RegNo) (b : RegNo) (r : BitVec 3) (t : BitVec 3)
  /-- FSUB (R161): Scalar floating subtract. -/
  | fsub (d : RegNo) (a : RegNo) (b : RegNo) (r : BitVec 3) (t : BitVec 3)
  /-- FMUL (R161): Scalar floating multiply. -/
  | fmul (d : RegNo) (a : RegNo) (b : RegNo) (r : BitVec 3) (t : BitVec 3)
  /-- FFMA (R161): Fused multiply-add into gd, rounded once. -/
  | ffma (d : RegNo) (a : RegNo) (b : RegNo) (r : BitVec 3) (t : BitVec 3)
  /-- FMIN (R162): Floating minimum. -/
  | fmin (d : RegNo) (a : RegNo) (b : RegNo) (t : BitVec 3)
  /-- FMAX (R162): Floating maximum. -/
  | fmax (d : RegNo) (a : RegNo) (b : RegNo) (t : BitVec 3)
  /-- FDIV (R161): Multi-turn floating divide. -/
  | fdiv (d : RegNo) (a : RegNo) (b : RegNo) (r : BitVec 3) (t : BitVec 3)
  /-- FSQRT (R161): Multi-turn floating square root. -/
  | fsqrt (d : RegNo) (a : RegNo) (r : BitVec 3) (t : BitVec 3)
  /-- FSGN (R163): Copies a with the sign of b. -/
  | fsgn (d : RegNo) (a : RegNo) (b : RegNo) (t : BitVec 3)
  /-- FSGNN (R163): Copies a with the inverse sign of b. -/
  | fsgnn (d : RegNo) (a : RegNo) (b : RegNo) (t : BitVec 3)
  /-- FSGNX (R163): Copies a with the XOR of both signs. -/
  | fsgnx (d : RegNo) (a : RegNo) (b : RegNo) (t : BitVec 3)
  /-- FCMP (R164): Floating compare writing 1 or 0. -/
  | fcmp (d : RegNo) (a : RegNo) (b : RegNo) (c : BitVec 3) (t : BitVec 3)
  /-- FCVT (R165): Converts between scalar floating and integer types. -/
  | fcvt (d : RegNo) (a : RegNo) (r : BitVec 3) (x : BitVec 3) (y : BitVec 3) (sat : Bool)
  /-- VADD (R267): Element-wise vector add. -/
  | vadd (cl : Bool) (d : RegNo) (a : RegNo) (b : RegNo) (r : BitVec 3) (e : BitVec 3) (sb : Bool)
  /-- VSUB (R267): Element-wise vector subtract. -/
  | vsub (cl : Bool) (d : RegNo) (a : RegNo) (b : RegNo) (r : BitVec 3) (e : BitVec 3) (sb : Bool)
  /-- VMUL (R267): Element-wise vector multiply. -/
  | vmul (cl : Bool) (d : RegNo) (a : RegNo) (b : RegNo) (r : BitVec 3) (e : BitVec 3) (sb : Bool)
  /-- VMIN (R267): Element-wise minimum. -/
  | vmin (cl : Bool) (d : RegNo) (a : RegNo) (b : RegNo) (r : BitVec 3) (e : BitVec 3) (sb : Bool)
  /-- VMAX (R267): Element-wise maximum. -/
  | vmax (cl : Bool) (d : RegNo) (a : RegNo) (b : RegNo) (r : BitVec 3) (e : BitVec 3) (sb : Bool)
  /-- VABS (R267): Element-wise absolute value. -/
  | vabs (cl : Bool) (d : RegNo) (a : RegNo) (r : BitVec 3) (e : BitVec 3)
  /-- VNEG (R267): Element-wise negation. -/
  | vneg (cl : Bool) (d : RegNo) (a : RegNo) (r : BitVec 3) (e : BitVec 3)
  /-- VFMA (R268): Element-wise fused multiply-add into vd. -/
  | vfma (cl : Bool) (d : RegNo) (a : RegNo) (b : RegNo) (r : BitVec 3) (e : BitVec 3) (sb : Bool)
  /-- VFMS (R268): Element-wise fused multiply-subtract from vd. -/
  | vfms (cl : Bool) (d : RegNo) (a : RegNo) (b : RegNo) (r : BitVec 3) (e : BitVec 3) (sb : Bool)
  /-- VAND (R269): Bitwise AND of whole registers. -/
  | vand (cl : Bool) (d : RegNo) (a : RegNo) (b : RegNo) (r : BitVec 3) (e : BitVec 3) (sb : Bool)
  /-- VOR (R269): Bitwise OR of whole registers. -/
  | vor (cl : Bool) (d : RegNo) (a : RegNo) (b : RegNo) (r : BitVec 3) (e : BitVec 3) (sb : Bool)
  /-- VXOR (R269): Bitwise XOR of whole registers. -/
  | vxor (cl : Bool) (d : RegNo) (a : RegNo) (b : RegNo) (r : BitVec 3) (e : BitVec 3) (sb : Bool)
  /-- VSHL (R269): Element-wise shift left. -/
  | vshl (cl : Bool) (d : RegNo) (a : RegNo) (b : RegNo) (r : BitVec 3) (e : BitVec 3) (sb : Bool)
  /-- VSHR (R269): Element-wise shift right. -/
  | vshr (cl : Bool) (d : RegNo) (a : RegNo) (b : RegNo) (r : BitVec 3) (e : BitVec 3) (sb : Bool)
  /-- VCMP (R270): Element-wise compare producing a mask. -/
  | vcmp (cl : Bool) (d : RegNo) (a : RegNo) (b : RegNo) (r : BitVec 3) (e : BitVec 3) (sb : Bool) (cond : BitVec 3)
  /-- VSEL (R270): Bitwise select between va and vb by the mask in vd. -/
  | vsel (cl : Bool) (d : RegNo) (a : RegNo) (b : RegNo) (r : BitVec 3) (e : BitVec 3) (sb : Bool)
  /-- VBCAST (R271): Broadcasts a general register into every element. -/
  | vbcast (cl : Bool) (d : RegNo) (a : RegNo) (r : BitVec 3) (e : BitVec 3)
  /-- VEXT (R271): Extracts an element into a general register. -/
  | vext (cl : Bool) (d : RegNo) (a : RegNo) (b : RegNo) (r : BitVec 3) (e : BitVec 3)
  /-- VPERM (R271): Permutes elements by indices in vb. -/
  | vperm (cl : Bool) (d : RegNo) (a : RegNo) (b : RegNo) (r : BitVec 3) (e : BitVec 3) (sb : Bool)
  /-- VRED_ADD (R272): Reduces by pairwise addition into element 0. -/
  | vredAdd (cl : Bool) (d : RegNo) (a : RegNo) (r : BitVec 3) (e : BitVec 3)
  /-- VRED_MIN (R272): Reduces to the minimum in element 0. -/
  | vredMin (cl : Bool) (d : RegNo) (a : RegNo) (r : BitVec 3) (e : BitVec 3)
  /-- VRED_MAX (R272): Reduces to the maximum in element 0. -/
  | vredMax (cl : Bool) (d : RegNo) (a : RegNo) (r : BitVec 3) (e : BitVec 3)
  /-- VDOT_IP (R273): Inner product rounded once into element 0. -/
  | vdotIp (cl : Bool) (d : RegNo) (a : RegNo) (b : RegNo) (r : BitVec 3) (e : BitVec 3) (sb : Bool)
  /-- VDOT_COS (R273): Cosine similarity rounded once. -/
  | vdotCos (cl : Bool) (d : RegNo) (a : RegNo) (b : RegNo) (r : BitVec 3) (e : BitVec 3) (sb : Bool)
  /-- VDOT_COSN (R273): Inner product times the supplied reciprocal norm in vd. -/
  | vdotCosn (cl : Bool) (d : RegNo) (a : RegNo) (b : RegNo) (r : BitVec 3) (e : BitVec 3) (sb : Bool)
  /-- VDOT_L2 (R273): Squared Euclidean distance rounded once. -/
  | vdotL2 (cl : Bool) (d : RegNo) (a : RegNo) (b : RegNo) (r : BitVec 3) (e : BitVec 3) (sb : Bool)
  /-- VCVT (R274): Converts elements between types of equal width. -/
  | vcvt (cl : Bool) (d : RegNo) (a : RegNo) (x : RegNo) (r : BitVec 3) (sat : Bool) (y : RegNo)
  /-- VPACK (R274): Narrows and packs two source registers. -/
  | vpack (cl : Bool) (d : RegNo) (a : RegNo) (b : RegNo) (r : BitVec 3) (e : BitVec 3) (sat : Bool) (y : RegNo)
  /-- VUNPACK (R274): Widens one half of a source register. -/
  | vunpack (cl : Bool) (d : RegNo) (a : RegNo) (half : Bool) (r : BitVec 3) (e : BitVec 3) (y : RegNo)
  /-- VSCALE (R274): Multiplies elements by E8M0 block scales. -/
  | vscale (cl : Bool) (d : RegNo) (a : RegNo) (b : RegNo) (r : BitVec 3) (y : RegNo)
  /-- VRCP (R275): Approximate reciprocal. -/
  | vrcp (cl : Bool) (d : RegNo) (a : RegNo) (r : BitVec 3) (e : BitVec 3)
  /-- VRCPN (R277): One Newton step for the reciprocal. -/
  | vrcpn (cl : Bool) (d : RegNo) (a : RegNo) (b : RegNo) (r : BitVec 3) (e : BitVec 3) (sb : Bool)
  /-- VRSQ (R275): Approximate reciprocal square root. -/
  | vrsq (cl : Bool) (d : RegNo) (a : RegNo) (r : BitVec 3) (e : BitVec 3)
  /-- VRSQN (R277): One Newton step for the reciprocal square root. -/
  | vrsqn (cl : Bool) (d : RegNo) (a : RegNo) (b : RegNo) (r : BitVec 3) (e : BitVec 3) (sb : Bool)
  /-- VEXP2 (R275): Approximate power of two. -/
  | vexp2 (cl : Bool) (d : RegNo) (a : RegNo) (r : BitVec 3) (e : BitVec 3)
  /-- VLOG2 (R275): Approximate base-2 logarithm. -/
  | vlog2 (cl : Bool) (d : RegNo) (a : RegNo) (r : BitVec 3) (e : BitVec 3)
  /-- NOP_C (R62): C-slot no-operation that only advances PC. -/
  | nopC
  /-- UDECLINE (R152): Passes the current user trap to the supervisor by escalation. -/
  | udecline
  /-- URET (R151): Returns from a user handler to UTPC, performing only the C slot if ADONE is set. -/
  | uret
  /-- LEAVE (R147): Ends following for a follower, or makes every follower of a leader leave. -/
  | leave
  /-- RET (R169): Jumps to the byte address held in g15. -/
  | ret
  /-- GETPUT_EXEC (R208): The serving home port transfers the elements of a GET or PUT and completes its counter. -/
  | getputExec
  /-- CCWAIT_POLL (R205): A remote counter wait issues its next pinned-fetch poll 256 cycles after the previous one. -/
  | ccwaitPoll
  /-- PIN (R189): Sets the strand's pin latch. -/
  | pin
  /-- UNPIN (R189): Clears the pin latch, SW.PINT, MIGCNT and MIGWIN. -/
  | unpin
  /-- SPAWNW_POOL_RETRY (R237): A SPAWNW parked on a full pool tries again when a pool entry frees. -/
  | spawnwPoolRetry
  /-- END (R238): Ends the strand after a release at D, decrementing its join counter and leaving its groups. -/
  | endStrand
  /-- YIELD (R240): Renews BUDGET, restarts the watch timer and gives up the slot. -/
  | yield
  /-- GROUP_ACCESS (R235): A group access message is applied at the group's HOME tile. -/
  | groupAccess
  /-- VMODE_SHORT (R251): Syncs the sequencer, frees the long unit and clears the short set. -/
  | vmodeShort
  /-- VMODE_LONG (R251): Waits for the core's long unit, takes it and clears w0-w15. -/
  | vmodeLong
  /-- LONG_UNIT_GRANT (R251): A strand waiting on VMODE.LONG takes the long unit when it is freed. -/
  | longUnitGrant
  /-- VCLR (R252): Zeroes the slot's short vector registers and clears VLIVE. -/
  | vclr
  /-- VSYNC (R258): Waits for the sequencer to drain and reports deferred flags and exceptions. -/
  | vsync
  /-- SEQUENCER_ENTRY (R256): The long sequencer executes its next queued entry in queue order. -/
  | sequencerEntry
  /-- BANK_INSTALL (R286): A remote bank command is installed in its bank's pending table from the arrival buffer. -/
  | bankInstall
  /-- BANK_COMMAND_EXEC (R287): A bank executes its next installed command over the range and completes it. -/
  | bankCommandExec
  /-- CPY_EXEC (R297): The copy engine walks, converts and writes the tensor elements, then completes. -/
  | cpyExec
  /-- CPYS_OPERAND (R299): With a permit taken, the engine fetches and writes one operand into the ring. -/
  | cpysOperand
  /-- MXLDB_EXEC (R311): The load path reads and aligns B and leaves the images READY or EMPTY. -/
  | mxldbExec
  /-- MXRUN_EXEC (R314): The compute path checks images, consults the step cache and computes and drains the product. -/
  | mxrunExec
  /-- MXDRAIN_EXEC (R317): The compute path converts the accumulator into the main and transposed drains. -/
  | mxdrainExec
  /-- MXSEND_ARRIVAL (R327): A remote matrix command reaches the target's remote-command queue or is refused as full or stale. -/
  | mxsendArrival
  /-- SCSET_EXEC (R341): The compute path sets REGION, SLOTSZ and THRESH and may invalidate every entry. -/
  | scsetExec
  /-- SCINV_EXEC (R342): The compute path invalidates the named entry or every entry. -/
  | scinvExec
  /-- SELCONTEXT_GRANT (R355): A SELOPEN waiting for a free context takes one when it frees. -/
  | selcontextGrant
  /-- SELRESET (R355): Queues freeing of the strand's selection context. -/
  | selreset
  /-- SELOPEN_EXEC (R356): The engine sets the context parameters and empties its lists. -/
  | selopenExec
  /-- SELPUSH_EXEC (R356): The engine reads the keys and offers each to its list. -/
  | selpushExec
  /-- SELEMIT_EXEC (R356): The engine writes the list positions and completes with the sticky status. -/
  | selemitExec
  /-- SELRESET_EXEC (R356): The engine frees the context and discards its lists. -/
  | selresetExec
  /-- FPUSH_EXEC (R379): The Flock unit accepts a push, counts it and inserts or sends the record. -/
  | fpushExec
  /-- FLOCK_RECORD_ARRIVAL (R369): A pushed record reaches its unit and is inserted or refused as full. -/
  | flockRecordArrival
  /-- FPOP_EXEC (R380): The unit takes the first eligible record, or steals, or parks the pop. -/
  | fpopExec
  /-- STEAL_REQUEST (R373): A tile receives a steal request and answers with a record or empty. -/
  | stealRequest
  /-- STEAL_ANSWER (R373): The thief receives a steal answer and delivers the record or passes the request on. -/
  | stealAnswer
  /-- INFLIGHT_REGISTER (R372): The origin tile registers a popped task's in-flight entry and counts a pop. -/
  | inflightRegister
  /-- FDONE (R381): Queues removal of the strand's in-flight entry. -/
  | fdone
  /-- FDONE_EXEC (R381): The origin removes the in-flight entry and counts one done. -/
  | fdoneExec
  /-- MESSAGE_ARRIVAL (R403): An arriving message is matched to a receive, queued in overflow or the handler queue, or refused. -/
  | messageArrival
  /-- MESSAGE_RETRY (R404): A refused message is resent after its delay, or lost after the last retry. -/
  | messageRetry
  /-- CONTROLLER_MESSAGE (R407): A message to the event-queue selector is written as an MSGEVENT record by the root controller. -/
  | controllerMessage
  /-- HANDLER_START (R408): The head of the handler queue starts in a free handler slot. -/
  | handlerStart
  /-- HEND (R411): Ends a handler after a release at D. -/
  | hend
  /-- WAKE_ARRIVAL (R412): The target slot's wake latch is set, completing an MWAIT with r = 0. -/
  | wakeArrival
  /-- HALTT_ARRIVAL (R413): The target strand stops under a supervisor hold. -/
  | halttArrival
  /-- INSP_ARRIVAL (R414): The target tile captures the strand's context image between bundles and returns it. -/
  | inspArrival
  /-- INSP_REPLY (R414): The image reply is written into the issuer's buffer and the issuer resumes. -/
  | inspReply
  /-- STALE_REFUSAL (R397): A stale refusal returns to the sender and is reported by counter, event or image. -/
  | staleRefusal
  /-- SRET (R433): Returns from a supervisor event to SV_EPC and clears INH. -/
  | sret
  /-- RESUME (R432): SYS service that lets an escalated or held strand continue. -/
  | resume
  /-- KILL (R432): SYS service that kills a strand with END's effects but no release wait. -/
  | kill
  /-- HOLD (R432): SYS service that holds a strand stopped. -/
  | hold
  /-- GO (R432): SYS service that returns a STOPPED pasture to RUNNING. -/
  | go
  /-- DRAIN (R426): SYS service that kills and discards all of a stopped pasture's work. -/
  | drain
  /-- RESET (R427): SYS service that zero-fills and clears a drained pasture and returns it to RUNNING. -/
  | reset
  /-- CREATE (R424): SYS service that checks a control block and creates a pasture. -/
  | create
  /-- DESTROY (R427): SYS service that frees a drained pasture's paddocks and erases its seal key. -/
  | destroy
  /-- QCTL (R432): SYS service that opens or closes the masked classes. -/
  | qctl
  /-- POST (R432): SYS service that posts a record to a pasture's event queue. -/
  | post
  /-- SHRINK (R438): SYS service that retires the logical line through a tile. -/
  | shrink
  /-- LOST (R439): SYS service that declares a tile failed. -/
  | lost
  /-- HEARTBEAT_MISS (R439): A tile misses the controller's 10 microsecond heartbeat and is treated as failed. -/
  | heartbeatMiss
  /-- SUPERVISOR_EVENT_ENTRY (R421): A controller core with INH = 0 takes the next fault or queued event and enters SV_VEC. -/
  | supervisorEventEntry
  /-- NOP_A (R62): A-slot no-operation. -/
  | nopA
  /-- BUDGET (R149): BUDGET is 0 when a bundle would issue and the BUDGET trap is taken with a 256-turn grace. -/
  | budget
  /-- BUDGET_GRACE_EXPIRY (R153): BUDGET reaches 0 again within the grace and the strand escalates. -/
  | budgetGraceExpiry
  /-- HANDLER_BUDGET (R410): A handler slot reaches its 4,096th turn and escalates. -/
  | handlerBudget
  /-- FOLLOW_TIMEOUT (R145): The leader issues 1,024 bundles without reaching p and the waiting follower leaves. -/
  | followTimeout
  /-- MIGRATION_DEPART (R182): Once acknowledgements are in, the source folds the strand and sends its context to the home. -/
  | migrationDepart
  /-- CONTEXT_ARRIVAL (R183): A context reaches its home and enters the arrival queue or is refused. -/
  | contextArrival
  /-- ARRIVAL_ACK (R182): The arrival acknowledgement frees the source's fold entry. -/
  | arrivalAck
  /-- MIGRATION_RETRY (R184): After its computed delay a refused migration is sent again. -/
  | migrationRetry
  /-- ARRIVAL_BIND (R183): The head of the arrival queue takes a free slot. -/
  | arrivalBind
  /-- PINNED_FETCH_SEND (R190): Once acknowledgements are in, a pinned read leaves for its home. -/
  | pinnedFetchSend
  /-- PINNED_FETCH_REQUEST (R190): A home performs a pinned fetch or pinned round trip and replies. -/
  | pinnedFetchRequest
  /-- PINNED_FETCH_REPLY (R190): The data of a pinned fetch returns and the requester resumes. -/
  | pinnedFetchReply
  /-- POSTED_OP_ARRIVAL (R82): A posted operation reaches its home and is performed in sequence or refused. -/
  | postedOpArrival
  /-- POSTED_ACK (R80): The acknowledgement of a posted operation reaches the issuing tile. -/
  | postedAck
  /-- FAILED_ACK (R193): A failed acknowledgement is recorded for the strand and an event is posted. -/
  | failedAck
  /-- WALK_COMPLETE (R177): A page walk finishes with a translation or a fault. -/
  | walkComplete
  /-- PACKET_DROP (R390): A router with a full input buffer drops a packet and sends a refusal notice. -/
  | packetDrop
  /-- REFUSAL_NOTICE (R82): A refusal notice reaches the source, which schedules a retransmission. -/
  | refusalNotice
  /-- RETRANSMIT (R390): After its delay the source sends a dropped or refused packet again. -/
  | retransmit
  /-- CLASS0_TOKEN_RETURN (R392): A tile's class-0 injection token returns 64 mesh cycles after use. -/
  | class0TokenReturn
  /-- COMMAND_ACCEPT (R28): An engine accepts the next head of its core and remote queues in round-robin order. -/
  | commandAccept
  /-- COMPLETION_REPORT (R32): The executing tile's completion report reaches the issuing tile as the command's acknowledgement. -/
  | completionReport
  /-- PERMIT_RECLAIM (R301): An engine fetch unanswered for the reclaim interval makes the controller reclaim the command's permits. -/
  | permitReclaim
  /-- CLASS_QUEUE_MOVE (R224): The controllers move an accepted slice from a class queue into placement. -/
  | classQueueMove
  /-- SLICE_BIND (R225): A free slot is given to a class-0 slice, an arrival or the first ready-queue candidate. -/
  | sliceBind
  /-- TREE_SAMPLE (R35): Every tile samples its tree contributions at the opening of each 64-cycle period. -/
  | treeSample
  /-- TREE_RESULT (R35): A tile receives the combined min-reduction tree result. -/
  | treeResult
  /-- STALL (R246): A mode B window ends with no progress while work lives and the pasture is gang-stopped. -/
  | stall
  /-- WATCH (R232): A strand's watch timer reaches its interval and a WATCH record is posted. -/
  | watch
  /-- FLOCK_DOMAIN_SAMPLE (R387): Each device of a Flock domain samples its floor and counts every 1,024 ns. -/
  | flockDomainSample
  /-- PATROL_SCRUB (R437): Patrol scrubbing reads every word once per interval and counts corrected errors. -/
  | patrolScrub
  /-- SPAN_LINK_TIMEOUT (R452): A device unreachable for the link time-out makes every operation to it fail. -/
  | spanLinkTimeout
  /-- POWER_SAMPLE (R19): Every 1 microsecond the power manager measures draw and steps the matrix rate down if over the share. -/
  | powerSample
  /-- POWER_STEP_UP (R19): After 10 microseconds at least 100 W below the share the matrix rate rises by one eighth. -/
  | powerStepUp
  /-- POWER_SHARE_WRITE (R19): Firmware sets a paddock's power share, refused if the total exceeds 3,000 W. -/
  | powerShareWrite
  /-- THERMAL_STEP_DOWN (R456): At 105 degrees C the matrix rate steps down by one eighth every 10 microseconds. -/
  | thermalStepDown
  /-- THERMAL_STEP_UP (R456): After 100 microseconds below 100 degrees C the matrix rate steps up. -/
  | thermalStepUp
  /-- THERMAL_STOP (R456): At 115 degrees C the controllers gang-stop the paddock's pastures and post THERMAL_STOP. -/
  | thermalStop
  /-- POWER_ON (R455): Power is applied and bring-up runs grading, zero fill and firmware loading. -/
  | powerOn
  /-- FEATURE_WORD_WRITE (R443): A write to FEAT2-FEAT7 before commit sets the accepted set to the AND with the offered bits. -/
  | featureWordWrite
  /-- FEATURE_COMMIT (R443): Writing FEATCTL.COMMIT fixes the accepted feature set and sets DONE. -/
  | featureCommit
  /-- ATTESTATION_START (R454): Writing ATTCTL.GO clears READY and starts an attestation report. -/
  | attestationStart
  /-- ATTESTATION_REPORT_DONE (R454): The device finishes writing ATTREP and sets READY. -/
  | attestationReportDone
  /-- LAUNCH (R444): A 64-byte host write into a launch window is checked and accepted as a slice. -/
  | launch
  /-- EVQHEAD_WRITE (R445): The host advances EVQHEAD, ignored if beyond EVQTAIL or backwards. -/
  | evqheadWrite
  /-- EVDROP_CLEAR (R445): Any write to EVDROP sets it to 0. -/
  | evdropClear
  /-- ROREF_CLEAR (R445): Any write to ROREF sets it to 0. -/
  | rorefClear
  /-- LREF_CLEAR (R445): Any write to LREF sets it to 0. -/
  | lrefClear
  /-- HOSTWAKE_WRITE (R245): The host arms or disarms the pasture's host wake. -/
  | hostwakeWrite
  /-- REGISTER_WRITE (R9): A write to a register with no behaviour of its own, such as DEVNUM, WINOPT or SPILLBASE. -/
  | registerWrite
  /-- HOST_READ (R451): A host read through BAR2 is performed by the word's home port. -/
  | hostRead
  /-- HOST_WRITE (R451): A host write through BAR2 is performed by the word's home port. -/
  | hostWrite
  deriving DecidableEq, Repr

end Sys2Proof
end

