-- ==== Sys2Proof/WellFormed.lean ====
section
/-! DEFINITION. Which instructions are well formed: the field values that the opcode map does not mark ILLEGAL
(R47, R48, R57 to R60, R64 to R70, R266, R274). -/

namespace Sys2Proof

/-- A rounding field that is not 5 or 6 (R68). -/
def roundOk (r : BitVec 3) : Bool := r.toNat != 5 && r.toNat != 6

/-- A vector register code valid for its class (R48, R49). -/
def vreg (long : Bool) (x : RegNo) : Bool := long || decide (x.toNat ≤ 7)

/-- A vb field: a vector register, or with SB a stream 0-3 (R49). -/
def vsrc (long sb : Bool) (b : RegNo) : Bool := if sb then decide (b.toNat ≤ 3) else vreg long b

/-- A scalar type code that names an integer (R67). -/
def scalarInt (x : BitVec 3) : Bool := decide (4 ≤ x.toNat)

/-- ety and rnd of an instruction that rounds, or any integer type (R266). -/
def etyArith (e r : BitVec 3) : Bool := e.toNat == 7 || roundOk r
/-- ety and rnd of an instruction with "rnd 0" (R266). -/
def etyMove (e r : BitVec 3) : Bool := e.toNat == 7 || r.toNat == 0
/-- ety of the bitwise instructions (R266). -/
def etyBits (e _r : BitVec 3) : Bool := e.toNat == 7
/-- ety and rnd of VDOT.IP and VDOT.L2 (R266). -/
def etyDot (e r : BitVec 3) : Bool := if e.toNat = 7 then r.toNat != 3 && r.toNat != 7 else roundOk r
/-- ety and rnd of VDOT.COS and VDOT.COSN (R266). -/
def etyDotF (e r : BitVec 3) : Bool := e.toNat != 7 && roundOk r
/-- ety and rnd of the special functions (R266). -/
def etySpecial (e r : BitVec 3) : Bool := decide (e.toNat ≤ 3) && roundOk r

/-- Element width of a full type code (R69, R249). -/
def fullBits (y : BitVec 4) : Nat :=
  match y.toNat with
  | 0 => 32 | 1 => 64 | 2 => 16 | 3 => 16 | 4 => 8 | 5 => 8 | 6 => 8 | 7 => 4
  | 8 => 8 | 9 => 16 | 10 => 32 | 11 => 64 | 12 => 8 | 13 => 16 | 14 => 32 | _ => 8

/-- Element width of an ety, with rnd holding the integer type when ety is 7 (R69, R249). -/
def etyBitsOf (e r : BitVec 3) : Nat :=
  match e.toNat with
  | 0 => 32 | 1 => 64 | 2 => 16 | 3 => 16 | 4 => 8 | 5 => 8 | 6 => 8
  | _ => 8 * 2 ^ (r.toNat % 4)

/-- The well-formed instructions (R60). Events and forms without a constrained field are always well formed. -/
def Instr.wf : Instr → Bool
  | .nopC => true
  | .csrr _ _ => true
  | .csrw _ _ => true
  | .time _ => true
  | .trap _ => true
  | .udecline => true
  | .uret => true
  | .follow _ => true
  | .leave => true
  | .jr _ => true
  | .ret => true
  | .homeof _ _ => true
  | .lea _ _ _ => true
  | .br _ => true
  | .call _ => true
  | .brc _ _ _ _ => true
  | .cmps _ _ _ k => decide (k.toNat ≠ 0)
  | .cmpsi _ _ k _ => decide (k.toNat ≠ 0)
  | .brl _ _ _ => true
  | .ld _ _ s _ => decide (s.toNat ≤ 6)
  | .st _ _ s _ => decide (s.toNat ≤ 3)
  | .ldp _ _ s _ => decide (s.toNat ≤ 6)
  | .ldAcq _ _ s _ => decide (s.toNat ≤ 6)
  | .stRel _ _ s _ _ => decide (s.toNat ≤ 3)
  | .ldfe _ _ _ => true
  | .ldff _ _ _ => true
  | .stef _ _ _ => true
  | .stff _ _ _ => true
  | .fempty _ _ => true
  | .ffull _ _ => true
  | .lrw _ _ _ => true
  | .sch _ _ _ => true
  | .relr _ _ => true
  | .amop _ _ o z => decide (o.toNat ≤ 8 ∧ 2 ≤ z.toNat)
  | .amoz _ _ => true
  | .amor _ _ _ o z => decide (o.toNat ≤ 9 ∧ 2 ≤ z.toNat)
  | .cas _ _ _ z => decide (2 ≤ z.toNat)
  | .get _ _ _ => true
  | .put _ _ _ => true
  | .getputExec => true
  | .ccwait _ _ => true
  | .ccwaitLong _ _ => true
  | .ccwaitPoll => true
  | .ccset _ _ => true
  | .fence _ => true
  | .mig _ => true
  | .pin => true
  | .unpin => true
  | .discard _ _ => true
  | .pref _ => true
  | .spawn _ _ => true
  | .spawnw _ _ => true
  | .spawnwPoolRetry => true
  | .endStrand => true
  | .yield => true
  | .join _ => true
  | .dlset _ => true
  | .sliceinfo _ _ => true
  | .gbar _ => true
  | .garrive _ => true
  | .gwait _ => true
  | .groupAccess => true
  | .vldV d _ _ => decide (d.toNat ≤ 7)
  | .vldW _ _ _ => true
  | .vstV d _ _ => decide (d.toNat ≤ 7)
  | .vstW _ _ _ => true
  | .vmodeShort => true
  | .vmodeLong => true
  | .longUnitGrant => true
  | .vclr => true
  | .vloop _ _ => true
  | .vloopLong _ _ => true
  | .vsync => true
  | .sequencerEntry => true
  | .sbind d _ => decide (d.toNat ≤ 3)
  | .sfree d => decide (d.toNat ≤ 3)
  | .badd _ _ _ => true
  | .baxpy _ _ _ => true
  | .bscale _ _ _ => true
  | .bmax _ _ _ => true
  | .bexps _ _ _ => true
  | .bsum _ _ _ => true
  | .bfill _ _ _ => true
  | .bankInstall => true
  | .bankCommandExec => true
  | .cpy _ _ _ => true
  | .cpyExec => true
  | .cpys d _ _ => decide (d.toNat ≤ 3)
  | .cpysOperand => true
  | .cpystat _ _ => true
  | .mxldb _ _ _ => true
  | .mxldbExec => true
  | .mxrun _ _ _ => true
  | .mxrunExec => true
  | .mxdrain _ _ _ => true
  | .mxdrainExec => true
  | .mxwait _ _ => true
  | .mxstat _ _ => true
  | .mxsend _ _ _ => true
  | .mxsendArrival => true
  | .scset _ => true
  | .scsetExec => true
  | .scinv _ => true
  | .scinvExec => true
  | .scstat _ _ => true
  | .selopen _ => true
  | .selcontextGrant => true
  | .selpush _ _ => true
  | .selemit _ _ => true
  | .selreset => true
  | .selopenExec => true
  | .selpushExec => true
  | .selemitExec => true
  | .selresetExec => true
  | .fpush _ => true
  | .fpushRel _ => true
  | .fpushExec => true
  | .flockRecordArrival => true
  | .fpop _ _ => true
  | .fpopExec => true
  | .stealRequest => true
  | .stealAnswer => true
  | .inflightRegister => true
  | .fdone => true
  | .fdoneExec => true
  | .ffloor _ => true
  | .fstat _ _ => true
  | .msend _ _ => true
  | .msendh _ _ => true
  | .mpost _ => true
  | .mwait _ _ => true
  | .mprobe _ _ => true
  | .mcancel _ => true
  | .messageArrival => true
  | .messageRetry => true
  | .controllerMessage => true
  | .handlerStart => true
  | .hend => true
  | .wake _ => true
  | .wakeArrival => true
  | .haltt _ => true
  | .halttArrival => true
  | .insp _ _ => true
  | .inspArrival => true
  | .inspReply => true
  | .staleRefusal => true
  | .mint _ _ => true
  | .tlbinv _ _ => true
  | .gstop _ => true
  | .ctxld _ _ => true
  | .ctxst _ _ => true
  | .sret => true
  | .resume => true
  | .kill => true
  | .hold => true
  | .go => true
  | .drain => true
  | .reset => true
  | .create => true
  | .destroy => true
  | .qctl => true
  | .post => true
  | .shrink => true
  | .lost => true
  | .heartbeatMiss => true
  | .supervisorEventEntry => true
  | .nopA => true
  | .add _ _ _ => true
  | .sub _ _ _ => true
  | .and _ _ _ => true
  | .or _ _ _ => true
  | .xor _ _ _ => true
  | .andn _ _ _ => true
  | .shl _ _ _ => true
  | .shr _ _ _ => true
  | .sra _ _ _ => true
  | .rot _ _ _ => true
  | .mul _ _ _ => true
  | .mulh _ _ _ => true
  | .mulhn _ _ _ => true
  | .min _ _ _ => true
  | .max _ _ _ => true
  | .minn _ _ _ => true
  | .maxn _ _ _ => true
  | .clz _ _ => true
  | .ctz _ _ => true
  | .popc _ _ => true
  | .slt _ _ _ => true
  | .sltn _ _ _ => true
  | .seq _ _ _ => true
  | .div _ _ _ => true
  | .divn _ _ _ => true
  | .rem _ _ _ => true
  | .remn _ _ _ => true
  | .bext _ _ l p => decide (p.toNat + l.toNat + 1 ≤ 64)
  | .bins _ _ l p => decide (p.toNat + l.toNat + 1 ≤ 64)
  | .sel _ _ _ _ => true
  | .addi _ _ _ => true
  | .andi _ _ _ => true
  | .ori _ _ _ => true
  | .xori _ _ _ => true
  | .shli _ _ _ => true
  | .shri _ _ _ => true
  | .srai _ _ _ => true
  | .movi _ _ => true
  | .liw _ _ => true
  | .lih _ _ => true
  | .brLong _ => true
  | .calll _ => true
  | .leaLong _ _ _ => true
  | .fadd _ _ _ r t => decide (roundOk r = true ∧ t.toNat ≤ 1)
  | .fsub _ _ _ r t => decide (roundOk r = true ∧ t.toNat ≤ 1)
  | .fmul _ _ _ r t => decide (roundOk r = true ∧ t.toNat ≤ 1)
  | .ffma _ _ _ r t => decide (roundOk r = true ∧ t.toNat ≤ 1)
  | .fmin _ _ _ t => decide (t.toNat ≤ 1)
  | .fmax _ _ _ t => decide (t.toNat ≤ 1)
  | .fdiv _ _ _ r t => decide (roundOk r = true ∧ t.toNat ≤ 1)
  | .fsqrt _ _ r t => decide (roundOk r = true ∧ t.toNat ≤ 1)
  | .fsgn _ _ _ t => decide (t.toNat ≤ 1)
  | .fsgnn _ _ _ t => decide (t.toNat ≤ 1)
  | .fsgnx _ _ _ t => decide (t.toNat ≤ 1)
  | .fcmp _ _ _ _ t => decide (t.toNat ≤ 1)
  | .fcvt _ _ r x y _ => decide (roundOk r = true ∧ x ≠ y ∧ (scalarInt x && scalarInt y → r.toNat = 0))
  | .vadd cl d a b r e sb => decide (vreg cl d = true ∧ vreg cl a = true ∧ vsrc cl sb b = true ∧ etyArith e r = true)
  | .vsub cl d a b r e sb => decide (vreg cl d = true ∧ vreg cl a = true ∧ vsrc cl sb b = true ∧ etyArith e r = true)
  | .vmul cl d a b r e sb => decide (vreg cl d = true ∧ vreg cl a = true ∧ vsrc cl sb b = true ∧ etyArith e r = true)
  | .vmin cl d a b r e sb => decide (vreg cl d = true ∧ vreg cl a = true ∧ vsrc cl sb b = true ∧ etyMove e r = true)
  | .vmax cl d a b r e sb => decide (vreg cl d = true ∧ vreg cl a = true ∧ vsrc cl sb b = true ∧ etyMove e r = true)
  | .vabs cl d a r e => decide (vreg cl d = true ∧ vreg cl a = true ∧ etyMove e r = true)
  | .vneg cl d a r e => decide (vreg cl d = true ∧ vreg cl a = true ∧ etyMove e r = true)
  | .vfma cl d a b r e sb => decide (vreg cl d = true ∧ vreg cl a = true ∧ vsrc cl sb b = true ∧ etyArith e r = true)
  | .vfms cl d a b r e sb => decide (vreg cl d = true ∧ vreg cl a = true ∧ vsrc cl sb b = true ∧ etyArith e r = true)
  | .vand cl d a b r e sb => decide (vreg cl d = true ∧ vreg cl a = true ∧ vsrc cl sb b = true ∧ etyBits e r = true)
  | .vor cl d a b r e sb => decide (vreg cl d = true ∧ vreg cl a = true ∧ vsrc cl sb b = true ∧ etyBits e r = true)
  | .vxor cl d a b r e sb => decide (vreg cl d = true ∧ vreg cl a = true ∧ vsrc cl sb b = true ∧ etyBits e r = true)
  | .vshl cl d a b r e sb => decide (vreg cl d = true ∧ vreg cl a = true ∧ vsrc cl sb b = true ∧ etyBits e r = true)
  | .vshr cl d a b r e sb => decide (vreg cl d = true ∧ vreg cl a = true ∧ vsrc cl sb b = true ∧ etyBits e r = true)
  | .vcmp cl d a b r e sb cond => decide (vreg cl d = true ∧ vreg cl a = true ∧ vsrc cl sb b = true ∧ (if 6 ≤ cond.toNat then e.toNat ≠ 7 ∧ r.toNat = 0 else etyMove e r))
  | .vsel cl d a b r e sb => decide (vreg cl d = true ∧ vreg cl a = true ∧ vsrc cl sb b = true ∧ etyBits e r = true)
  | .vbcast cl d _ r e => decide (vreg cl d = true ∧ etyMove e r = true)
  | .vext cl _ a _ r e => decide (vreg cl a = true ∧ etyMove e r = true)
  | .vperm cl d a b r e sb => decide (vreg cl d = true ∧ vreg cl a = true ∧ vsrc cl sb b = true ∧ etyMove e r = true)
  | .vredAdd cl d a r e => decide (vreg cl d = true ∧ vreg cl a = true ∧ etyArith e r = true)
  | .vredMin cl d a r e => decide (vreg cl d = true ∧ vreg cl a = true ∧ etyMove e r = true)
  | .vredMax cl d a r e => decide (vreg cl d = true ∧ vreg cl a = true ∧ etyMove e r = true)
  | .vdotIp cl d a b r e sb => decide (vreg cl d = true ∧ vreg cl a = true ∧ vsrc cl sb b = true ∧ etyDot e r = true)
  | .vdotCos cl d a b r e sb => decide (vreg cl d = true ∧ vreg cl a = true ∧ vsrc cl sb b = true ∧ etyDotF e r = true)
  | .vdotCosn cl d a b r e sb => decide (vreg cl d = true ∧ vreg cl a = true ∧ vsrc cl sb b = true ∧ etyDotF e r = true)
  | .vdotL2 cl d a b r e sb => decide (vreg cl d = true ∧ vreg cl a = true ∧ vsrc cl sb b = true ∧ etyDot e r = true)
  | .vcvt cl d a x r _ y => decide (vreg cl d = true ∧ vreg cl a = true ∧ roundOk r = true ∧ x ≠ y ∧ x.toNat ≠ 15 ∧ y.toNat ≠ 15 ∧ fullBits x = fullBits y)
  | .vpack cl d a b r e _ y => decide (vreg cl d = true ∧ vreg cl a = true ∧ vreg cl b = true ∧ etyArith e r = true ∧ y.toNat ≠ 15 ∧ (etyBitsOf e r = 2 * fullBits y ∨ etyBitsOf e r = 4 * fullBits y))
  | .vunpack cl d a _ r e y => decide (vreg cl d = true ∧ vreg cl a = true ∧ etyArith e r = true ∧ y.toNat ≠ 15 ∧ etyBitsOf e r = 2 * fullBits y)
  | .vscale cl d a b r y => decide (vreg cl d = true ∧ vreg cl a = true ∧ vreg cl b = true ∧ roundOk r = true ∧ y.toNat ≤ 7 ∧ y.toNat ≠ 6)
  | .vrcp cl d a r e => decide (vreg cl d = true ∧ vreg cl a = true ∧ etySpecial e r = true)
  | .vrcpn cl d a b r e sb => decide (vreg cl d = true ∧ vreg cl a = true ∧ vsrc cl sb b = true ∧ etySpecial e r = true)
  | .vrsq cl d a r e => decide (vreg cl d = true ∧ vreg cl a = true ∧ etySpecial e r = true)
  | .vrsqn cl d a b r e sb => decide (vreg cl d = true ∧ vreg cl a = true ∧ vsrc cl sb b = true ∧ etySpecial e r = true)
  | .vexp2 cl d a r e => decide (vreg cl d = true ∧ vreg cl a = true ∧ etySpecial e r = true)
  | .vlog2 cl d a r e => decide (vreg cl d = true ∧ vreg cl a = true ∧ etySpecial e r = true)
  | .budget => true
  | .budgetGraceExpiry => true
  | .handlerBudget => true
  | .followTimeout => true
  | .migrationDepart => true
  | .contextArrival => true
  | .arrivalAck => true
  | .migrationRetry => true
  | .arrivalBind => true
  | .pinnedFetchSend => true
  | .pinnedFetchRequest => true
  | .pinnedFetchReply => true
  | .postedOpArrival => true
  | .postedAck => true
  | .failedAck => true
  | .walkComplete => true
  | .packetDrop => true
  | .refusalNotice => true
  | .retransmit => true
  | .class0TokenReturn => true
  | .commandAccept => true
  | .completionReport => true
  | .permitReclaim => true
  | .classQueueMove => true
  | .sliceBind => true
  | .treeSample => true
  | .treeResult => true
  | .stall => true
  | .watch => true
  | .flockDomainSample => true
  | .patrolScrub => true
  | .spanLinkTimeout => true
  | .powerSample => true
  | .powerStepUp => true
  | .powerShareWrite => true
  | .thermalStepDown => true
  | .thermalStepUp => true
  | .thermalStop => true
  | .powerOn => true
  | .featureWordWrite => true
  | .featureCommit => true
  | .attestationStart => true
  | .attestationReportDone => true
  | .launch => true
  | .evqheadWrite => true
  | .evdropClear => true
  | .rorefClear => true
  | .lrefClear => true
  | .hostwakeWrite => true
  | .registerWrite => true
  | .hostRead => true
  | .hostWrite => true

end Sys2Proof
end

