-- ==== Sys2Proof/Decode.lean ====
section
/-! DEFINITION. The decoder and the encoder (R41 to R47, R62 to R70). A bundle is two words; word 0 with bit 31 clear is
a C-slot instruction and word 1 an A-slot instruction; word 0 with bit 31 set is a long instruction with its extension in
word 1. Words are read as natural numbers, and a field is a quotient by a power of two, cut to its width. -/

namespace Sys2Proof

/-- Why a word is no instruction (R60). -/
inductive Reject where
  | unassigned      -- an opcode, SUB, func or selector value marked ILLEGAL or not listed
  | reserved        -- a non-zero reserved field
  | illegalField    -- a cls, cond, type, rounding value or register code marked ILLEGAL
  | short           -- fewer than the 8 bytes of a bundle
  deriving DecidableEq, Repr

/-- Field of n bits at bit lo of a word. -/
def fld (n w lo : Nat) : BitVec n := BitVec.ofNat n (w / 2 ^ lo)
/-- One bit of a word. -/
def bit (w lo : Nat) : Bool := w / 2 ^ lo % 2 == 1
/-- Accepts a well-formed instruction. -/
def accept (i : Instr) : Except Reject Instr := if i.wf then .ok i else .error .illegalField

/-- The C-slot map (R64), major 0x00. -/
def decC0 (w : Nat) : Except Reject Instr :=
  match w / 512 % 16 with
  | 0 => if w / 1 % 512 = 0 ∧ w / 8192 % 4096 = 0 then accept .nopC else .error .reserved
  | 1 => if w / 256 % 2 = 0 ∧ w / 8192 % 256 = 0 then accept (.csrr (fld 4 w 21) (fld 8 w 0)) else .error .reserved
  | 2 => if w / 256 % 2 = 0 ∧ w / 8192 % 16 = 0 ∧ w / 2097152 % 16 = 0 then accept (.csrw (fld 4 w 17) (fld 8 w 0)) else .error .reserved
  | 3 => if w / 1 % 512 = 0 ∧ w / 8192 % 256 = 0 then accept (.time (fld 4 w 21)) else .error .reserved
  | 4 => if w / 256 % 2 = 0 ∧ w / 8192 % 4096 = 0 then accept (.trap (fld 8 w 0)) else .error .reserved
  | 5 => if w / 1 % 512 = 0 ∧ w / 8192 % 4096 = 0 then accept .udecline else .error .reserved
  | 6 => if w / 1 % 512 = 0 ∧ w / 8192 % 4096 = 0 then accept .uret else .error .reserved
  | 7 => if w / 1 % 512 = 0 ∧ w / 8192 % 16 = 0 ∧ w / 2097152 % 16 = 0 then accept (.follow (fld 4 w 17)) else .error .reserved
  | 8 => if w / 1 % 512 = 0 ∧ w / 8192 % 4096 = 0 then accept .leave else .error .reserved
  | 9 => if w / 1 % 512 = 0 ∧ w / 8192 % 16 = 0 ∧ w / 2097152 % 16 = 0 then accept (.jr (fld 4 w 17)) else .error .reserved
  | 10 => if w / 1 % 512 = 0 ∧ w / 8192 % 4096 = 0 then accept .ret else .error .reserved
  | 11 => if w / 1 % 512 = 0 ∧ w / 8192 % 16 = 0 then accept (.homeof (fld 4 w 21) (fld 4 w 17)) else .error .reserved
  | _ => .error .unassigned

/-- The C-slot map (R64), major 0x01. -/
def decC1 (w : Nat) : Except Reject Instr :=
  accept (.lea (fld 4 w 21) (fld 4 w 17) (fld 17 w 0))

/-- The C-slot map (R64), major 0x02. -/
def decC2 (w : Nat) : Except Reject Instr :=
  accept (.br (fld 25 w 0))

/-- The C-slot map (R64), major 0x03. -/
def decC3 (w : Nat) : Except Reject Instr :=
  accept (.call (fld 25 w 0))

/-- The C-slot map (R64), major 0x04. -/
def decC4 (w : Nat) : Except Reject Instr :=
  accept (.brc (fld 4 w 21) (fld 4 w 17) (fld 3 w 14) (fld 14 w 0))

/-- The C-slot map (R64), major 0x05. -/
def decC5 (w : Nat) : Except Reject Instr :=
  if w / 1 % 4096 = 0 then accept (.cmps (fld 4 w 21) (fld 4 w 17) (fld 3 w 14) (fld 2 w 12)) else .error .reserved

/-- The C-slot map (R64), major 0x06. -/
def decC6 (w : Nat) : Except Reject Instr :=
  if w / 131072 % 16 = 0 then accept (.cmpsi (fld 4 w 21) (fld 3 w 14) (fld 2 w 12) (fld 12 w 0)) else .error .reserved

/-- The C-slot map (R64), major 0x07. -/
def decC7 (w : Nat) : Except Reject Instr :=
  accept (.brl (fld 4 w 21) (fld 4 w 17) (fld 17 w 0))

/-- The C-slot map (R64), major 0x08. -/
def decC8 (w : Nat) : Except Reject Instr :=
  accept (.ld (fld 4 w 21) (fld 4 w 17) (fld 3 w 14) (fld 14 w 0))

/-- The C-slot map (R64), major 0x09. -/
def decC9 (w : Nat) : Except Reject Instr :=
  accept (.st (fld 4 w 21) (fld 4 w 17) (fld 3 w 14) (fld 14 w 0))

/-- The C-slot map (R64), major 0x0A. -/
def decC10 (w : Nat) : Except Reject Instr :=
  accept (.ldp (fld 4 w 21) (fld 4 w 17) (fld 3 w 14) (fld 14 w 0))

/-- The C-slot map (R64), major 0x0B. -/
def decC11 (w : Nat) : Except Reject Instr :=
  accept (.ldAcq (fld 4 w 21) (fld 4 w 17) (fld 3 w 14) (fld 14 w 0))

/-- The C-slot map (R64), major 0x0C. -/
def decC12 (w : Nat) : Except Reject Instr :=
  accept (.stRel (fld 4 w 21) (fld 4 w 17) (fld 3 w 14) (fld 2 w 12) (fld 12 w 0))

/-- The C-slot map (R64), major 0x0D. -/
def decC13 (w : Nat) : Except Reject Instr :=
  match w / 16384 % 8 with
  | 0 => accept (.ldfe (fld 4 w 21) (fld 4 w 17) (fld 14 w 0))
  | 1 => accept (.ldff (fld 4 w 21) (fld 4 w 17) (fld 14 w 0))
  | 2 => accept (.stef (fld 4 w 21) (fld 4 w 17) (fld 14 w 0))
  | 3 => accept (.stff (fld 4 w 21) (fld 4 w 17) (fld 14 w 0))
  | 4 => if w / 2097152 % 16 = 0 then accept (.fempty (fld 4 w 17) (fld 14 w 0)) else .error .reserved
  | 5 => if w / 2097152 % 16 = 0 then accept (.ffull (fld 4 w 17) (fld 14 w 0)) else .error .reserved
  | _ => .error .unassigned

/-- The C-slot map (R64), major 0x0E. -/
def decC14 (w : Nat) : Except Reject Instr :=
  match w / 16384 % 8 with
  | 0 => accept (.lrw (fld 4 w 21) (fld 4 w 17) (fld 14 w 0))
  | 1 => accept (.sch (fld 4 w 21) (fld 4 w 17) (fld 14 w 0))
  | 2 => if w / 2097152 % 16 = 0 then accept (.relr (fld 4 w 17) (fld 14 w 0)) else .error .reserved
  | _ => .error .unassigned

/-- The C-slot map (R64), major 0x0F. -/
def decC15 (w : Nat) : Except Reject Instr :=
  if w / 1 % 128 = 0 ∧ w / 2097152 % 16 = 0 then accept (.amop (fld 4 w 17) (fld 4 w 13) (fld 4 w 9) (fld 2 w 7)) else .error .reserved

/-- The C-slot map (R64), major 0x10. -/
def decC16 (w : Nat) : Except Reject Instr :=
  if w / 1 % 8192 = 0 ∧ w / 2097152 % 16 = 0 then accept (.amoz (fld 4 w 17) (fld 4 w 13)) else .error .reserved

/-- The C-slot map (R64), major 0x11. -/
def decC17 (w : Nat) : Except Reject Instr :=
  if w / 1 % 128 = 0 then accept (.amor (fld 4 w 21) (fld 4 w 17) (fld 4 w 13) (fld 4 w 9) (fld 2 w 7)) else .error .reserved

/-- The C-slot map (R64), major 0x12. -/
def decC18 (w : Nat) : Except Reject Instr :=
  if w / 1 % 128 = 0 ∧ w / 512 % 16 = 0 then accept (.cas (fld 4 w 21) (fld 4 w 17) (fld 4 w 13) (fld 2 w 7)) else .error .reserved

/-- The C-slot map (R64), major 0x13. -/
def decC19 (w : Nat) : Except Reject Instr :=
  match w / 512 % 16 with
  | 0 => if w / 1 % 128 = 0 ∧ w / 2097152 % 16 = 0 then accept (.get (fld 4 w 17) (fld 4 w 13) (fld 2 w 7)) else .error .reserved
  | 1 => if w / 1 % 128 = 0 ∧ w / 2097152 % 16 = 0 then accept (.put (fld 4 w 17) (fld 4 w 13) (fld 2 w 7)) else .error .reserved
  | _ => .error .unassigned

/-- The C-slot map (R64), major 0x14. -/
def decC20 (w : Nat) : Except Reject Instr :=
  match w / 512 % 16 with
  | 0 => if w / 1 % 512 = 0 ∧ w / 2097152 % 16 = 0 then accept (.ccwait (fld 4 w 17) (fld 4 w 13)) else .error .reserved
  | 1 => if w / 1 % 512 = 0 ∧ w / 2097152 % 16 = 0 then accept (.ccset (fld 4 w 17) (fld 4 w 13)) else .error .reserved
  | _ => .error .unassigned

/-- The C-slot map (R64), major 0x15. -/
def decC21 (w : Nat) : Except Reject Instr :=
  match w / 512 % 16 with
  | 0 => if w / 1 % 128 = 0 ∧ w / 8192 % 4096 = 0 then accept (.fence (fld 2 w 7)) else .error .reserved
  | 1 => if w / 1 % 512 = 0 ∧ w / 8192 % 16 = 0 ∧ w / 2097152 % 16 = 0 then accept (.mig (fld 4 w 17)) else .error .reserved
  | 2 => if w / 1 % 512 = 0 ∧ w / 8192 % 4096 = 0 then accept .pin else .error .reserved
  | 3 => if w / 1 % 512 = 0 ∧ w / 8192 % 4096 = 0 then accept .unpin else .error .reserved
  | 4 => if w / 1 % 512 = 0 ∧ w / 2097152 % 16 = 0 then accept (.discard (fld 4 w 17) (fld 4 w 13)) else .error .reserved
  | 5 => if w / 1 % 512 = 0 ∧ w / 8192 % 16 = 0 ∧ w / 2097152 % 16 = 0 then accept (.pref (fld 4 w 17)) else .error .reserved
  | _ => .error .unassigned

/-- The C-slot map (R64), major 0x18. -/
def decC24 (w : Nat) : Except Reject Instr :=
  match w / 512 % 16 with
  | 0 => if w / 1 % 512 = 0 ∧ w / 8192 % 16 = 0 then accept (.spawn (fld 4 w 21) (fld 4 w 17)) else .error .reserved
  | 1 => if w / 1 % 512 = 0 ∧ w / 8192 % 16 = 0 then accept (.spawnw (fld 4 w 21) (fld 4 w 17)) else .error .reserved
  | 2 => if w / 1 % 512 = 0 ∧ w / 8192 % 4096 = 0 then accept .endStrand else .error .reserved
  | 3 => if w / 1 % 512 = 0 ∧ w / 8192 % 4096 = 0 then accept .yield else .error .reserved
  | 4 => if w / 1 % 512 = 0 ∧ w / 8192 % 16 = 0 ∧ w / 2097152 % 16 = 0 then accept (.join (fld 4 w 17)) else .error .reserved
  | 5 => if w / 1 % 512 = 0 ∧ w / 8192 % 16 = 0 ∧ w / 2097152 % 16 = 0 then accept (.dlset (fld 4 w 17)) else .error .reserved
  | 6 => if w / 256 % 2 = 0 ∧ w / 8192 % 256 = 0 then accept (.sliceinfo (fld 4 w 21) (fld 8 w 0)) else .error .reserved
  | _ => .error .unassigned

/-- The C-slot map (R64), major 0x19. -/
def decC25 (w : Nat) : Except Reject Instr :=
  match w / 512 % 16 with
  | 0 => if w / 256 % 2 = 0 ∧ w / 8192 % 4096 = 0 then accept (.gbar (fld 8 w 0)) else .error .reserved
  | 1 => if w / 256 % 2 = 0 ∧ w / 8192 % 4096 = 0 then accept (.garrive (fld 8 w 0)) else .error .reserved
  | 2 => if w / 256 % 2 = 0 ∧ w / 8192 % 4096 = 0 then accept (.gwait (fld 8 w 0)) else .error .reserved
  | _ => .error .unassigned

/-- The C-slot map (R64), major 0x1C. -/
def decC28 (w : Nat) : Except Reject Instr :=
  match w / 16384 % 8 with
  | 0 => accept (.vldV (fld 4 w 21) (fld 4 w 17) (fld 14 w 0))
  | 1 => accept (.vldW (fld 4 w 21) (fld 4 w 17) (fld 14 w 0))
  | 2 => accept (.vstV (fld 4 w 21) (fld 4 w 17) (fld 14 w 0))
  | 3 => accept (.vstW (fld 4 w 21) (fld 4 w 17) (fld 14 w 0))
  | _ => .error .unassigned

/-- The C-slot map (R64), major 0x1D. -/
def decC29 (w : Nat) : Except Reject Instr :=
  match w / 512 % 16 with
  | 0 =>
    match w / 1 % 2 with
    | 0 => if w / 2 % 256 = 0 ∧ w / 8192 % 4096 = 0 then accept .vmodeShort else .error .reserved
    | 1 => if w / 2 % 256 = 0 ∧ w / 8192 % 4096 = 0 then accept .vmodeLong else .error .reserved
    | _ => .error .unassigned
  | 1 => if w / 1 % 512 = 0 ∧ w / 8192 % 4096 = 0 then accept .vclr else .error .reserved
  | 2 => if w / 16 % 32 = 0 ∧ w / 8192 % 16 = 0 ∧ w / 2097152 % 16 = 0 then accept (.vloop (fld 4 w 17) (fld 4 w 0)) else .error .reserved
  | 3 => if w / 1 % 512 = 0 ∧ w / 8192 % 4096 = 0 then accept .vsync else .error .reserved
  | 4 => if w / 1 % 512 = 0 ∧ w / 8192 % 16 = 0 then accept (.sbind (fld 4 w 21) (fld 4 w 17)) else .error .reserved
  | 5 => if w / 1 % 512 = 0 ∧ w / 8192 % 256 = 0 then accept (.sfree (fld 4 w 21)) else .error .reserved
  | _ => .error .unassigned

/-- The C-slot map (R64), major 0x20. -/
def decC32 (w : Nat) : Except Reject Instr :=
  match w / 512 % 16 with
  | 0 => if w / 1 % 128 = 0 ∧ w / 2097152 % 16 = 0 then accept (.badd (fld 4 w 17) (fld 4 w 13) (fld 2 w 7)) else .error .reserved
  | 1 => if w / 1 % 128 = 0 ∧ w / 2097152 % 16 = 0 then accept (.baxpy (fld 4 w 17) (fld 4 w 13) (fld 2 w 7)) else .error .reserved
  | 2 => if w / 1 % 128 = 0 ∧ w / 2097152 % 16 = 0 then accept (.bscale (fld 4 w 17) (fld 4 w 13) (fld 2 w 7)) else .error .reserved
  | 3 => if w / 1 % 128 = 0 ∧ w / 2097152 % 16 = 0 then accept (.bmax (fld 4 w 17) (fld 4 w 13) (fld 2 w 7)) else .error .reserved
  | 4 => if w / 1 % 128 = 0 ∧ w / 2097152 % 16 = 0 then accept (.bexps (fld 4 w 17) (fld 4 w 13) (fld 2 w 7)) else .error .reserved
  | 5 => if w / 1 % 128 = 0 ∧ w / 2097152 % 16 = 0 then accept (.bsum (fld 4 w 17) (fld 4 w 13) (fld 2 w 7)) else .error .reserved
  | 6 => if w / 1 % 128 = 0 ∧ w / 2097152 % 16 = 0 then accept (.bfill (fld 4 w 17) (fld 4 w 13) (fld 2 w 7)) else .error .reserved
  | _ => .error .unassigned

/-- The C-slot map (R64), major 0x24. -/
def decC36 (w : Nat) : Except Reject Instr :=
  match w / 512 % 16 with
  | 0 => if w / 1 % 128 = 0 ∧ w / 2097152 % 16 = 0 then accept (.cpy (fld 4 w 17) (fld 4 w 13) (fld 2 w 7)) else .error .reserved
  | 1 => if w / 1 % 128 = 0 ∧ w / 8192 % 16 = 0 then accept (.cpys (fld 4 w 21) (fld 4 w 17) (fld 2 w 7)) else .error .reserved
  | 2 => if w / 128 % 4 = 0 ∧ w / 8192 % 256 = 0 then accept (.cpystat (fld 4 w 21) (fld 7 w 0)) else .error .reserved
  | _ => .error .unassigned

/-- The C-slot map (R64), major 0x26. -/
def decC38 (w : Nat) : Except Reject Instr :=
  match w / 512 % 16 with
  | 0 => if w / 1 % 128 = 0 ∧ w / 2097152 % 16 = 0 then accept (.mxldb (fld 4 w 17) (fld 4 w 13) (fld 2 w 7)) else .error .reserved
  | 1 => if w / 1 % 128 = 0 ∧ w / 2097152 % 16 = 0 then accept (.mxrun (fld 4 w 17) (fld 4 w 13) (fld 2 w 7)) else .error .reserved
  | 2 => if w / 1 % 128 = 0 ∧ w / 2097152 % 16 = 0 then accept (.mxdrain (fld 4 w 17) (fld 4 w 13) (fld 2 w 7)) else .error .reserved
  | 3 => if w / 1 % 512 = 0 ∧ w / 2097152 % 16 = 0 then accept (.mxwait (fld 4 w 17) (fld 4 w 13)) else .error .reserved
  | 4 => if w / 128 % 4 = 0 ∧ w / 8192 % 256 = 0 then accept (.mxstat (fld 4 w 21) (fld 7 w 0)) else .error .reserved
  | _ => .error .unassigned

/-- The C-slot map (R64), major 0x27. -/
def decC39 (w : Nat) : Except Reject Instr :=
  if w / 1 % 128 = 0 ∧ w / 512 % 16 = 0 ∧ w / 2097152 % 16 = 0 then accept (.mxsend (fld 4 w 17) (fld 4 w 13) (fld 2 w 7)) else .error .reserved

/-- The C-slot map (R64), major 0x28. -/
def decC40 (w : Nat) : Except Reject Instr :=
  match w / 512 % 16 with
  | 0 => if w / 1 % 512 = 0 ∧ w / 8192 % 16 = 0 ∧ w / 2097152 % 16 = 0 then accept (.scset (fld 4 w 17)) else .error .reserved
  | 1 => if w / 1 % 512 = 0 ∧ w / 8192 % 16 = 0 ∧ w / 2097152 % 16 = 0 then accept (.scinv (fld 4 w 17)) else .error .reserved
  | 2 => if w / 128 % 4 = 0 ∧ w / 8192 % 256 = 0 then accept (.scstat (fld 4 w 21) (fld 7 w 0)) else .error .reserved
  | _ => .error .unassigned

/-- The C-slot map (R64), major 0x2A. -/
def decC42 (w : Nat) : Except Reject Instr :=
  match w / 512 % 16 with
  | 0 => if w / 1 % 512 = 0 ∧ w / 8192 % 16 = 0 ∧ w / 2097152 % 16 = 0 then accept (.selopen (fld 4 w 17)) else .error .reserved
  | 1 => if w / 1 % 512 = 0 ∧ w / 2097152 % 16 = 0 then accept (.selpush (fld 4 w 17) (fld 4 w 13)) else .error .reserved
  | 2 => if w / 1 % 512 = 0 ∧ w / 2097152 % 16 = 0 then accept (.selemit (fld 4 w 17) (fld 4 w 13)) else .error .reserved
  | 3 => if w / 1 % 512 = 0 ∧ w / 8192 % 4096 = 0 then accept .selreset else .error .reserved
  | _ => .error .unassigned

/-- The C-slot map (R64), major 0x2C. -/
def decC44 (w : Nat) : Except Reject Instr :=
  match w / 512 % 16 with
  | 0 => if w / 1 % 512 = 0 ∧ w / 8192 % 16 = 0 ∧ w / 2097152 % 16 = 0 then accept (.fpush (fld 4 w 17)) else .error .reserved
  | 1 => if w / 1 % 512 = 0 ∧ w / 8192 % 16 = 0 ∧ w / 2097152 % 16 = 0 then accept (.fpushRel (fld 4 w 17)) else .error .reserved
  | 2 => if w / 1 % 512 = 0 ∧ w / 8192 % 16 = 0 then accept (.fpop (fld 4 w 21) (fld 4 w 17)) else .error .reserved
  | 3 => if w / 1 % 512 = 0 ∧ w / 8192 % 4096 = 0 then accept .fdone else .error .reserved
  | 4 => if w / 1 % 512 = 0 ∧ w / 8192 % 256 = 0 then accept (.ffloor (fld 4 w 21)) else .error .reserved
  | 5 => if w / 128 % 4 = 0 ∧ w / 8192 % 256 = 0 then accept (.fstat (fld 4 w 21) (fld 7 w 0)) else .error .reserved
  | _ => .error .unassigned

/-- The C-slot map (R64), major 0x2E. -/
def decC46 (w : Nat) : Except Reject Instr :=
  match w / 512 % 16 with
  | 0 => if w / 1 % 512 = 0 ∧ w / 2097152 % 16 = 0 then accept (.msend (fld 4 w 17) (fld 4 w 13)) else .error .reserved
  | 1 => if w / 1 % 512 = 0 ∧ w / 2097152 % 16 = 0 then accept (.msendh (fld 4 w 17) (fld 4 w 13)) else .error .reserved
  | 2 => if w / 1 % 512 = 0 ∧ w / 8192 % 16 = 0 ∧ w / 2097152 % 16 = 0 then accept (.mpost (fld 4 w 17)) else .error .reserved
  | 3 => if w / 1 % 512 = 0 ∧ w / 8192 % 16 = 0 then accept (.mwait (fld 4 w 21) (fld 4 w 17)) else .error .reserved
  | 4 => if w / 1 % 512 = 0 ∧ w / 8192 % 16 = 0 then accept (.mprobe (fld 4 w 21) (fld 4 w 17)) else .error .reserved
  | 5 => if w / 1 % 512 = 0 ∧ w / 8192 % 16 = 0 ∧ w / 2097152 % 16 = 0 then accept (.mcancel (fld 4 w 17)) else .error .reserved
  | _ => .error .unassigned

/-- The C-slot map (R64), major 0x2F. -/
def decC47 (w : Nat) : Except Reject Instr :=
  match w / 512 % 16 with
  | 0 => if w / 1 % 512 = 0 ∧ w / 8192 % 4096 = 0 then accept .hend else .error .reserved
  | 1 => if w / 1 % 512 = 0 ∧ w / 8192 % 16 = 0 ∧ w / 2097152 % 16 = 0 then accept (.wake (fld 4 w 17)) else .error .reserved
  | 2 => if w / 1 % 512 = 0 ∧ w / 8192 % 16 = 0 ∧ w / 2097152 % 16 = 0 then accept (.haltt (fld 4 w 17)) else .error .reserved
  | 3 => if w / 1 % 512 = 0 ∧ w / 2097152 % 16 = 0 then accept (.insp (fld 4 w 17) (fld 4 w 13)) else .error .reserved
  | _ => .error .unassigned

/-- The C-slot map (R64), major 0x32. -/
def decC50 (w : Nat) : Except Reject Instr :=
  match w / 512 % 16 with
  | 0 => if w / 1 % 512 = 0 ∧ w / 2097152 % 16 = 0 then accept (.mint (fld 4 w 17) (fld 4 w 13)) else .error .reserved
  | 1 => if w / 1 % 512 = 0 ∧ w / 2097152 % 16 = 0 then accept (.tlbinv (fld 4 w 17) (fld 4 w 13)) else .error .reserved
  | 2 => if w / 1 % 512 = 0 ∧ w / 8192 % 16 = 0 ∧ w / 2097152 % 16 = 0 then accept (.gstop (fld 4 w 17)) else .error .reserved
  | 3 => if w / 1 % 512 = 0 ∧ w / 2097152 % 16 = 0 then accept (.ctxld (fld 4 w 17) (fld 4 w 13)) else .error .reserved
  | 4 => if w / 1 % 512 = 0 ∧ w / 2097152 % 16 = 0 then accept (.ctxst (fld 4 w 17) (fld 4 w 13)) else .error .reserved
  | 5 => if w / 1 % 512 = 0 ∧ w / 8192 % 4096 = 0 then accept .sret else .error .reserved
  | 6 =>
    match w / 1 % 256 with
    | 0 => if w / 256 % 2 = 0 ∧ w / 8192 % 4096 = 0 then accept .resume else .error .reserved
    | 1 => if w / 256 % 2 = 0 ∧ w / 8192 % 4096 = 0 then accept .kill else .error .reserved
    | 2 => if w / 256 % 2 = 0 ∧ w / 8192 % 4096 = 0 then accept .hold else .error .reserved
    | 3 => if w / 256 % 2 = 0 ∧ w / 8192 % 4096 = 0 then accept .go else .error .reserved
    | 4 => if w / 256 % 2 = 0 ∧ w / 8192 % 4096 = 0 then accept .drain else .error .reserved
    | 5 => if w / 256 % 2 = 0 ∧ w / 8192 % 4096 = 0 then accept .reset else .error .reserved
    | 6 => if w / 256 % 2 = 0 ∧ w / 8192 % 4096 = 0 then accept .create else .error .reserved
    | 7 => if w / 256 % 2 = 0 ∧ w / 8192 % 4096 = 0 then accept .destroy else .error .reserved
    | 8 => if w / 256 % 2 = 0 ∧ w / 8192 % 4096 = 0 then accept .qctl else .error .reserved
    | 9 => if w / 256 % 2 = 0 ∧ w / 8192 % 4096 = 0 then accept .post else .error .reserved
    | 10 => if w / 256 % 2 = 0 ∧ w / 8192 % 4096 = 0 then accept .shrink else .error .reserved
    | 11 => if w / 256 % 2 = 0 ∧ w / 8192 % 4096 = 0 then accept .lost else .error .reserved
    | _ => .error .unassigned
  | _ => .error .unassigned

/-- The C-slot map (R64),, by major opcode. -/
def decC (w : Nat) : Except Reject Instr :=
  match w / 33554432 with
  | 0 => decC0 w
  | 1 => decC1 w
  | 2 => decC2 w
  | 3 => decC3 w
  | 4 => decC4 w
  | 5 => decC5 w
  | 6 => decC6 w
  | 7 => decC7 w
  | 8 => decC8 w
  | 9 => decC9 w
  | 10 => decC10 w
  | 11 => decC11 w
  | 12 => decC12 w
  | 13 => decC13 w
  | 14 => decC14 w
  | 15 => decC15 w
  | 16 => decC16 w
  | 17 => decC17 w
  | 18 => decC18 w
  | 19 => decC19 w
  | 20 => decC20 w
  | 21 => decC21 w
  | 24 => decC24 w
  | 25 => decC25 w
  | 28 => decC28 w
  | 29 => decC29 w
  | 32 => decC32 w
  | 36 => decC36 w
  | 38 => decC38 w
  | 39 => decC39 w
  | 40 => decC40 w
  | 42 => decC42 w
  | 44 => decC44 w
  | 46 => decC46 w
  | 47 => decC47 w
  | 50 => decC50 w
  | _ => .error .unassigned

/-- The scalar A-slot map (R67), major 0x00. -/
def decS0 (w : Nat) : Except Reject Instr :=
  if w / 1 % 67108864 = 0 then accept .nopA else .error .reserved

/-- The scalar A-slot map (R67), major 0x01. -/
def decS1 (w : Nat) : Except Reject Instr :=
  match w / 1 % 64 with
  | 0 => if w / 64 % 256 = 0 then accept (.add (fld 4 w 22) (fld 4 w 18) (fld 4 w 14)) else .error .reserved
  | 1 => if w / 64 % 256 = 0 then accept (.sub (fld 4 w 22) (fld 4 w 18) (fld 4 w 14)) else .error .reserved
  | 2 => if w / 64 % 256 = 0 then accept (.and (fld 4 w 22) (fld 4 w 18) (fld 4 w 14)) else .error .reserved
  | 3 => if w / 64 % 256 = 0 then accept (.or (fld 4 w 22) (fld 4 w 18) (fld 4 w 14)) else .error .reserved
  | 4 => if w / 64 % 256 = 0 then accept (.xor (fld 4 w 22) (fld 4 w 18) (fld 4 w 14)) else .error .reserved
  | 5 => if w / 64 % 256 = 0 then accept (.andn (fld 4 w 22) (fld 4 w 18) (fld 4 w 14)) else .error .reserved
  | 6 => if w / 64 % 256 = 0 then accept (.shl (fld 4 w 22) (fld 4 w 18) (fld 4 w 14)) else .error .reserved
  | 7 => if w / 64 % 256 = 0 then accept (.shr (fld 4 w 22) (fld 4 w 18) (fld 4 w 14)) else .error .reserved
  | 8 => if w / 64 % 256 = 0 then accept (.sra (fld 4 w 22) (fld 4 w 18) (fld 4 w 14)) else .error .reserved
  | 9 => if w / 64 % 256 = 0 then accept (.rot (fld 4 w 22) (fld 4 w 18) (fld 4 w 14)) else .error .reserved
  | 10 => if w / 64 % 256 = 0 then accept (.mul (fld 4 w 22) (fld 4 w 18) (fld 4 w 14)) else .error .reserved
  | 11 => if w / 64 % 256 = 0 then accept (.mulh (fld 4 w 22) (fld 4 w 18) (fld 4 w 14)) else .error .reserved
  | 12 => if w / 64 % 256 = 0 then accept (.mulhn (fld 4 w 22) (fld 4 w 18) (fld 4 w 14)) else .error .reserved
  | 13 => if w / 64 % 256 = 0 then accept (.min (fld 4 w 22) (fld 4 w 18) (fld 4 w 14)) else .error .reserved
  | 14 => if w / 64 % 256 = 0 then accept (.max (fld 4 w 22) (fld 4 w 18) (fld 4 w 14)) else .error .reserved
  | 15 => if w / 64 % 256 = 0 then accept (.minn (fld 4 w 22) (fld 4 w 18) (fld 4 w 14)) else .error .reserved
  | 16 => if w / 64 % 256 = 0 then accept (.maxn (fld 4 w 22) (fld 4 w 18) (fld 4 w 14)) else .error .reserved
  | 17 => if w / 64 % 4096 = 0 then accept (.clz (fld 4 w 22) (fld 4 w 18)) else .error .reserved
  | 18 => if w / 64 % 4096 = 0 then accept (.ctz (fld 4 w 22) (fld 4 w 18)) else .error .reserved
  | 19 => if w / 64 % 4096 = 0 then accept (.popc (fld 4 w 22) (fld 4 w 18)) else .error .reserved
  | 20 => if w / 64 % 256 = 0 then accept (.slt (fld 4 w 22) (fld 4 w 18) (fld 4 w 14)) else .error .reserved
  | 21 => if w / 64 % 256 = 0 then accept (.sltn (fld 4 w 22) (fld 4 w 18) (fld 4 w 14)) else .error .reserved
  | 22 => if w / 64 % 256 = 0 then accept (.seq (fld 4 w 22) (fld 4 w 18) (fld 4 w 14)) else .error .reserved
  | _ => .error .unassigned

/-- The scalar A-slot map (R67), major 0x02. -/
def decS2 (w : Nat) : Except Reject Instr :=
  match w / 1 % 4 with
  | 0 => if w / 4 % 4096 = 0 then accept (.div (fld 4 w 22) (fld 4 w 18) (fld 4 w 14)) else .error .reserved
  | 1 => if w / 4 % 4096 = 0 then accept (.divn (fld 4 w 22) (fld 4 w 18) (fld 4 w 14)) else .error .reserved
  | 2 => if w / 4 % 4096 = 0 then accept (.rem (fld 4 w 22) (fld 4 w 18) (fld 4 w 14)) else .error .reserved
  | 3 => if w / 4 % 4096 = 0 then accept (.remn (fld 4 w 22) (fld 4 w 18) (fld 4 w 14)) else .error .reserved
  | _ => .error .unassigned

/-- The scalar A-slot map (R67), major 0x03. -/
def decS3 (w : Nat) : Except Reject Instr :=
  match w / 4096 % 4 with
  | 0 => if w / 16384 % 16 = 0 then accept (.bext (fld 4 w 22) (fld 4 w 18) (fld 6 w 6) (fld 6 w 0)) else .error .reserved
  | 1 => if w / 16384 % 16 = 0 then accept (.bins (fld 4 w 22) (fld 4 w 18) (fld 6 w 6) (fld 6 w 0)) else .error .reserved
  | _ => .error .unassigned

/-- The scalar A-slot map (R67), major 0x04. -/
def decS4 (w : Nat) : Except Reject Instr :=
  if w / 16 % 1024 = 0 then accept (.sel (fld 4 w 22) (fld 4 w 18) (fld 4 w 14) (fld 4 w 0)) else .error .reserved

/-- The scalar A-slot map (R67), major 0x05. -/
def decS5 (w : Nat) : Except Reject Instr :=
  accept (.addi (fld 4 w 22) (fld 4 w 18) (fld 18 w 0))

/-- The scalar A-slot map (R67), major 0x06. -/
def decS6 (w : Nat) : Except Reject Instr :=
  accept (.andi (fld 4 w 22) (fld 4 w 18) (fld 18 w 0))

/-- The scalar A-slot map (R67), major 0x07. -/
def decS7 (w : Nat) : Except Reject Instr :=
  accept (.ori (fld 4 w 22) (fld 4 w 18) (fld 18 w 0))

/-- The scalar A-slot map (R67), major 0x08. -/
def decS8 (w : Nat) : Except Reject Instr :=
  accept (.xori (fld 4 w 22) (fld 4 w 18) (fld 18 w 0))

/-- The scalar A-slot map (R67), major 0x09. -/
def decS9 (w : Nat) : Except Reject Instr :=
  match w / 65536 % 4 with
  | 0 => if w / 64 % 1024 = 0 then accept (.shli (fld 4 w 22) (fld 4 w 18) (fld 6 w 0)) else .error .reserved
  | 1 => if w / 64 % 1024 = 0 then accept (.shri (fld 4 w 22) (fld 4 w 18) (fld 6 w 0)) else .error .reserved
  | 2 => if w / 64 % 1024 = 0 then accept (.srai (fld 4 w 22) (fld 4 w 18) (fld 6 w 0)) else .error .reserved
  | _ => .error .unassigned

/-- The scalar A-slot map (R67), major 0x0A. -/
def decS10 (w : Nat) : Except Reject Instr :=
  if w / 262144 % 16 = 0 then accept (.movi (fld 4 w 22) (fld 18 w 0)) else .error .reserved

/-- The scalar A-slot map (R67), major 0x10. -/
def decS16 (w : Nat) : Except Reject Instr :=
  match w / 1 % 256 with
  | 0 => accept (.fadd (fld 4 w 22) (fld 4 w 18) (fld 4 w 14) (fld 3 w 11) (fld 3 w 8))
  | 1 => accept (.fsub (fld 4 w 22) (fld 4 w 18) (fld 4 w 14) (fld 3 w 11) (fld 3 w 8))
  | 2 => accept (.fmul (fld 4 w 22) (fld 4 w 18) (fld 4 w 14) (fld 3 w 11) (fld 3 w 8))
  | 3 => accept (.ffma (fld 4 w 22) (fld 4 w 18) (fld 4 w 14) (fld 3 w 11) (fld 3 w 8))
  | 4 => if w / 2048 % 8 = 0 then accept (.fmin (fld 4 w 22) (fld 4 w 18) (fld 4 w 14) (fld 3 w 8)) else .error .reserved
  | 5 => if w / 2048 % 8 = 0 then accept (.fmax (fld 4 w 22) (fld 4 w 18) (fld 4 w 14) (fld 3 w 8)) else .error .reserved
  | 6 => accept (.fdiv (fld 4 w 22) (fld 4 w 18) (fld 4 w 14) (fld 3 w 11) (fld 3 w 8))
  | 7 => if w / 16384 % 16 = 0 then accept (.fsqrt (fld 4 w 22) (fld 4 w 18) (fld 3 w 11) (fld 3 w 8)) else .error .reserved
  | 8 => if w / 2048 % 8 = 0 then accept (.fsgn (fld 4 w 22) (fld 4 w 18) (fld 4 w 14) (fld 3 w 8)) else .error .reserved
  | 9 => if w / 2048 % 8 = 0 then accept (.fsgnn (fld 4 w 22) (fld 4 w 18) (fld 4 w 14) (fld 3 w 8)) else .error .reserved
  | 10 => if w / 2048 % 8 = 0 then accept (.fsgnx (fld 4 w 22) (fld 4 w 18) (fld 4 w 14) (fld 3 w 8)) else .error .reserved
  | _ => .error .unassigned

/-- The scalar A-slot map (R67), major 0x11. -/
def decS17 (w : Nat) : Except Reject Instr :=
  if w / 1 % 256 = 0 then accept (.fcmp (fld 4 w 22) (fld 4 w 18) (fld 4 w 14) (fld 3 w 11) (fld 3 w 8)) else .error .reserved

/-- The scalar A-slot map (R67), major 0x12. -/
def decS18 (w : Nat) : Except Reject Instr :=
  if w / 1 % 16 = 0 ∧ w / 16384 % 16 = 0 then accept (.fcvt (fld 4 w 22) (fld 4 w 18) (fld 3 w 11) (fld 3 w 8) (fld 3 w 5) (bit w 4)) else .error .reserved

/-- The scalar A-slot map (R67),, by major opcode. -/
def decS (w : Nat) : Except Reject Instr :=
  match w / 67108864 with
  | 0 => decS0 w
  | 1 => decS1 w
  | 2 => decS2 w
  | 3 => decS3 w
  | 4 => decS4 w
  | 5 => decS5 w
  | 6 => decS6 w
  | 7 => decS7 w
  | 8 => decS8 w
  | 9 => decS9 w
  | 10 => decS10 w
  | 16 => decS16 w
  | 17 => decS17 w
  | 18 => decS18 w
  | _ => .error .unassigned

/-- The vector A-slot majors 0x18 and 0x19 (R67). -/
def decV24 (w : Nat) : Except Reject Instr :=
  match w / 1 % 128 with
  | 0 => accept (.vadd (bit w 26) (fld 4 w 22) (fld 4 w 18) (fld 4 w 14) (fld 3 w 11) (fld 3 w 8) (bit w 7))
  | 1 => accept (.vsub (bit w 26) (fld 4 w 22) (fld 4 w 18) (fld 4 w 14) (fld 3 w 11) (fld 3 w 8) (bit w 7))
  | 2 => accept (.vmul (bit w 26) (fld 4 w 22) (fld 4 w 18) (fld 4 w 14) (fld 3 w 11) (fld 3 w 8) (bit w 7))
  | 3 => accept (.vmin (bit w 26) (fld 4 w 22) (fld 4 w 18) (fld 4 w 14) (fld 3 w 11) (fld 3 w 8) (bit w 7))
  | 4 => accept (.vmax (bit w 26) (fld 4 w 22) (fld 4 w 18) (fld 4 w 14) (fld 3 w 11) (fld 3 w 8) (bit w 7))
  | 5 => if w / 128 % 2 = 0 ∧ w / 16384 % 16 = 0 then accept (.vabs (bit w 26) (fld 4 w 22) (fld 4 w 18) (fld 3 w 11) (fld 3 w 8)) else .error .reserved
  | 6 => if w / 128 % 2 = 0 ∧ w / 16384 % 16 = 0 then accept (.vneg (bit w 26) (fld 4 w 22) (fld 4 w 18) (fld 3 w 11) (fld 3 w 8)) else .error .reserved
  | _ => .error .unassigned

/-- The vector A-slot majors 0x1A and 0x1B (R67). -/
def decV26 (w : Nat) : Except Reject Instr :=
  match w / 1 % 128 with
  | 0 => accept (.vfma (bit w 26) (fld 4 w 22) (fld 4 w 18) (fld 4 w 14) (fld 3 w 11) (fld 3 w 8) (bit w 7))
  | 1 => accept (.vfms (bit w 26) (fld 4 w 22) (fld 4 w 18) (fld 4 w 14) (fld 3 w 11) (fld 3 w 8) (bit w 7))
  | _ => .error .unassigned

/-- The vector A-slot majors 0x1C and 0x1D (R67). -/
def decV28 (w : Nat) : Except Reject Instr :=
  match w / 1 % 128 with
  | 0 => accept (.vand (bit w 26) (fld 4 w 22) (fld 4 w 18) (fld 4 w 14) (fld 3 w 11) (fld 3 w 8) (bit w 7))
  | 1 => accept (.vor (bit w 26) (fld 4 w 22) (fld 4 w 18) (fld 4 w 14) (fld 3 w 11) (fld 3 w 8) (bit w 7))
  | 2 => accept (.vxor (bit w 26) (fld 4 w 22) (fld 4 w 18) (fld 4 w 14) (fld 3 w 11) (fld 3 w 8) (bit w 7))
  | 3 => accept (.vshl (bit w 26) (fld 4 w 22) (fld 4 w 18) (fld 4 w 14) (fld 3 w 11) (fld 3 w 8) (bit w 7))
  | 4 => accept (.vshr (bit w 26) (fld 4 w 22) (fld 4 w 18) (fld 4 w 14) (fld 3 w 11) (fld 3 w 8) (bit w 7))
  | _ => .error .unassigned

/-- The vector A-slot majors 0x1E and 0x1F (R67). -/
def decV30 (w : Nat) : Except Reject Instr :=
  match w / 1 % 128 with
  | 0 => accept (.vcmp (bit w 26) (fld 4 w 22) (fld 4 w 18) (fld 4 w 14) (fld 3 w 11) (fld 3 w 8) (bit w 7) (fld 3 w 0))
  | 1 => accept (.vcmp (bit w 26) (fld 4 w 22) (fld 4 w 18) (fld 4 w 14) (fld 3 w 11) (fld 3 w 8) (bit w 7) (fld 3 w 0))
  | 2 => accept (.vcmp (bit w 26) (fld 4 w 22) (fld 4 w 18) (fld 4 w 14) (fld 3 w 11) (fld 3 w 8) (bit w 7) (fld 3 w 0))
  | 3 => accept (.vcmp (bit w 26) (fld 4 w 22) (fld 4 w 18) (fld 4 w 14) (fld 3 w 11) (fld 3 w 8) (bit w 7) (fld 3 w 0))
  | 4 => accept (.vcmp (bit w 26) (fld 4 w 22) (fld 4 w 18) (fld 4 w 14) (fld 3 w 11) (fld 3 w 8) (bit w 7) (fld 3 w 0))
  | 5 => accept (.vcmp (bit w 26) (fld 4 w 22) (fld 4 w 18) (fld 4 w 14) (fld 3 w 11) (fld 3 w 8) (bit w 7) (fld 3 w 0))
  | 6 => accept (.vcmp (bit w 26) (fld 4 w 22) (fld 4 w 18) (fld 4 w 14) (fld 3 w 11) (fld 3 w 8) (bit w 7) (fld 3 w 0))
  | 7 => accept (.vcmp (bit w 26) (fld 4 w 22) (fld 4 w 18) (fld 4 w 14) (fld 3 w 11) (fld 3 w 8) (bit w 7) (fld 3 w 0))
  | 8 => accept (.vsel (bit w 26) (fld 4 w 22) (fld 4 w 18) (fld 4 w 14) (fld 3 w 11) (fld 3 w 8) (bit w 7))
  | _ => .error .unassigned

/-- The vector A-slot majors 0x20 and 0x21 (R67). -/
def decV32 (w : Nat) : Except Reject Instr :=
  match w / 1 % 128 with
  | 0 => if w / 128 % 2 = 0 ∧ w / 16384 % 16 = 0 then accept (.vbcast (bit w 26) (fld 4 w 22) (fld 4 w 18) (fld 3 w 11) (fld 3 w 8)) else .error .reserved
  | 1 => if w / 128 % 2 = 0 then accept (.vext (bit w 26) (fld 4 w 22) (fld 4 w 18) (fld 4 w 14) (fld 3 w 11) (fld 3 w 8)) else .error .reserved
  | 2 => accept (.vperm (bit w 26) (fld 4 w 22) (fld 4 w 18) (fld 4 w 14) (fld 3 w 11) (fld 3 w 8) (bit w 7))
  | 3 => if w / 128 % 2 = 0 ∧ w / 16384 % 16 = 0 then accept (.vredAdd (bit w 26) (fld 4 w 22) (fld 4 w 18) (fld 3 w 11) (fld 3 w 8)) else .error .reserved
  | 4 => if w / 128 % 2 = 0 ∧ w / 16384 % 16 = 0 then accept (.vredMin (bit w 26) (fld 4 w 22) (fld 4 w 18) (fld 3 w 11) (fld 3 w 8)) else .error .reserved
  | 5 => if w / 128 % 2 = 0 ∧ w / 16384 % 16 = 0 then accept (.vredMax (bit w 26) (fld 4 w 22) (fld 4 w 18) (fld 3 w 11) (fld 3 w 8)) else .error .reserved
  | _ => .error .unassigned

/-- The vector A-slot majors 0x22 and 0x23 (R67). -/
def decV34 (w : Nat) : Except Reject Instr :=
  match w / 1 % 128 with
  | 0 => accept (.vdotIp (bit w 26) (fld 4 w 22) (fld 4 w 18) (fld 4 w 14) (fld 3 w 11) (fld 3 w 8) (bit w 7))
  | 1 => accept (.vdotCos (bit w 26) (fld 4 w 22) (fld 4 w 18) (fld 4 w 14) (fld 3 w 11) (fld 3 w 8) (bit w 7))
  | 2 => accept (.vdotCosn (bit w 26) (fld 4 w 22) (fld 4 w 18) (fld 4 w 14) (fld 3 w 11) (fld 3 w 8) (bit w 7))
  | 3 => accept (.vdotL2 (bit w 26) (fld 4 w 22) (fld 4 w 18) (fld 4 w 14) (fld 3 w 11) (fld 3 w 8) (bit w 7))
  | _ => .error .unassigned

/-- The vector A-slot majors 0x30 and 0x31 (R67). -/
def decV48 (w : Nat) : Except Reject Instr :=
  match w / 64 % 4 with
  | 0 => if w / 16 % 2 = 0 ∧ w / 256 % 8 = 0 then accept (.vcvt (bit w 26) (fld 4 w 22) (fld 4 w 18) (fld 4 w 14) (fld 3 w 11) (bit w 5) (fld 4 w 0)) else .error .reserved
  | 1 => if w / 16 % 2 = 0 then accept (.vpack (bit w 26) (fld 4 w 22) (fld 4 w 18) (fld 4 w 14) (fld 3 w 11) (fld 3 w 8) (bit w 5) (fld 4 w 0)) else .error .reserved
  | 2 => if w / 16 % 4 = 0 ∧ w / 32768 % 8 = 0 then accept (.vunpack (bit w 26) (fld 4 w 22) (fld 4 w 18) (bit w 14) (fld 3 w 11) (fld 3 w 8) (fld 4 w 0)) else .error .reserved
  | 3 => if w / 16 % 4 = 0 ∧ w / 256 % 8 = 0 then accept (.vscale (bit w 26) (fld 4 w 22) (fld 4 w 18) (fld 4 w 14) (fld 3 w 11) (fld 4 w 0)) else .error .reserved
  | _ => .error .unassigned

/-- The vector A-slot majors 0x32 and 0x33 (R67). -/
def decV50 (w : Nat) : Except Reject Instr :=
  match w / 1 % 128 with
  | 0 => if w / 128 % 2 = 0 ∧ w / 16384 % 16 = 0 then accept (.vrcp (bit w 26) (fld 4 w 22) (fld 4 w 18) (fld 3 w 11) (fld 3 w 8)) else .error .reserved
  | 1 => accept (.vrcpn (bit w 26) (fld 4 w 22) (fld 4 w 18) (fld 4 w 14) (fld 3 w 11) (fld 3 w 8) (bit w 7))
  | 2 => if w / 128 % 2 = 0 ∧ w / 16384 % 16 = 0 then accept (.vrsq (bit w 26) (fld 4 w 22) (fld 4 w 18) (fld 3 w 11) (fld 3 w 8)) else .error .reserved
  | 3 => accept (.vrsqn (bit w 26) (fld 4 w 22) (fld 4 w 18) (fld 4 w 14) (fld 3 w 11) (fld 3 w 8) (bit w 7))
  | 4 => if w / 128 % 2 = 0 ∧ w / 16384 % 16 = 0 then accept (.vexp2 (bit w 26) (fld 4 w 22) (fld 4 w 18) (fld 3 w 11) (fld 3 w 8)) else .error .reserved
  | 5 => if w / 128 % 2 = 0 ∧ w / 16384 % 16 = 0 then accept (.vlog2 (bit w 26) (fld 4 w 22) (fld 4 w 18) (fld 3 w 11) (fld 3 w 8)) else .error .reserved
  | _ => .error .unassigned

/-- The vector A-slot majors (R49, R67), by pair. -/
def decV (w : Nat) : Except Reject Instr :=
  match w / 134217728 with
  | 12 => decV24 w
  | 13 => decV26 w
  | 14 => decV28 w
  | 15 => decV30 w
  | 16 => decV32 w
  | 17 => decV34 w
  | 24 => decV48 w
  | 25 => decV50 w
  | _ => .error .unassigned

/-- A C-slot word, bit 31 clear (R42, R64). -/
def decodeC (w : Nat) : Except Reject Instr := decC w

/-- An A-slot word (R42, R67). -/
def decodeA (w : Nat) : Except Reject Instr := if w < 1610612736 then decS w else decV w

/-- A long instruction, bit 31 of word 0 set (R46, R70). -/
def decodeLong (w0 w1 : Nat) : Except Reject Instr :=
  let w := w0 % 2147483648
  match w / 33554432 with
  | 0 => if w % 2097152 = 0 then accept (.liw (fld 4 w 21) (fld 32 w1 0)) else .error .reserved
  | 1 => if w % 2097152 = 0 then accept (.lih (fld 4 w 21) (fld 32 w1 0)) else .error .reserved
  | 2 => if w % 33554432 = 0 then accept (.brLong (fld 32 w1 0)) else .error .reserved
  | 3 => if w % 33554432 = 0 then accept (.calll (fld 32 w1 0)) else .error .reserved
  | 4 => if w / 16777216 % 2 = 0 ∧ w % 1048576 = 0 then accept (.vloopLong (fld 4 w 20) (fld 32 w1 0)) else .error .reserved
  | 5 => if w % 131072 = 0 then accept (.leaLong (fld 4 w 21) (fld 4 w 17) (fld 32 w1 0)) else .error .reserved
  | 6 => if w / 2097152 % 16 = 0 ∧ w % 131072 = 0 then accept (.ccwaitLong (fld 4 w 17) (fld 32 w1 0)) else .error .reserved
  | _ => .error .unassigned

/-- What a bundle holds (R42). -/
inductive Bundle where
  | pair (c a : Instr)
  | long (i : Instr)
  deriving DecidableEq, Repr

/-- A rejected bundle: the slot whose word failed (false C or long, true A) and why (R56, R60). -/
structure BadBundle where
  slotA : Bool
  why : Reject
  deriving DecidableEq, Repr

/-- The bundle of two words (R42); a C-slot defect is reported before an A-slot defect (R56). -/
def decodeWords (w0 w1 : Nat) : Except BadBundle Bundle :=
  if w0 < 2147483648 then
    match decodeC w0 with
    | .error e => .error ⟨false, e⟩
    | .ok c =>
      match decodeA w1 with
      | .error e => .error ⟨true, e⟩
      | .ok a => .ok (.pair c a)
  else
    match decodeLong w0 w1 with
    | .error e => .error ⟨false, e⟩
    | .ok i => .ok (.long i)

/-- The little-endian value of bytes (R6). -/
def leNat : List Byte → Nat
  | [] => 0
  | b :: bs => b.toNat + 256 * leNat bs

/-- The n little-endian bytes of a number (R6). -/
def leBytes : Nat → Nat → List Byte
  | 0, _ => []
  | n + 1, v => BitVec.ofNat 8 v :: leBytes n (v / 256)

/-- Decodes the first bundle of some bytes and gives the bytes after it (R41). -/
def decode (bs : List Byte) : Except BadBundle (Bundle × List Byte) :=
  if bs.length < 8 then .error ⟨false, .short⟩
  else
    match decodeWords (leNat (bs.take 4)) (leNat ((bs.drop 4).take 4)) with
    | .error e => .error e
    | .ok b => .ok (b, bs.drop 8)

/-- The words of an instruction: a C-slot word, an A-slot word, or the two words of a long instruction (R41 to R46). An
event of the part has no word. -/
inductive Words where
  | c (w : Nat)
  | a (w : Nat)
  | long (w0 w1 : Nat)
  | event
  deriving DecidableEq, Repr

/-- Encodes an instruction, from the encoding tables of R44 to R47, R64, R67 and R70. -/
def encode : Instr → Words
  | .nopC => .c (0)
  | .csrr d c => .c (512 + d.toNat * 2097152 + c.toNat)
  | .csrw a c => .c (1024 + a.toNat * 131072 + c.toNat)
  | .time d => .c (1536 + d.toNat * 2097152)
  | .trap i => .c (2048 + i.toNat)
  | .udecline => .c (2560)
  | .uret => .c (3072)
  | .follow a => .c (3584 + a.toNat * 131072)
  | .leave => .c (4096)
  | .jr a => .c (4608 + a.toNat * 131072)
  | .ret => .c (5120)
  | .homeof d a => .c (5632 + d.toNat * 2097152 + a.toNat * 131072)
  | .lea d a i => .c (33554432 + d.toNat * 2097152 + a.toNat * 131072 + i.toNat)
  | .br o => .c (67108864 + o.toNat)
  | .call o => .c (100663296 + o.toNat)
  | .brc a b c o => .c (134217728 + a.toNat * 2097152 + b.toNat * 131072 + c.toNat * 16384 + o.toNat)
  | .cmps a b c k => .c (167772160 + a.toNat * 2097152 + b.toNat * 131072 + c.toNat * 16384 + k.toNat * 4096)
  | .cmpsi a c k i => .c (201326592 + a.toNat * 2097152 + c.toNat * 16384 + k.toNat * 4096 + i.toNat)
  | .brl d a i => .c (234881024 + d.toNat * 2097152 + a.toNat * 131072 + i.toNat)
  | .ld d a s i => .c (268435456 + d.toNat * 2097152 + a.toNat * 131072 + s.toNat * 16384 + i.toNat)
  | .st d a s i => .c (301989888 + d.toNat * 2097152 + a.toNat * 131072 + s.toNat * 16384 + i.toNat)
  | .ldp d a s i => .c (335544320 + d.toNat * 2097152 + a.toNat * 131072 + s.toNat * 16384 + i.toNat)
  | .ldAcq d a s i => .c (369098752 + d.toNat * 2097152 + a.toNat * 131072 + s.toNat * 16384 + i.toNat)
  | .stRel d a s p i => .c (402653184 + d.toNat * 2097152 + a.toNat * 131072 + s.toNat * 16384 + p.toNat * 4096 + i.toNat)
  | .ldfe d a i => .c (436207616 + d.toNat * 2097152 + a.toNat * 131072 + i.toNat)
  | .ldff d a i => .c (436224000 + d.toNat * 2097152 + a.toNat * 131072 + i.toNat)
  | .stef d a i => .c (436240384 + d.toNat * 2097152 + a.toNat * 131072 + i.toNat)
  | .stff d a i => .c (436256768 + d.toNat * 2097152 + a.toNat * 131072 + i.toNat)
  | .fempty a i => .c (436273152 + a.toNat * 131072 + i.toNat)
  | .ffull a i => .c (436289536 + a.toNat * 131072 + i.toNat)
  | .lrw d a i => .c (469762048 + d.toNat * 2097152 + a.toNat * 131072 + i.toNat)
  | .sch d a i => .c (469778432 + d.toNat * 2097152 + a.toNat * 131072 + i.toNat)
  | .relr a i => .c (469794816 + a.toNat * 131072 + i.toNat)
  | .amop a b o z => .c (503316480 + a.toNat * 131072 + b.toNat * 8192 + o.toNat * 512 + z.toNat * 128)
  | .amoz a b => .c (536870912 + a.toNat * 131072 + b.toNat * 8192)
  | .amor d a b o z => .c (570425344 + d.toNat * 2097152 + a.toNat * 131072 + b.toNat * 8192 + o.toNat * 512 + z.toNat * 128)
  | .cas d a b z => .c (603979776 + d.toNat * 2097152 + a.toNat * 131072 + b.toNat * 8192 + z.toNat * 128)
  | .get a b p => .c (637534208 + a.toNat * 131072 + b.toNat * 8192 + p.toNat * 128)
  | .put a b p => .c (637534720 + a.toNat * 131072 + b.toNat * 8192 + p.toNat * 128)
  | .getputExec => .event
  | .ccwait a b => .c (671088640 + a.toNat * 131072 + b.toNat * 8192)
  | .ccwaitLong a count => .long (2348810240 + a.toNat * 131072) count.toNat
  | .ccwaitPoll => .event
  | .ccset a b => .c (671089152 + a.toNat * 131072 + b.toNat * 8192)
  | .fence p => .c (704643072 + p.toNat * 128)
  | .mig a => .c (704643584 + a.toNat * 131072)
  | .pin => .c (704644096)
  | .unpin => .c (704644608)
  | .discard a b => .c (704645120 + a.toNat * 131072 + b.toNat * 8192)
  | .pref a => .c (704645632 + a.toNat * 131072)
  | .spawn d a => .c (805306368 + d.toNat * 2097152 + a.toNat * 131072)
  | .spawnw d a => .c (805306880 + d.toNat * 2097152 + a.toNat * 131072)
  | .spawnwPoolRetry => .event
  | .endStrand => .c (805307392)
  | .yield => .c (805307904)
  | .join a => .c (805308416 + a.toNat * 131072)
  | .dlset a => .c (805308928 + a.toNat * 131072)
  | .sliceinfo d s => .c (805309440 + d.toNat * 2097152 + s.toNat)
  | .gbar n => .c (838860800 + n.toNat)
  | .garrive n => .c (838861312 + n.toNat)
  | .gwait n => .c (838861824 + n.toNat)
  | .groupAccess => .event
  | .vldV d a i => .c (939524096 + d.toNat * 2097152 + a.toNat * 131072 + i.toNat)
  | .vldW d a i => .c (939540480 + d.toNat * 2097152 + a.toNat * 131072 + i.toNat)
  | .vstV d a i => .c (939556864 + d.toNat * 2097152 + a.toNat * 131072 + i.toNat)
  | .vstW d a i => .c (939573248 + d.toNat * 2097152 + a.toNat * 131072 + i.toNat)
  | .vmodeShort => .c (973078528)
  | .vmodeLong => .c (973078529)
  | .longUnitGrant => .event
  | .vclr => .c (973079040)
  | .vloop a n => .c (973079552 + a.toNat * 131072 + n.toNat)
  | .vloopLong n count => .long (2281701376 + n.toNat * 1048576) count.toNat
  | .vsync => .c (973080064)
  | .sequencerEntry => .event
  | .sbind d a => .c (973080576 + d.toNat * 2097152 + a.toNat * 131072)
  | .sfree d => .c (973081088 + d.toNat * 2097152)
  | .badd a b p => .c (1073741824 + a.toNat * 131072 + b.toNat * 8192 + p.toNat * 128)
  | .baxpy a b p => .c (1073742336 + a.toNat * 131072 + b.toNat * 8192 + p.toNat * 128)
  | .bscale a b p => .c (1073742848 + a.toNat * 131072 + b.toNat * 8192 + p.toNat * 128)
  | .bmax a b p => .c (1073743360 + a.toNat * 131072 + b.toNat * 8192 + p.toNat * 128)
  | .bexps a b p => .c (1073743872 + a.toNat * 131072 + b.toNat * 8192 + p.toNat * 128)
  | .bsum a b p => .c (1073744384 + a.toNat * 131072 + b.toNat * 8192 + p.toNat * 128)
  | .bfill a b p => .c (1073744896 + a.toNat * 131072 + b.toNat * 8192 + p.toNat * 128)
  | .bankInstall => .event
  | .bankCommandExec => .event
  | .cpy a b p => .c (1207959552 + a.toNat * 131072 + b.toNat * 8192 + p.toNat * 128)
  | .cpyExec => .event
  | .cpys d a p => .c (1207960064 + d.toNat * 2097152 + a.toNat * 131072 + p.toNat * 128)
  | .cpysOperand => .event
  | .cpystat d s => .c (1207960576 + d.toNat * 2097152 + s.toNat)
  | .mxldb a b p => .c (1275068416 + a.toNat * 131072 + b.toNat * 8192 + p.toNat * 128)
  | .mxldbExec => .event
  | .mxrun a b p => .c (1275068928 + a.toNat * 131072 + b.toNat * 8192 + p.toNat * 128)
  | .mxrunExec => .event
  | .mxdrain a b p => .c (1275069440 + a.toNat * 131072 + b.toNat * 8192 + p.toNat * 128)
  | .mxdrainExec => .event
  | .mxwait a b => .c (1275069952 + a.toNat * 131072 + b.toNat * 8192)
  | .mxstat d s => .c (1275070464 + d.toNat * 2097152 + s.toNat)
  | .mxsend a b p => .c (1308622848 + a.toNat * 131072 + b.toNat * 8192 + p.toNat * 128)
  | .mxsendArrival => .event
  | .scset a => .c (1342177280 + a.toNat * 131072)
  | .scsetExec => .event
  | .scinv a => .c (1342177792 + a.toNat * 131072)
  | .scinvExec => .event
  | .scstat d s => .c (1342178304 + d.toNat * 2097152 + s.toNat)
  | .selopen a => .c (1409286144 + a.toNat * 131072)
  | .selcontextGrant => .event
  | .selpush a b => .c (1409286656 + a.toNat * 131072 + b.toNat * 8192)
  | .selemit a b => .c (1409287168 + a.toNat * 131072 + b.toNat * 8192)
  | .selreset => .c (1409287680)
  | .selopenExec => .event
  | .selpushExec => .event
  | .selemitExec => .event
  | .selresetExec => .event
  | .fpush a => .c (1476395008 + a.toNat * 131072)
  | .fpushRel a => .c (1476395520 + a.toNat * 131072)
  | .fpushExec => .event
  | .flockRecordArrival => .event
  | .fpop d a => .c (1476396032 + d.toNat * 2097152 + a.toNat * 131072)
  | .fpopExec => .event
  | .stealRequest => .event
  | .stealAnswer => .event
  | .inflightRegister => .event
  | .fdone => .c (1476396544)
  | .fdoneExec => .event
  | .ffloor d => .c (1476397056 + d.toNat * 2097152)
  | .fstat d s => .c (1476397568 + d.toNat * 2097152 + s.toNat)
  | .msend a b => .c (1543503872 + a.toNat * 131072 + b.toNat * 8192)
  | .msendh a b => .c (1543504384 + a.toNat * 131072 + b.toNat * 8192)
  | .mpost a => .c (1543504896 + a.toNat * 131072)
  | .mwait d a => .c (1543505408 + d.toNat * 2097152 + a.toNat * 131072)
  | .mprobe d a => .c (1543505920 + d.toNat * 2097152 + a.toNat * 131072)
  | .mcancel a => .c (1543506432 + a.toNat * 131072)
  | .messageArrival => .event
  | .messageRetry => .event
  | .controllerMessage => .event
  | .handlerStart => .event
  | .hend => .c (1577058304)
  | .wake a => .c (1577058816 + a.toNat * 131072)
  | .wakeArrival => .event
  | .haltt a => .c (1577059328 + a.toNat * 131072)
  | .halttArrival => .event
  | .insp a b => .c (1577059840 + a.toNat * 131072 + b.toNat * 8192)
  | .inspArrival => .event
  | .inspReply => .event
  | .staleRefusal => .event
  | .mint a b => .c (1677721600 + a.toNat * 131072 + b.toNat * 8192)
  | .tlbinv a b => .c (1677722112 + a.toNat * 131072 + b.toNat * 8192)
  | .gstop a => .c (1677722624 + a.toNat * 131072)
  | .ctxld a b => .c (1677723136 + a.toNat * 131072 + b.toNat * 8192)
  | .ctxst a b => .c (1677723648 + a.toNat * 131072 + b.toNat * 8192)
  | .sret => .c (1677724160)
  | .resume => .c (1677724672)
  | .kill => .c (1677724673)
  | .hold => .c (1677724674)
  | .go => .c (1677724675)
  | .drain => .c (1677724676)
  | .reset => .c (1677724677)
  | .create => .c (1677724678)
  | .destroy => .c (1677724679)
  | .qctl => .c (1677724680)
  | .post => .c (1677724681)
  | .shrink => .c (1677724682)
  | .lost => .c (1677724683)
  | .heartbeatMiss => .event
  | .supervisorEventEntry => .event
  | .nopA => .a (0)
  | .add d a b => .a (67108864 + d.toNat * 4194304 + a.toNat * 262144 + b.toNat * 16384)
  | .sub d a b => .a (67108865 + d.toNat * 4194304 + a.toNat * 262144 + b.toNat * 16384)
  | .and d a b => .a (67108866 + d.toNat * 4194304 + a.toNat * 262144 + b.toNat * 16384)
  | .or d a b => .a (67108867 + d.toNat * 4194304 + a.toNat * 262144 + b.toNat * 16384)
  | .xor d a b => .a (67108868 + d.toNat * 4194304 + a.toNat * 262144 + b.toNat * 16384)
  | .andn d a b => .a (67108869 + d.toNat * 4194304 + a.toNat * 262144 + b.toNat * 16384)
  | .shl d a b => .a (67108870 + d.toNat * 4194304 + a.toNat * 262144 + b.toNat * 16384)
  | .shr d a b => .a (67108871 + d.toNat * 4194304 + a.toNat * 262144 + b.toNat * 16384)
  | .sra d a b => .a (67108872 + d.toNat * 4194304 + a.toNat * 262144 + b.toNat * 16384)
  | .rot d a b => .a (67108873 + d.toNat * 4194304 + a.toNat * 262144 + b.toNat * 16384)
  | .mul d a b => .a (67108874 + d.toNat * 4194304 + a.toNat * 262144 + b.toNat * 16384)
  | .mulh d a b => .a (67108875 + d.toNat * 4194304 + a.toNat * 262144 + b.toNat * 16384)
  | .mulhn d a b => .a (67108876 + d.toNat * 4194304 + a.toNat * 262144 + b.toNat * 16384)
  | .min d a b => .a (67108877 + d.toNat * 4194304 + a.toNat * 262144 + b.toNat * 16384)
  | .max d a b => .a (67108878 + d.toNat * 4194304 + a.toNat * 262144 + b.toNat * 16384)
  | .minn d a b => .a (67108879 + d.toNat * 4194304 + a.toNat * 262144 + b.toNat * 16384)
  | .maxn d a b => .a (67108880 + d.toNat * 4194304 + a.toNat * 262144 + b.toNat * 16384)
  | .clz d a => .a (67108881 + d.toNat * 4194304 + a.toNat * 262144)
  | .ctz d a => .a (67108882 + d.toNat * 4194304 + a.toNat * 262144)
  | .popc d a => .a (67108883 + d.toNat * 4194304 + a.toNat * 262144)
  | .slt d a b => .a (67108884 + d.toNat * 4194304 + a.toNat * 262144 + b.toNat * 16384)
  | .sltn d a b => .a (67108885 + d.toNat * 4194304 + a.toNat * 262144 + b.toNat * 16384)
  | .seq d a b => .a (67108886 + d.toNat * 4194304 + a.toNat * 262144 + b.toNat * 16384)
  | .div d a b => .a (134217728 + d.toNat * 4194304 + a.toNat * 262144 + b.toNat * 16384)
  | .divn d a b => .a (134217729 + d.toNat * 4194304 + a.toNat * 262144 + b.toNat * 16384)
  | .rem d a b => .a (134217730 + d.toNat * 4194304 + a.toNat * 262144 + b.toNat * 16384)
  | .remn d a b => .a (134217731 + d.toNat * 4194304 + a.toNat * 262144 + b.toNat * 16384)
  | .bext d a l p => .a (201326592 + d.toNat * 4194304 + a.toNat * 262144 + l.toNat * 64 + p.toNat)
  | .bins d a l p => .a (201330688 + d.toNat * 4194304 + a.toNat * 262144 + l.toNat * 64 + p.toNat)
  | .sel d a b c => .a (268435456 + d.toNat * 4194304 + a.toNat * 262144 + b.toNat * 16384 + c.toNat)
  | .addi d a i => .a (335544320 + d.toNat * 4194304 + a.toNat * 262144 + i.toNat)
  | .andi d a i => .a (402653184 + d.toNat * 4194304 + a.toNat * 262144 + i.toNat)
  | .ori d a i => .a (469762048 + d.toNat * 4194304 + a.toNat * 262144 + i.toNat)
  | .xori d a i => .a (536870912 + d.toNat * 4194304 + a.toNat * 262144 + i.toNat)
  | .shli d a h => .a (603979776 + d.toNat * 4194304 + a.toNat * 262144 + h.toNat)
  | .shri d a h => .a (604045312 + d.toNat * 4194304 + a.toNat * 262144 + h.toNat)
  | .srai d a h => .a (604110848 + d.toNat * 4194304 + a.toNat * 262144 + h.toNat)
  | .movi d i => .a (671088640 + d.toNat * 4194304 + i.toNat)
  | .liw d imm => .long (2147483648 + d.toNat * 2097152) imm.toNat
  | .lih d imm => .long (2181038080 + d.toNat * 2097152) imm.toNat
  | .brLong o => .long 2214592512 o.toNat
  | .calll o => .long 2248146944 o.toNat
  | .leaLong d a disp => .long (2315255808 + d.toNat * 2097152 + a.toNat * 131072) disp.toNat
  | .fadd d a b r t => .a (1073741824 + d.toNat * 4194304 + a.toNat * 262144 + b.toNat * 16384 + r.toNat * 2048 + t.toNat * 256)
  | .fsub d a b r t => .a (1073741825 + d.toNat * 4194304 + a.toNat * 262144 + b.toNat * 16384 + r.toNat * 2048 + t.toNat * 256)
  | .fmul d a b r t => .a (1073741826 + d.toNat * 4194304 + a.toNat * 262144 + b.toNat * 16384 + r.toNat * 2048 + t.toNat * 256)
  | .ffma d a b r t => .a (1073741827 + d.toNat * 4194304 + a.toNat * 262144 + b.toNat * 16384 + r.toNat * 2048 + t.toNat * 256)
  | .fmin d a b t => .a (1073741828 + d.toNat * 4194304 + a.toNat * 262144 + b.toNat * 16384 + t.toNat * 256)
  | .fmax d a b t => .a (1073741829 + d.toNat * 4194304 + a.toNat * 262144 + b.toNat * 16384 + t.toNat * 256)
  | .fdiv d a b r t => .a (1073741830 + d.toNat * 4194304 + a.toNat * 262144 + b.toNat * 16384 + r.toNat * 2048 + t.toNat * 256)
  | .fsqrt d a r t => .a (1073741831 + d.toNat * 4194304 + a.toNat * 262144 + r.toNat * 2048 + t.toNat * 256)
  | .fsgn d a b t => .a (1073741832 + d.toNat * 4194304 + a.toNat * 262144 + b.toNat * 16384 + t.toNat * 256)
  | .fsgnn d a b t => .a (1073741833 + d.toNat * 4194304 + a.toNat * 262144 + b.toNat * 16384 + t.toNat * 256)
  | .fsgnx d a b t => .a (1073741834 + d.toNat * 4194304 + a.toNat * 262144 + b.toNat * 16384 + t.toNat * 256)
  | .fcmp d a b c t => .a (1140850688 + d.toNat * 4194304 + a.toNat * 262144 + b.toNat * 16384 + c.toNat * 2048 + t.toNat * 256)
  | .fcvt d a r x y sat => .a (1207959552 + d.toNat * 4194304 + a.toNat * 262144 + r.toNat * 2048 + x.toNat * 256 + y.toNat * 32 + sat.toNat * 16)
  | .vadd cl d a b r e sb => .a (1610612736 + cl.toNat * 67108864 + d.toNat * 4194304 + a.toNat * 262144 + b.toNat * 16384 + r.toNat * 2048 + e.toNat * 256 + sb.toNat * 128)
  | .vsub cl d a b r e sb => .a (1610612737 + cl.toNat * 67108864 + d.toNat * 4194304 + a.toNat * 262144 + b.toNat * 16384 + r.toNat * 2048 + e.toNat * 256 + sb.toNat * 128)
  | .vmul cl d a b r e sb => .a (1610612738 + cl.toNat * 67108864 + d.toNat * 4194304 + a.toNat * 262144 + b.toNat * 16384 + r.toNat * 2048 + e.toNat * 256 + sb.toNat * 128)
  | .vmin cl d a b r e sb => .a (1610612739 + cl.toNat * 67108864 + d.toNat * 4194304 + a.toNat * 262144 + b.toNat * 16384 + r.toNat * 2048 + e.toNat * 256 + sb.toNat * 128)
  | .vmax cl d a b r e sb => .a (1610612740 + cl.toNat * 67108864 + d.toNat * 4194304 + a.toNat * 262144 + b.toNat * 16384 + r.toNat * 2048 + e.toNat * 256 + sb.toNat * 128)
  | .vabs cl d a r e => .a (1610612741 + cl.toNat * 67108864 + d.toNat * 4194304 + a.toNat * 262144 + r.toNat * 2048 + e.toNat * 256)
  | .vneg cl d a r e => .a (1610612742 + cl.toNat * 67108864 + d.toNat * 4194304 + a.toNat * 262144 + r.toNat * 2048 + e.toNat * 256)
  | .vfma cl d a b r e sb => .a (1744830464 + cl.toNat * 67108864 + d.toNat * 4194304 + a.toNat * 262144 + b.toNat * 16384 + r.toNat * 2048 + e.toNat * 256 + sb.toNat * 128)
  | .vfms cl d a b r e sb => .a (1744830465 + cl.toNat * 67108864 + d.toNat * 4194304 + a.toNat * 262144 + b.toNat * 16384 + r.toNat * 2048 + e.toNat * 256 + sb.toNat * 128)
  | .vand cl d a b r e sb => .a (1879048192 + cl.toNat * 67108864 + d.toNat * 4194304 + a.toNat * 262144 + b.toNat * 16384 + r.toNat * 2048 + e.toNat * 256 + sb.toNat * 128)
  | .vor cl d a b r e sb => .a (1879048193 + cl.toNat * 67108864 + d.toNat * 4194304 + a.toNat * 262144 + b.toNat * 16384 + r.toNat * 2048 + e.toNat * 256 + sb.toNat * 128)
  | .vxor cl d a b r e sb => .a (1879048194 + cl.toNat * 67108864 + d.toNat * 4194304 + a.toNat * 262144 + b.toNat * 16384 + r.toNat * 2048 + e.toNat * 256 + sb.toNat * 128)
  | .vshl cl d a b r e sb => .a (1879048195 + cl.toNat * 67108864 + d.toNat * 4194304 + a.toNat * 262144 + b.toNat * 16384 + r.toNat * 2048 + e.toNat * 256 + sb.toNat * 128)
  | .vshr cl d a b r e sb => .a (1879048196 + cl.toNat * 67108864 + d.toNat * 4194304 + a.toNat * 262144 + b.toNat * 16384 + r.toNat * 2048 + e.toNat * 256 + sb.toNat * 128)
  | .vcmp cl d a b r e sb cond => .a (2013265920 + cl.toNat * 67108864 + d.toNat * 4194304 + a.toNat * 262144 + b.toNat * 16384 + r.toNat * 2048 + e.toNat * 256 + sb.toNat * 128 + cond.toNat)
  | .vsel cl d a b r e sb => .a (2013265928 + cl.toNat * 67108864 + d.toNat * 4194304 + a.toNat * 262144 + b.toNat * 16384 + r.toNat * 2048 + e.toNat * 256 + sb.toNat * 128)
  | .vbcast cl d a r e => .a (2147483648 + cl.toNat * 67108864 + d.toNat * 4194304 + a.toNat * 262144 + r.toNat * 2048 + e.toNat * 256)
  | .vext cl d a b r e => .a (2147483649 + cl.toNat * 67108864 + d.toNat * 4194304 + a.toNat * 262144 + b.toNat * 16384 + r.toNat * 2048 + e.toNat * 256)
  | .vperm cl d a b r e sb => .a (2147483650 + cl.toNat * 67108864 + d.toNat * 4194304 + a.toNat * 262144 + b.toNat * 16384 + r.toNat * 2048 + e.toNat * 256 + sb.toNat * 128)
  | .vredAdd cl d a r e => .a (2147483651 + cl.toNat * 67108864 + d.toNat * 4194304 + a.toNat * 262144 + r.toNat * 2048 + e.toNat * 256)
  | .vredMin cl d a r e => .a (2147483652 + cl.toNat * 67108864 + d.toNat * 4194304 + a.toNat * 262144 + r.toNat * 2048 + e.toNat * 256)
  | .vredMax cl d a r e => .a (2147483653 + cl.toNat * 67108864 + d.toNat * 4194304 + a.toNat * 262144 + r.toNat * 2048 + e.toNat * 256)
  | .vdotIp cl d a b r e sb => .a (2281701376 + cl.toNat * 67108864 + d.toNat * 4194304 + a.toNat * 262144 + b.toNat * 16384 + r.toNat * 2048 + e.toNat * 256 + sb.toNat * 128)
  | .vdotCos cl d a b r e sb => .a (2281701377 + cl.toNat * 67108864 + d.toNat * 4194304 + a.toNat * 262144 + b.toNat * 16384 + r.toNat * 2048 + e.toNat * 256 + sb.toNat * 128)
  | .vdotCosn cl d a b r e sb => .a (2281701378 + cl.toNat * 67108864 + d.toNat * 4194304 + a.toNat * 262144 + b.toNat * 16384 + r.toNat * 2048 + e.toNat * 256 + sb.toNat * 128)
  | .vdotL2 cl d a b r e sb => .a (2281701379 + cl.toNat * 67108864 + d.toNat * 4194304 + a.toNat * 262144 + b.toNat * 16384 + r.toNat * 2048 + e.toNat * 256 + sb.toNat * 128)
  | .vcvt cl d a x r sat y => .a (3221225472 + cl.toNat * 67108864 + d.toNat * 4194304 + a.toNat * 262144 + x.toNat * 16384 + r.toNat * 2048 + sat.toNat * 32 + y.toNat)
  | .vpack cl d a b r e sat y => .a (3221225536 + cl.toNat * 67108864 + d.toNat * 4194304 + a.toNat * 262144 + b.toNat * 16384 + r.toNat * 2048 + e.toNat * 256 + sat.toNat * 32 + y.toNat)
  | .vunpack cl d a half r e y => .a (3221225600 + cl.toNat * 67108864 + d.toNat * 4194304 + a.toNat * 262144 + half.toNat * 16384 + r.toNat * 2048 + e.toNat * 256 + y.toNat)
  | .vscale cl d a b r y => .a (3221225664 + cl.toNat * 67108864 + d.toNat * 4194304 + a.toNat * 262144 + b.toNat * 16384 + r.toNat * 2048 + y.toNat)
  | .vrcp cl d a r e => .a (3355443200 + cl.toNat * 67108864 + d.toNat * 4194304 + a.toNat * 262144 + r.toNat * 2048 + e.toNat * 256)
  | .vrcpn cl d a b r e sb => .a (3355443201 + cl.toNat * 67108864 + d.toNat * 4194304 + a.toNat * 262144 + b.toNat * 16384 + r.toNat * 2048 + e.toNat * 256 + sb.toNat * 128)
  | .vrsq cl d a r e => .a (3355443202 + cl.toNat * 67108864 + d.toNat * 4194304 + a.toNat * 262144 + r.toNat * 2048 + e.toNat * 256)
  | .vrsqn cl d a b r e sb => .a (3355443203 + cl.toNat * 67108864 + d.toNat * 4194304 + a.toNat * 262144 + b.toNat * 16384 + r.toNat * 2048 + e.toNat * 256 + sb.toNat * 128)
  | .vexp2 cl d a r e => .a (3355443204 + cl.toNat * 67108864 + d.toNat * 4194304 + a.toNat * 262144 + r.toNat * 2048 + e.toNat * 256)
  | .vlog2 cl d a r e => .a (3355443205 + cl.toNat * 67108864 + d.toNat * 4194304 + a.toNat * 262144 + r.toNat * 2048 + e.toNat * 256)
  | .budget => .event
  | .budgetGraceExpiry => .event
  | .handlerBudget => .event
  | .followTimeout => .event
  | .migrationDepart => .event
  | .contextArrival => .event
  | .arrivalAck => .event
  | .migrationRetry => .event
  | .arrivalBind => .event
  | .pinnedFetchSend => .event
  | .pinnedFetchRequest => .event
  | .pinnedFetchReply => .event
  | .postedOpArrival => .event
  | .postedAck => .event
  | .failedAck => .event
  | .walkComplete => .event
  | .packetDrop => .event
  | .refusalNotice => .event
  | .retransmit => .event
  | .class0TokenReturn => .event
  | .commandAccept => .event
  | .completionReport => .event
  | .permitReclaim => .event
  | .classQueueMove => .event
  | .sliceBind => .event
  | .treeSample => .event
  | .treeResult => .event
  | .stall => .event
  | .watch => .event
  | .flockDomainSample => .event
  | .patrolScrub => .event
  | .spanLinkTimeout => .event
  | .powerSample => .event
  | .powerStepUp => .event
  | .powerShareWrite => .event
  | .thermalStepDown => .event
  | .thermalStepUp => .event
  | .thermalStop => .event
  | .powerOn => .event
  | .featureWordWrite => .event
  | .featureCommit => .event
  | .attestationStart => .event
  | .attestationReportDone => .event
  | .launch => .event
  | .evqheadWrite => .event
  | .evdropClear => .event
  | .rorefClear => .event
  | .lrefClear => .event
  | .hostwakeWrite => .event
  | .registerWrite => .event
  | .hostRead => .event
  | .hostWrite => .event

/-- Decodes the words of one instruction; an event has none, and a wait of fewer words is refused. -/
def decodeOne : Words → Except Reject Instr
  | .c w => decodeC w
  | .a w => decodeA w
  | .long w0 w1 => decodeLong w0 w1
  | .event => .error .short

/-- The bundle that holds one instruction alone: its other slot, if it has one, holds a NOP (R62, R71). -/
def bundleWords : Words → Nat × Nat
  | .c w => (w, 0)
  | .a w => (0, w)
  | .long w0 w1 => (w0, w1)
  | .event => (0, 0)

/-- The one instruction of a bundle whose other slot holds a NOP. -/
def Bundle.single : Bundle → Option Instr
  | .pair c .nopA => some c
  | .pair .nopC a => some a
  | .pair _ _ => none
  | .long i => some i

/-- A-slot majors 1 and 2 (bits [31:26]) hold more rows of the table than the C-slot majors with the same bits (R64, R67). -/
def mostlyA (w : Nat) : Bool :=
  (w / 67108864 == 1 || w / 67108864 == 2) && (match decodeA w with | .ok _ => true | .error _ => false)
/-- Where the word of a table row stands in its bundle (R41, R71): the table numbers both slots' words from bit 0, so one word
can be a row of either slot (log 8). It is word 0 where it reads as a C-slot instruction or as the first word of a long one, and
is not such a word as `mostlyA` accepts; otherwise it is word 1 beside a C-slot NOP. -/
def tableWords (w : Nat) : Nat × Nat :=
  if mostlyA w then (0, w)
  else match decodeWords (w % 4294967296) (w / 4294967296) with
    | .ok _ => (w % 4294967296, w / 4294967296)
    | .error _ => (0, w % 4294967296)

/-- The instruction that the decoder reads from the word of a table row (log 8). -/
def decodeTableWord (_nbits w : Nat) : Option Instr :=
  let (w0, w1) := tableWords w
  match decode (leBytes 4 w0 ++ leBytes 4 w1) with
  | .ok (b, _) => b.single
  | .error _ => none

end Sys2Proof
end

