-- ==== Sys2Proof/Machine/State.lean ====
section
/-! DEFINITION. The state of the whole device as plain data: strands, controllers, tiles with their engines, mesh, pastures,
memory, host registers; the reasons a step can stop; and the state after reset (INVENTORY.md lists every piece with its
rule). Tables that are indexed by a number are lists of pairs in which an absent number has the default entry. -/

namespace Sys2Proof.Machine

/-- A table indexed by a number, strictly rising; an absent index has the default entry. -/
abbrev Tbl (α : Type) := List (Nat × α)

/-- Memory: listed bytes at physical addresses, strictly rising, none equal to 0, which is what an unlisted address reads
as (R194 and R455 for DRAM and scratchpad; logs 4 and 5 for controller SRAM and host memory). -/
abbrev Memory := List Host.Cell

/-- Who issues a bundle (R140, R418). -/
inductive Agent where
  | strand (tile core slot : Nat)
  | ctl (paddock core : Nat)
  deriving DecidableEq, Repr

/-- The plain registers that REGISTER_WRITE names: registers with no behaviour of their own (R9, R435, R441, R445). -/
inductive RegName where
  | devnum                          -- BAR0 0x100 (R441)
  | attnonce                        -- BAR0 0x2000 + 8 * index (R441)
  | winopt                          -- pasture area 0x2_0010 (R445)
  | spillbase                       -- control space 0x1600 of a tile (R435)
  | spillblk                        -- control space 0x1608 of a tile (R435)
  | foldbase                        -- control space 0x1610 of a tile (R435)
  | groupHome                       -- HOME of an entry of a group table (R233)
  | featctl                         -- BAR0 0x20, FEATCTL (R441)
  | attctl                          -- BAR0 0x2020, ATTCTL (R441)
  | linkTime                        -- the link time-out, which firmware sets (R452)
  | other                           -- every read-only or unlisted register (R9, R435, R441)
  deriving DecidableEq, Repr

/-- What an event concerns and the input the outside world gives it (log 2). Each event's meaning says which fields it
uses: k and l number a packet, command, tile, pasture, paddock or core. -/
structure Input where
  k : Nat := 0
  l : Nat := 0
  m : Nat := 0
  ro : Bool := false                -- the relaxed-ordering attribute (R444)
  sid : Word := 0
  val : Word := 0
  vals : List Word := []
  bytes : List Byte := []
  wide : VLong := 0                 -- data of another device's memory (R452)
  images : List (List Byte) := []   -- firmware images, one for each paddock (R453)
  reg : RegName := .other
  deriving DecidableEq, Repr

/-- A move of the schedule (log 2): an agent issues, an event happens, or time passes. -/
inductive Move where
  | issue (a : Agent)
  | part (a : Agent) (words : List Nat)   -- an issue whose vector access performs only these of its words (R81)
  | turns (a : Agent) (n : Nat)           -- n turns of a multi-turn bundle, which is then abandoned (R144)
  | event (i : Instr) (inp : Input)
  | tick (ns : Nat)
  deriving DecidableEq, Repr

/-- Where a strand's context stands (R136, R138, R182, R183). -/
inductive Place where
  | slot (tile core slot : Nat)
  | fold (tile : Nat)
  | arrival (tile : Nat)
  | transit (src : Nat)                 -- its context packet is in the mesh or awaits a retry
  | ctl (paddock core : Nat)
  deriving DecidableEq, Repr

/-- A read that a pinned fetch or pinned round trip makes at its home (R181, R190). -/
inductive Req where
  | load (n : Nat) (signed : Bool) (d : RegNo)              -- LD, LDP, LD.ACQ
  | vload (d : RegNo)                                       -- short VLD
  | amor (op : BitVec 4) (n : Nat) (b : Word) (d : RegNo)   -- AMOR, pinned round trip
  | cas (n : Nat) (old new : Word) (d : RegNo)              -- CAS, pinned round trip
  | poll (zero : Bool) (target : Nat)                       -- CCWAIT, MXWAIT, JOIN by polling
  | packet (d : RegNo) (wait : Bool)                        -- the 64 bytes of SPAWN's packet (R237)
  | wload (core : Nat) (bad : Nat)                          -- VLD w; in its reply: the words in error, as a mask (R259)
  | block (n key : Nat)                                     -- n bytes, which the C slot notes when it tries again (R190)
  | code                                                    -- the 8 bytes of a bundle (R180)
  | record                                                  -- the slice record at its origin tile (R218)
  deriving DecidableEq, Repr

/-- What a parked strand waits for (R55, R243). -/
inductive Wait where
  | walk (va : Word)             -- TLB miss (R174)
  | away                         -- its context travels while it keeps its slot, the fold being full (R230)
  | depart (dest : Nat)          -- migration, before it leaves (R87, R182)
  | fetch (addr : Word) (pa : Nat) (r : Req)   -- a pinned read, before it leaves (R87, R190)
  | reply (addr : Word) (pa : Nat) (r : Req)   -- a pinned read whose reply is awaited
  | acks (upTo : Nat)            -- FENCE or a release at scope 0 to 3 (R90); 4: the outstanding limits (R192); 5: R87
  | queue                        -- a full command queue, selection context or receive list (R28, R355, R402), or a walk (log 80)
  | seq                          -- the long sequencer: drain, overlap or a free entry (R95, R255, R258)
  | stream                       -- an operand of a stream (R261)
  | longUnit                     -- VMODE.LONG (R251)
  | bank                         -- an installed bank command holds the word (R287)
  | fullEmpty (pa : Nat)         -- wait list of a word (R196)
  | resv (pa : Nat)              -- reservation FIFO or entry queue (R197, R199)
  | counter (pa : Nat) (zero : Bool) (target : Nat)   -- local CCWAIT, MXWAIT or JOIN (R205, R239)
  | poll (addr : Word) (pa : Nat) (zero : Bool) (target : Nat)   -- between two polls (R205)
  | mwait (pa : Nat) (d : RegNo)   -- MWAIT on the status word of a record (R405)
  | latch (d : RegNo)            -- MWAIT on the wake latch (R405)
  | fpop (cmd : Nat) (d : RegNo) -- FPOP (R380)
  | pool (d : RegNo) (bytes : List Byte)   -- SPAWNW, with its packet (R237)
  | group (n : Nat) (again blocking : Bool)   -- GBAR, GWAIT or a second arrival, at HOME; again: it arrives when the phase opens (R235)
  | groupAck (n : Nat)           -- a group access travelling to HOME (R235)
  | follow                       -- FOLLOW, for its leader (R145)
  | insp                         -- INSP's image (R414)
  | mxidle                       -- MXWAIT with counter 0 (R326)
  | handlerRoom (a : Word) (pa : Nat) (b : Word)   -- a local AMOZ on a full handler queue (R408)
  | shrink (running : Bool)      -- SYS SHRINK, for the line to fall quiet; whether it stopped the pasture (R438)
  deriving DecidableEq, Repr

/-- Why a strand is stopped (R140, R150, R413, R432). -/
inductive Stop where
  | escalated
  | held
  deriving DecidableEq, Repr

/-- A follower's link to its leader (R145, R146). -/
structure Follow where
  leader : Word
  joined : Bool := false
  seen   : Nat := 0                 -- bundles the leader issued since the join, before p
  stream : List (BitVec 53) := []   -- buffered bundle numbers, oldest first
  deriving DecidableEq, Repr

/-- A slice: the packet of R216 after the defaults of R217, with its record (R218, R446). -/
structure Slice where
  entry : Word := 0
  arg : Word := 0
  affinity : Word := 0
  join : Word := 0
  fmt : BitVec 32 := 0
  sca : BitVec 32 := 0
  scb : BitVec 32 := 0
  grp : BitVec 32 := 0xFFFFFFFF
  deadline : BitVec 40 := 0
  budget : BitVec 24 := 0
  near : Bool := false
  ngrp : Nat := 0
  depth : Nat := 0
  cls : Nat := 0
  accept : Nat := 0                 -- acceptance time, pasture time in ns
  ed : Int := 0                     -- effective deadline (R223); it can lie before the epoch
  set : Option Nat := none          -- set number, for a slice launched through a window
  home : Nat := 0                   -- the tile of AFFINITY
  order : Nat := 0                  -- acceptance order
  after : Option Nat := none        -- the posted increment of JOIN that must be acknowledged before it binds (R237)
  deriving DecidableEq, Repr

/-- A C slot that waits (R55): the words of its bundle and its sources as they stood before the bundle (R53). -/
structure Pending where
  w0 : W32
  w1 : W32
  g : Vector Word 16
  v : Vector VShort 8
  log : Tbl Nat := []      -- what it has read or done so far (log 63)
  deriving DecidableEq, Repr

/-- A strand's context (R133, R136, R137), with what its tile keeps for it. -/
structure Strand where
  sid : Word := 0
  pasture : Nat := 0
  place : Place := .fold 0
  wait : Option Wait := none
  stop : Option Stop := none
  g : Vector Word 16 := Vector.replicate 16 0
  pc : BitVec 53 := 0
  sw : Word := 0                    -- bit 18 holds the pin latch, as in a context image (R187)
  vt : Word := 0
  fmt : Word := 0
  sca : BitVec 32 := 0
  scb : BitVec 32 := 0
  budget : BitVec 24 := 0
  deadline : BitVec 40 := 0
  grp : BitVec 32 := 0
  utv : Word := 0
  utc : Word := 0
  utpc : Word := 0
  utval : Word := 0
  migcnt : Nat := 0
  migwin : Nat := 0
  cOnly : Bool := false             -- the next issue performs only the C slot (R55, R151, R182)
  arrived : Bool := false           -- before its first issue after arrival (R182)
  pend : Option Pending := none     -- its C slot has issued and waits, or travels (R53, R55)
  grace : Bool := false             -- BUDGET counts the 256 turns of R153
  hturns : Nat := 0                 -- turns of a handler (R410)
  slice : Slice := {}
  fail : Option (Nat × Word) := none   -- first failed posted operation: cause, address (R193)
  follow : Option Follow := none
  v : Vector VShort 8 := Vector.replicate 8 0
  watch : Nat := 0                  -- elapsed ns of the watch timer (R232)
  fired : Bool := false             -- the WATCH record of this run is posted
  bound : Nat := 0                  -- order of binding (R227)
  parkedAt : Nat := 0               -- order of parking (R183)
  retries : Nat := 0                -- consecutive refusals of its migration (R184)
  edDue : Bool := false             -- CTXST gave it a DEADLINE, which takes effect when it resumes (R431)
  foldAt : Option Nat := none       -- its entry in the fold region of DRAM (R230); none: an entry in SRAM
  deriving DecidableEq, Repr

/-- The trap an issue took (R56), for the order of causes within a bundle. -/
structure Trap where
  cause : Nat
  val : Word
  deriving DecidableEq, Repr

/-- The issue latch, blank between steps: the context of the agent that issues, checked out of the tables; its registers as
they stood before the bundle (R53); and what the bundle has done so far (R54 to R56). -/
structure Latch where
  me : Strand := {}
  src : Strand := {}
  aflags : BitVec 5 := 0            -- flags the A slot raised (R53)
  aDone : Bool := false             -- the A slot has been performed (R55)
  log : Tbl Nat := []      -- what the C slot has read or done before it waits (log 63)
  only : List Nat := []             -- the words that a vector access performs now; none listed: all (R81)
  upTo : Nat := 0                   -- the turns after which a multi-turn bundle is abandoned; 0: it is not (R144)
  w0 : W32 := 0
  w1 : W32 := 0
  got : Bool := false               -- the bundle has been fetched
  turns : Nat := 1                  -- turns of the bundle (R144)
  trap : Option Trap := none
  gone : Bool := false              -- the strand has ended
  deriving DecidableEq, Repr

/-- A translation held by a TLB (R174, R176). -/
structure TlbEntry where
  asp : Nat                         -- pasture
  base : Nat                        -- virtual address of the page
  bits : Nat                        -- page size 2^bits
  pa : Nat                          -- domain physical address of the page
  r : Bool
  w : Bool
  x : Bool
  s : Bool
  deriving DecidableEq, Repr

/-- Supervisor registers of a controller core (R420, R421). -/
structure Sv where
  vec : Word := 0
  epc : Word := 0
  cause : Word := 0
  sid : Word := 0
  spc : Word := 0
  val : Word := 0
  past : BitVec 8 := 0xFF
  asp : BitVec 8 := 0xFF
  inh : Bool := false
  halted : Bool := false            -- stopped by a fault with INH = 1, or its image was rejected
  fault : Option (Nat × Word) := none   -- a pending fault of its own: cause, value
  tlb : List TlbEntry := []         -- its 256-entry TLB (R419)
  deriving DecidableEq, Repr

/-- A controller core: a context and its supervisor registers (R418). -/
structure Ctl where
  ctx : Strand := {}
  sv : Sv := {}
  deriving DecidableEq, Repr

/-- An event of a paddock's supervisor queue (R421). -/
structure SvEvent where
  cause : Word
  sid : Word
  spc : Word
  val : Word
  past : Nat
  deriving DecidableEq, Repr

/-- A waiter of a full/empty word (R196): kind 0 LDFE, 1 LDFF, 2 STEF. -/
structure FeWaiter where
  pa : Nat
  sid : Word
  kind : Nat
  reg : RegNo
  val : Word
  deriving DecidableEq, Repr

/-- A reservation entry: holder and FIFO of waiters with their destination registers (R197). -/
structure Resv where
  pa : Nat
  holder : Word
  fifo : List (Word × RegNo)
  deriving DecidableEq, Repr

/-- A long instruction with everything it took from the strand when it was queued (R256). -/
structure SeqItem where
  op : Instr
  scalar : Word := 0                -- general-register operand; the address of VLD and VST
  pas : List Nat := []              -- translated addresses of the 32 words of VLD and VST
  sw : Word := 0
  vsat : Bool := false
  bundle : Word := 0                -- byte address of the bundle that queued it
  deriving DecidableEq, Repr

/-- A sequencer entry (R255, R257). -/
structure SeqEntry where
  idx : Nat
  item : SeqItem
  paired : Bool := false            -- the second of a pair: executes with the entry before it (R255)
  body : List SeqItem := []         -- VLOOP
  count : Nat := 0                  -- passes still to run
  pos : Nat := 0                    -- instructions of the current pass that have run
  log : Tbl Nat := []      -- words that its vector access has performed, by index (R81), and its marks
  begun : Bool := false             -- something of it has been performed (R254)
  deriving DecidableEq, Repr

/-- A core's share of the long unit and its sequencer (R248, R251, R255, R259). -/
structure LongUnit where
  owner : Option Word := none
  waiters : List Word := []
  w : Vector VLong 16 := Vector.replicate 16 0
  q : List SeqEntry := []
  next : Nat := 0
  hist : List SeqItem := []         -- queued since VMODE.LONG, newest first
  pflags : BitVec 5 := 0
  deferred : Option (Nat × Nat × Word) := none   -- SEQ, KIND, bundle address
  deriving DecidableEq, Repr

/-- A stream register (R260, R299). -/
structure Stream where
  owner : Option Word := none
  base : Word := 0                  -- BUF
  buf : List Nat := []              -- physical address of each 256-byte part of the ring
  len : Nat := 0
  long : Bool := false
  ready : Nat := 0                  -- operands in the ring
  rd : Nat := 0                     -- slot of the oldest
  deriving DecidableEq, Repr

/-- A cell of a B image (R127, R128): the aligned element, with the sign of the element it came from and whether that was
zero; or an infinity, or a NaN. -/
inductive BCell where
  | q (v : Int) (neg zero : Bool)
  | inf (neg : Bool)
  | nan (signals : Bool)
  deriving DecidableEq, Repr

/-- A column of a B image: the exponent of R127 (6 for integers), the block-scale codes of its parts, if it has any, and the 96
cells. -/
structure BCol where
  e : Int := 0
  scale : List Nat := []
  cells : List BCell := []
  deriving DecidableEq, Repr

/-- A B image (R307): state 0 EMPTY, 1 LOADING, 2 READY. -/
structure Image where
  st : Nat := 0
  gen : Nat := 0
  load : Nat × Nat × Nat × Nat × Nat := (0, 0, 0, 0, 0)   -- first macro, slot, K, N, format
  cols : List BCol := []
  deriving DecidableEq, Repr

/-- A step-cache entry (R332) with the order of its last store or hit. -/
structure ScEntry where
  v : Bool := false
  iptr : Nat := 0
  sca : BitVec 32 := 0
  scb : BitVec 32 := 0
  afmt : Nat := 0
  sc : Bool := false
  img : Nat := 0
  gen : Nat := 0
  m : Nat := 0
  n : Nat := 0
  k : Nat := 0
  step : Nat := 0
  btag : Nat := 0
  used : Nat := 0
  deriving DecidableEq, Repr

/-- A candidate of a selection list (R347), with the order of its push (R349). -/
structure Cand where
  idx : Nat
  key : Nat
  push : Nat
  deriving DecidableEq, Repr

/-- A selection context (R347, R348). -/
structure SelCtx where
  owner : Option Word := none       -- as it stands once every issued command is accepted
  heldK : Nat := 0                  -- K as tracked at issue (R353)
  heldT : Nat := 0                  -- KTYPE as tracked at issue (R352)
  k : Nat := 0
  c : Nat := 0
  ktype : Nat := 0
  smallest : Bool := false
  row : Bool := false
  lists : List (List Cand) := []
  err : Option (Nat × Word) := none -- sticky status, with the address an event would name (R357)
  deriving DecidableEq, Repr

/-- A task record held by a Flock unit (R365, R368). -/
structure FRec where
  prio : Nat
  bytes : List Byte
  sram : Bool := true
  order : Nat := 0                  -- first insertion into this unit
  deriving DecidableEq, Repr

/-- A result of the min-reduction tree (R34). -/
structure TreeRes where
  floor : Nat := 0xFFFFFFFF
  pushed : Nat := 0
  popped : Nat := 0
  finished : Nat := 0
  allParked : Bool := false
  judged : Bool := false
  deriving DecidableEq, Repr

/-- A tile's Flock unit (R365 to R376). -/
structure Flock where
  recs : List FRec := []            -- in insertion order
  given : List (Nat × FRec) := []   -- given to a pop (command), until its entry is registered
  inflight : List (Word × Nat) := []   -- SID, priority
  pushed : Nat := 0
  popped : Nat := 0
  finished : Nat := 0
  last : Nat := 0xFFFFFFFF          -- contribution at the last sample (R373)
  full : Bool := false              -- refused or held back since it last accepted
  tree : Option TreeRes := none
  deriving DecidableEq, Repr

/-- A posted receive (R401, R402). -/
structure Recv where
  pa : Nat
  buf : Word
  cap : Nat
  tag : Nat
  tmask : Nat
  src : Nat
  smask : Nat
  taker : Option Nat := none        -- the packet whose message is being delivered to it
  deriving DecidableEq, Repr

/-- A message (R398, R399). -/
structure Msg where
  handler : Bool
  tag : Nat
  len : Nat
  pay : List Byte
  sender : Nat
  stamp : Nat
  sid : Word
  ctr : Option Nat                  -- its counter: the physical address translated at issue
  desc : Word                       -- descriptor address, for MSG_REFUSED
  gen : Nat                         -- generation of the earmark
  where_ : Nat                      -- the earmark's target: selector, logical row and column
  tries : Nat := 0                  -- refusals so far (R404)
  taker : Option Word := none       -- the strand to whose posted receive it is being delivered
  deriving DecidableEq, Repr

/-- An entry of the handler queue (R408, R409). -/
structure HEntry where
  pc : Word
  regs : List Word                  -- g1 to g14
  g15 : Word
  deriving DecidableEq, Repr

/-- What has become of one access of a command or a walk (R31; log 64). -/
inductive Acc where
  | val (v : Nat)                   -- performed: what it read, or 0
  | fault (cause : Nat)             -- it could not be performed
  | out (time : Nat)                -- its packet was sent, at this time, and nothing has come back
  | walk (va : Word)                -- its TLB miss waits for a walk (R174)
  | held                            -- an installed bank command holds its word (R287)
  deriving DecidableEq, Repr

/-- A walk in progress that has read table entries (R177): its page, its number, and its reads by level. -/
structure Walking where
  page : Word
  id : Nat
  log : Tbl Acc := []
  deriving DecidableEq, Repr

/-- A tile (R16) with everything its units hold. -/
structure Tile where
  failed : Bool := false
  ctrs : Tbl Word := []             -- counters by control-space offset (R215 and the engine chapters)
  tlb : List TlbEntry := []
  walks : List Word := []           -- walks in progress, then the miss queue (R174)
  walkRuns : List Walking := []     -- what the walks in progress have read
  unitWalks : List (Word × Option Nat) := []   -- misses of units with no strand or command; a fault that one has yet to see (log 80)
  fbuf : Tbl (List (Nat × Nat)) := []   -- fetch buffers by core: bundles by address, newest first (R180)
  leftAt : List (Word × Nat) := []  -- entries of the fold region that departed contexts still have (R230)
  tb : Nat × Nat := (0, 0)          -- time-base advance: value, and the time it was made (R37)
  gens : Tbl Nat := []              -- GEN last used of each INDEX (R134)
  occ : Tbl (BitVec 16) := []       -- occupancy numbers by 16*core + slot (R395)
  latch : List Nat := []            -- slots whose wake latch is 1 (R412)
  departing : List (Word × Option (Nat × Nat)) := []   -- contexts kept until the arrival acknowledgement; a kept slot (R182, R230)
  arrivals : List Word := []        -- arrival queue (R183)
  readyQ : List Slice := []         -- tile ready queue (R222)
  fe : List FeWaiter := []
  resv : List Resv := []
  resvQ : List (Word × Nat × RegNo) := []   -- entry queue (R199)
  long : Tbl LongUnit := []         -- by core
  streams : Tbl Stream := []        -- by 4*core + stream
  images : Tbl Image := []
  sc : Tbl ScEntry := []
  scRegion : Word := 0
  scSlot : Nat := 0
  scThresh : BitVec 32 := 0
  sel : Tbl SelCtx := []
  selWait : List Word := []         -- strands waiting for a context, in issue order (R355)
  flock : Flock := {}
  recvs : List Recv := []
  overflow : List Msg := []
  handlers : List HEntry := []
  ovfRefused : Bool := false        -- refused since the overflow queue last had room (R404)
  hqRefused : Bool := false
  token : Bool := true              -- class-0 injection token (R392)
  spillbase : Word := 0
  spillblk : Option Nat := none     -- written by firmware; else the control block's (R367)
  foldbase : Word := 0
  tstop : Nat := 0                  -- stop record (R435)
  stopSlots : List (Nat × Word × Nat) := []
  sent : List Nat := [0, 0, 0]
  rcvd : List Nat := [0, 0, 0]
  stopSent : List Nat := [0, 0, 0]
  stopRcvd : List Nat := [0, 0, 0]
  deriving DecidableEq, Repr

/-- The five engines with core queues (R28), and the GET and PUT server. -/
inductive Engine where
  | copy | matrix | bank | select | flock | getput
  | message                         -- the counter update of an accepted message (R399)
  | join                            -- the join decrement of a killed strand (R432)
  deriving DecidableEq, Repr

/-- Where a command stands (R28, R286, R327). -/
inductive CmdSt where
  | queued                          -- in the core's queue
  | sent                            -- travelling to another tile
  | arrived                         -- in the bank arrival buffer
  | held                            -- accepted by the engine; a bank command installed
  | parked                          -- an FPOP that found nothing
  | asking                          -- an FPOP whose steal request or registration is out
  | ran                             -- a bank command that has left the pending table (R287)
  | ending (flagout : Word) (fl : BitVec 5) (err : Option Nat)   -- its work is done; its flags and its update are due (R32, R290)
  | finished (code : Option Nat)    -- completed; its report is on its way
  deriving DecidableEq, Repr

/-- An engine command (R28 to R33): its instruction, descriptor and captured state. -/
structure Cmd where
  id : Nat
  sid : Word
  pasture : Nat
  tile : Nat                        -- issuing tile
  core : Nat
  eng : Engine
  exTile : Nat                      -- executing tile (R84)
  op : Instr
  ctr : Option Nat := none          -- its counter: the physical address translated at issue
  blk : List Byte := []
  fmt : Word := 0
  sca : BitVec 32 := 0
  scb : BitVec 32 := 0
  sw : Word := 0
  arg : Word := 0                   -- register operand of SCINV; buffer of FPOP
  num : Nat := 0                    -- stream, selection context, or home tile of a pushed record
  lo : Nat := 0                     -- bank range, physical
  hi : Nat := 0
  after : List Nat := []            -- operations that must be acknowledged first (R30)
  ord : Nat := 0                    -- order of acceptance
  st : CmdSt := .queued
  log : Tbl Acc := []               -- the accesses it has made (log 64)
  started : Bool := false           -- it has started (R28)
  pos : Nat := 0                    -- operands a CPYS has delivered
  err : Option Nat := none          -- first error so far
  fl : BitVec 5 := 0                -- flags so far
  lost : Bool := false              -- its permits were reclaimed (R301)
  asked : List Nat := []            -- tiles an FPOP has asked (R373)
  gate : Bool := false              -- a remote command refused once waits for RETRANSMIT
  orphan : Bool := false            -- a CPYS whose killed strand's stream is unbound: lo and hi hold the ring's and operand's size (R304)
  deriving DecidableEq, Repr

/-- The party that numbers posted operations (R82, R192). -/
inductive Party where
  | strand (sid : Word)
  | cmd (id : Nat)
  | ctl (paddock core : Nat)
  | walk (tile id : Nat)            -- the walker, whose reads are pinned fetches (R177)
  deriving DecidableEq, Repr

/-- A posted operation (R83, R415). -/
inductive Post where
  | store (pa n : Nat) (val : VLong) (addr : Word)
  | amo (op : BitVec 4) (pa n : Nat) (b : Word) (addr : Word)
  | amoz (pa : Nat) (b : Word) (addr : Word)
  | discard (pa len : Nat) (addr : Word)
  | joinDec (pa : Nat) (addr : Word)
  | count (pa : Nat) (err : Option Nat)     -- the completion of a command or message at its counter (R32, R204)
  | bank (cmd : Nat)
  | mxsend (cmd : Nat) (gen : Nat)
  | push (cmd : Nat) (r : FRec)
  | msg (m : Msg)
  | event (m : Msg)
  | wake (sid : Word) (slot gen tgt stamp : Nat)
  | haltt (sid : Word) (slot gen tgt stamp : Nat)
  | insp (sid : Word) (slot gen stamp : Nat) (buf : Word)
  deriving DecidableEq, Repr

/-- What a packet of the mesh carries (R388). -/
inductive Body where
  | context (sid : Word) (stamp : Nat)
  | contextAck (sid : Word)
  | contextRefused (sid : Word) (stamp : Nat)
  | post (p : Post)
  | ack (of : Nat)
  | nack (of : Nat) (cause : Nat) (addr : Word)
  | refused (of : Nat)
  | msgRefused (of : Nat)
  | stale (of : Nat)
  | fetch (sid : Word) (addr : Word) (pa : Nat) (r : Req)
  | data (sid : Word) (r : Req) (val : VLong) (cause : Option Nat) (addr : Word)
  | group (sid : Word) (n : Nat) (arrive : Bool) (blocking : Bool)
  | steal (cmd : Nat) (bound : Nat)
  | stealAnswer (cmd : Nat) (giver : Nat) (r : Option FRec)
  | register (cmd : Nat) (giver : Nat) (prio : Nat)
  | image (sid : Word) (buf : Word) (bytes : List Byte)
  | report (cmd : Nat)
  | slice (l : Slice)                       -- the placement of a slice (R388)
  deriving DecidableEq, Repr

/-- A packet. A destination of 16,384 + port is the host interface; 32,768 + d is device d (R80, R452). -/
structure Packet where
  id : Nat
  party : Party := .cmd 0
  src : Nat
  dst : Nat
  pasture : Nat := 0
  seq : Nat := 0
  cls : Nat := 1                    -- the class of this journey (R392)
  want : Nat := 1                   -- its class (R391)
  tries : Nat := 0                  -- consecutive drops and refusals
  key : Nat := 0                    -- the access of a command that it makes (log 64)
  log : Tbl Nat := []      -- words of a vector access that are performed, by index (R81)
  held : Bool := false              -- it has met an installed bank command (R291)
  body : Body
  deriving DecidableEq, Repr

/-- The state of a pasture (R425). -/
inductive PState where
  | running | stopped | drained
  deriving DecidableEq, Repr

/-- The pasture control block (R423). -/
structure Pcb where
  row : Nat := 0
  col : Nat := 0
  h : Nat := 1
  w : Nat := 1
  rootp : Nat := 0
  modeB : Bool := false
  mretry : Nat := 16
  pool : Nat := 16384
  depth : Nat := 24
  dbud : Nat := 0xFFFFFF
  age : Nat := 1000000
  margin : Nat := 10000
  weight : List Nat := [0, 1, 1, 1, 1, 1, 1, 1]
  watch : List Nat := [0, 0, 0, 0, 0, 0, 0, 0]
  mbwin : Nat := 1000000
  mign : Nat := 32
  wpol : Nat := 2
  migw : Nat := 1024
  wshift : Nat := 0
  delta : Nat := 64
  stealmin : Nat := 1
  spillblk : Nat := 256
  reclaim : Nat := 100000
  foldq : Nat := 0
  evq : Nat := 0
  evqn : Nat := 256
  roots : List Nat := []
  deriving DecidableEq, Repr

/-- An entry of the group table (R233). -/
structure Group where
  home : Option Nat := none         -- none: the default, logical (0, 0)
  phase : BitVec 16 := 0
  members : Nat := 0
  arrived : List Word := []
  waiters : List Word := []         -- strands woken when the phase opens, in arrival order
  deriving DecidableEq, Repr

/-- A pasture (R38, R423, R424, R444 to R449). -/
structure Pasture where
  st : PState := .running
  pcb : Pcb := {}
  epoch : Nat := 0
  key : Nat := 0                    -- which seal key was drawn (Config.sealKey)
  opened : BitVec 8 := 0
  everOpen : Bool := false          -- a class has been opened (R367)
  pool : Nat := 0                   -- entries taken
  classQ : List Slice := []
  credit : List Nat := []           -- weighted round robin (R224)
  overflow : List Slice := []
  groups : Tbl Group := []
  rows : Nat := 12                  -- logical grid
  cols : Nat := 12
  remap : Tbl Nat := []             -- binding of logical tile row*65536 + col; absent: identity (R15)
  regen : Tbl (BitVec 16) := []     -- remap generations
  fwd : Tbl Nat := []               -- forwarding entries (R185)
  retired : List Nat := []
  evqhead : BitVec 32 := 0
  evqtail : BitVec 32 := 0
  records : Nat := 0                -- records written since creation, which place the next one and its PHASE (R447)
  evdrop : BitVec 32 := 0
  evheld : List (List Byte) := []
  lostHeld : Bool := false          -- the last record held is the EVQ_LOST of EVDROP (R449)
  setstat : Tbl (BitVec 32 × BitVec 32) := []   -- ACC, ENDED by 256*class + set
  sample : Option TreeRes := none
  doneLatch : Bool := false
  lastDone : Nat := 0               -- pushed sum at the last FLOCK_DONE
  winStart : Nat := 0               -- mode B window (R246)
  stopAt : Nat := 0                 -- when it was last stopped: detection is frozen from then on (R425)
  fires : Nat := 0
  bundles : Nat := 0
  flits : Nat := 0
  domain : Option TreeRes := none   -- last domain result (R387)
  peers : List (Nat × Nat) := []    -- other devices of the domain and their last pasture floors (R387)
  deriving DecidableEq, Repr

/-- A paddock's power manager and supervisor side (R19, R421, R456). -/
structure Paddock where
  share : Nat := 0
  caps : Nat := 0
  rate : Nat := 8                   -- matrix plane rate in eighths
  calm : Nat := 0                   -- consecutive samples at least 100 W below the share
  boot : Nat := 1                   -- BOOTSTAT byte (R441)
  version : Nat := 0
  image : List Byte := []           -- the firmware image, for its digest (R453, R454)
  svq : List SvEvent := []
  deriving DecidableEq, Repr

/-- One write of an aligned DRAM word that no write-back is yet known to carry (R210, R211). -/
structure Undo where
  word : Nat
  old : Word
  full : Bool
  deriving DecidableEq, Repr

/-- An executable mapping through which a pasture has fetched since its last TLBINV, and the bytes of its page as they stood
before they were written (R180). -/
structure CodeMap where
  asp : Nat
  base : Nat
  bits : Nat
  page : Nat                        -- local address of the page
  old : List Host.Cell := []
  deriving DecidableEq, Repr

/-- The registers of a pasture area that stand whether or not the pasture exists (R444, R445). -/
structure Area where
  winopt : BitVec 8 := 0
  roref : BitVec 32 := 0
  lref : BitVec 32 := 0
  hostwake : BitVec 32 := 0
  deriving DecidableEq, Repr

/-- A host write that waits behind a bank entry or an earlier write of its port (R103, R287): a write to memory, or one to a launch
window, which names pasture, class and set. Port 4: a part of the host read of len bytes at base, with its data, or none while a bank
entry holds it. -/
structure HostWrite where
  port : Nat
  ro : Bool                         -- the relaxed-ordering attribute
  launch : Option (Nat × Nat × Nat)
  key : Nat
  bytes : List Byte
  base : Nat := 0
  len : Nat := 0
  deriving DecidableEq, Repr

/-- A killed strand whose end is not counted yet: its posted writes and commands are not all complete (R104, R446). -/
structure Ended where
  sid : Word
  pasture : Nat
  tile : Nat
  slice : Slice
  deriving DecidableEq, Repr

/-- The status of a host read's completion (R214, R441, R450). -/
inductive HostStatus where
  | success | unsupported | aborted
  deriving DecidableEq, Repr

/-- The state of the device. -/
structure State where
  x : Latch := {}
  inp : Input := {}
  sched : List Move := []
  cur : Agent := .ctl 0 0
  now : Nat := 0                    -- distributed time base, ns (R37)
  free : Nat := 0                   -- free values taken so far (log 1)
  ids : Nat := 1                    -- next number of a packet, command or order
  mem : Memory := []
  empties : List Nat := []          -- EMPTY words, by address / 8 (R194)
  bad : List Nat := []              -- words with an uncorrectable error (R213)
  corr : List Nat := []             -- words with a correctable error
  undo : List Undo := []            -- newest first
  strands : List Strand := []
  ctls : Tbl Ctl := []              -- by 2*paddock + core
  paddocks : Tbl Paddock := []
  tiles : Tbl Tile := []
  pastures : Tbl Pasture := []
  cmds : List Cmd := []
  mesh : List Packet := []
  unacked : List Packet := []       -- retransmit buffers (R192)
  dropped : List Packet := []       -- packets dropped or refused whose notice is on its way (R390)
  resend : List Packet := []        -- packets awaiting RETRANSMIT (R390)
  waiting : List Packet := []       -- posted operations numbered but not yet injected (R286, R393)
  seqNext : List ((Party × Nat) × Nat) := []
  seqExp : List ((Party × Nat) × Nat) := []
  feat2 : BitVec 32 := 0x3FF
  committed : Bool := false
  devnum : BitVec 11 := 0
  nonce : List Word := []
  nonced : Bool := false
  attready : Bool := false
  attbusy : Bool := false
  attrep : List Byte := []
  areas : Tbl Area := []            -- by pasture number
  code : List CodeMap := []
  hostRead : List Byte := []        -- data of the last host read (R451)
  hostStatus : HostStatus := .success
  hostQ : List HostWrite := []      -- host writes that wait, in order of arrival (R103)
  ends : List Ended := []           -- kills whose ends are not counted yet (R104)
  featctl : Bool := false           -- COMMIT as it was last written (R9)
  attctl : Bool := false            -- GO as it was last written
  linkTime : Nat := 1000000         -- link time-out, ns (R452)
  spanDown : Tbl Nat := []          -- devices that cannot be reached, and since when (R452)
  keys : Nat := 0                   -- seal keys drawn (R424)
  deriving DecidableEq, Repr

/-- Stops of the machine that are faults. None of the meanings raises one: an access to an address that does not exist
takes the trap the spec names (R21, R24), which is a next state. -/
inductive Fault where
  /-- Raised by step alone: the agent that would issue does not exist or may not issue, and the schedule is empty, so
  nothing can move. Safe: the model stops where the device waits for its next event. -/
  | nothingMoves
  deriving DecidableEq, Repr

/-- Stops of the machine that are refusals. -/
inductive Refusal where
  /-- An instruction with no meaning yet. Safe. -/
  | notModelled (mnemonic : String)
  deriving DecidableEq, Repr

/-- A controller core after bring-up: it runs from offset 0 of its SRAM (log 4) with the values of R420. -/
def Ctl.reset (paddock core : Nat) : Ctl := { ctx := { place := .ctl paddock core }, sv := {} }

/-- The machine right after reset: bring-up steps 1 to 4 of R455 are done. Memory is 0 and FULL, firmware runs in every
paddock (logs 3 and 4), no pasture exists, features are offered and not yet committed (INVENTORY.md). -/
def State.reset : State := {}

end Sys2Proof.Machine
end

