-- ==== Sys2Proof/Machine/Bits.lean ====
section
/-! DEFINITION. Bit fields, extension, byte order, and the tables (R6, R12). -/

namespace Sys2Proof.Machine

open Sys2Proof

/-- Sign extension of a field to 64 bits (R12). -/
def sx {n : Nat} (x : BitVec n) : Word := x.signExtend 64
/-- Zero extension of a field to 64 bits (R12). -/
def zx {n : Nat} (x : BitVec n) : Word := x.setWidth 64
/-- The field [lo + n - 1 : lo] of a number. -/
def nfield (v lo n : Nat) : Nat := v / 2 ^ lo % 2 ^ n
/-- Bit i of a word. -/
def wbit {n : Nat} (v : BitVec n) (i : Nat) : Bool := v.getLsbD i
/-- A word with bit i set or cleared. -/
def setBit (v : Word) (i : Nat) (b : Bool) : Word :=
  if b then v ||| BitVec.ofNat 64 (2 ^ i) else v &&& ~~~ BitVec.ofNat 64 (2 ^ i)
/-- A word with the field of n bits at lo replaced. -/
def setField (v : Word) (lo n : Nat) (f : Nat) : Word :=
  let mask := BitVec.ofNat 64 ((2 ^ n - 1) * 2 ^ lo)
  (v &&& ~~~ mask) ||| (BitVec.ofNat 64 (f % 2 ^ n * 2 ^ lo))
/-- The word of a number, modulo 2^64. -/
def wd (n : Nat) : Word := BitVec.ofNat 64 n
/-- 1 or 0. -/
def boolWord (b : Bool) : Word := if b then 1 else 0
/-- A number that is the low bits of an integer, two's complement. -/
def wrapInt (bits : Nat) (v : Int) : Nat := (v % (2 ^ bits : Nat)).toNat
/-- The two's-complement value of the low bits of a number. -/
def signedOf (bits : Nat) (v : Nat) : Int :=
  let u := v % 2 ^ bits
  if 2 * u < 2 ^ bits then (u : Int) else (u : Int) - (2 ^ bits : Nat)
/-- Bytes off to off + n - 1 of a record as a little-endian number (R6); bytes beyond its end read 0. -/
def bfield (bs : List Byte) (off n : Nat) : Nat := leNat ((bs.drop off).take n)
/-- The field as a signed number. -/
def bfieldS (bs : List Byte) (off n : Nat) : Int := signedOf (8 * n) (bfield bs off n)
/-- Whether bytes off to off + n - 1 of a record are 0. -/
def recZero (bs : List Byte) (off n : Nat) : Bool := bfield bs off n == 0
/-- A record with the n bytes at off replaced. -/
def recSet (bs : List Byte) (off n v : Nat) : List Byte := bs.take off ++ leBytes n v ++ bs.drop (off + n)
/-- A virtual address plus a signed offset, modulo 2^64. -/
def addInt (a : Word) (d : Int) : Word := a + BitVec.ofInt 64 d

/-- The entry of a table, or a default. -/
def tget {α : Type} (t : Tbl α) (i : Nat) (d : α) : α :=
  match t with
  | [] => d
  | (j, a) :: r => if j = i then a else tget r i d
/-- The entry of a table, if it has one. -/
def tfind {α : Type} (t : Tbl α) (i : Nat) : Option α :=
  match t with
  | [] => none
  | (j, a) :: r => if j = i then some a else tfind r i
/-- A table with one entry set; indexes stay strictly rising. -/
def tset {α : Type} (t : Tbl α) (i : Nat) (a : α) : Tbl α :=
  match t with
  | [] => [(i, a)]
  | (j, b) :: r => if i = j then (i, a) :: r else if i < j then (i, a) :: (j, b) :: r else (j, b) :: tset r i a
/-- A table without one entry. -/
def tdel {α : Type} (t : Tbl α) (i : Nat) : Tbl α := t.filter (fun p => p.1 != i)
/-- Inserts a number into a strictly rising list. -/
def ninsert (l : List Nat) (i : Nat) : List Nat :=
  match l with
  | [] => [i]
  | j :: r => if i = j then j :: r else if i < j then i :: j :: r else j :: ninsert r i
/-- Replaces the first element that a test accepts. -/
def lupd {α : Type} (p : α → Bool) (f : α → α) : List α → List α
  | [] => []
  | a :: r => if p a then f a :: r else a :: lupd p f r
/-- Removes the first element that a test accepts. -/
def ldel {α : Type} (p : α → Bool) : List α → List α
  | [] => []
  | a :: r => if p a then r else a :: ldel p r
/-- The element for which a measure is least, the first of several. -/
def least {α : Type} (m : α → α → Bool) : List α → Option α
  | [] => none
  | a :: r =>
    match least m r with
    | none => some a
    | some b => if m b a then some b else some a
/-- Inserts into a list sorted by "comes before"; after its equals. -/
def insertBy {α : Type} (before : α → α → Bool) (a : α) : List α → List α
  | [] => [a]
  | b :: r => if before a b then a :: b :: r else b :: insertBy before a r
/-- A number rounded up to a quotient. -/
def ceilDiv (a b : Nat) : Nat := (a + b - 1) / b
/-- Element i of width w of a register's bits. -/
def elem (x w i : Nat) : Nat := x / 2 ^ (w * i) % 2 ^ w
/-- The bits of a register from its elements, lowest first. -/
def packElems (w : Nat) : List Nat → Nat
  | [] => 0
  | e :: r => e % 2 ^ w + 2 ^ w * packElems w r

end Sys2Proof.Machine
end

