-- ==== Sys2Proof/Machine/Numbers.lean ====
section
/-! DEFINITION. Number formats, exact values, rounding and conversion (R105 to R121): values are exact rationals until they
are rounded once. Types are named by their full type code (R69). -/

namespace Sys2Proof.Machine

open Sys2Proof

/-! ### Flags (R120) -/

/-- Floating-point flags in the bit order of SW.FLAGS. -/
abbrev Flags := BitVec 5
/-- Invalid operation. -/
def fNV : Flags := 1
/-- Division by zero. -/
def fDZ : Flags := 2
/-- Overflow. -/
def fOF : Flags := 4
/-- Underflow. -/
def fUF : Flags := 8
/-- Inexact. -/
def fNX : Flags := 16
/-- A flag under a condition. -/
def flagIf (b : Bool) (f : Flags) : Flags := if b then f else 0

/-! ### Values -/

/-- A value: (-1)^neg * n / d with d not 0, an infinity, or a NaN, which signals where R121 says it sets NV. -/
inductive FVal where
  | fin (neg : Bool) (n d : Nat)
  | inf (neg : Bool)
  | nan (signals : Bool)
  deriving DecidableEq, Repr

/-- A rounded result: its bits and the flags raised. -/
structure FRes where
  bits : Nat
  fl : Flags
  deriving DecidableEq, Repr

/-- A binary format (R106): fraction bits, bias, the code of the largest finite magnitude, the width. -/
structure FFmt where
  frac : Nat
  bias : Nat
  maxc : Nat
  width : Nat
  deriving DecidableEq, Repr

/-- The binary formats by full type code (R106); code 6, D8, has rules of its own. -/
def ffmt (c : Nat) : FFmt :=
  match c with
  | 0 => ⟨23, 127, 0x7F7FFFFF, 32⟩
  | 1 => ⟨52, 1023, 0x7FEFFFFFFFFFFFFF, 64⟩
  | 2 => ⟨7, 127, 0x7F7F, 16⟩
  | 3 => ⟨10, 15, 0x7BFF, 16⟩
  | 4 => ⟨3, 7, 0x7E, 8⟩
  | 5 => ⟨2, 15, 0x7B, 8⟩
  | _ => ⟨1, 1, 7, 4⟩
/-- Width of a type in bits (R249). -/
def tyBits (c : Nat) : Nat := fullBits (BitVec.ofNat 4 c)
/-- The floating-point codes. -/
def isFloat (c : Nat) : Bool := c ≤ 7
/-- The signed integer codes, i8 to i64. -/
def isSigned (c : Nat) : Bool := 8 ≤ c && c ≤ 11
/-- The code of i64 as it stands for n64, which has no full code. -/
def tyN64 : Nat := 16
/-- Width of a type code, n64 included. -/
def tyW (c : Nat) : Nat := if c = tyN64 then 64 else tyBits c
/-- The rational with a binary exponent: m * 2^e. -/
def scaled (neg : Bool) (m : Nat) (e : Int) : FVal :=
  if 0 ≤ e then .fin neg (m * 2 ^ e.toNat) 1 else .fin neg m (2 ^ (-e).toNat)
/-- The canonical NaN (R107). -/
def canonNaN (c : Nat) : Nat :=
  match c with
  | 0 => 0x7FC00000 | 1 => 0x7FF8000000000000 | 2 => 0x7FC0 | 3 => 0x7E00 | 4 => 0x7F | 5 => 0x7E | 6 => 0x80 | _ => 0

/-- The number of bits equal to b of the low n bits of m, counted from bit n - 1 down (R111). -/
def runLen (m : Nat) (b : Bool) : Nat → Nat
  | 0 => 0
  | n + 1 => if (m / 2 ^ n % 2 == 1) == b then 1 + runLen m b n else 0
/-- The magnitude of a D8 code 0x01 to 0x7E (R111); 0x7F stands for 10^6 in rounding (R113), 0 for zero. -/
def d8Mag (m : Nat) : Nat × Nat :=
  if m = 0 then (0, 1)
  else if m = 0x7F then (1000000, 1)
  else
    let b := m / 64 % 2 == 1
    let l := runLen m b 7
    let r := 6 - l
    let f := m % 2 ^ r
    if b then (10 ^ (l - 1) * (2 ^ r + 9 * f), 2 ^ r) else (2 ^ r + 9 * f, 2 ^ r * 10 ^ l)
/-- The value of a D8 code (R111). -/
def decodeD8 (c : Nat) : FVal :=
  let s := c / 128 % 2 == 1
  let m := c % 128
  if m = 0 then (if s then .nan true else .fin false 0 1)
  else if m = 0x7F then .inf s
  else .fin s (d8Mag m).1 (d8Mag m).2
/-- The value of the bits of a binary format, before any flush (R106, R107). -/
def decodeBin (c bits : Nat) : FVal :=
  let f := ffmt c
  let neg := bits / 2 ^ (f.width - 1) % 2 == 1
  let m := bits % 2 ^ (f.width - 1)
  let e := m / 2 ^ f.frac
  let t := m % 2 ^ f.frac
  if f.maxc < m then
    (if c = 4 then .nan true
     else if t = 0 then .inf neg
     else .nan (c == 5 || t / 2 ^ (f.frac - 1) % 2 == 0))
  else if e = 0 then scaled neg t (1 - (f.bias : Int) - f.frac)
  else scaled neg (2 ^ f.frac + t) ((e : Int) - f.bias - f.frac)
/-- Subnormal bits read as zero of the same sign under flush (R116), in the formats it applies to. -/
def flushBits (c bits : Nat) (flush : Bool) : Nat :=
  let f := ffmt c
  let m := bits % 2 ^ (f.width - 1)
  if flush && c ≤ 5 && m != 0 && m < 2 ^ f.frac then bits - m else bits
/-- The value an operand is read as. -/
def decodeF (c bits : Nat) (flush : Bool) : FVal :=
  if c = 6 then decodeD8 bits else decodeBin c (flushBits c bits flush)
/-- The signed value of integer bits. -/
def decodeInt (c bits : Nat) : Int := if isSigned c then signedOf (tyW c) bits else (bits % 2 ^ tyW c : Nat)

/-! ### Rounding (R114 to R116) -/

/-- Rounds the quotient n / d of a number of the given sign to an integer, and whether that is inexact. -/
def roundInt (mode : Nat) (neg : Bool) (n d : Nat) : Nat × Bool :=
  let q := n / d
  let r := n % d
  let up : Bool :=
    match mode with
    | 0 => d < 2 * r || (2 * r == d && q % 2 == 1)
    | 1 => false
    | 2 => !neg
    | 3 => neg
    | _ => q % 2 == 0
  if r = 0 then (q, false) else (if up then q + 1 else q, true)
/-- floor(log2(n / d)) of a positive rational. -/
def ilog2 (n d : Nat) : Int :=
  let e : Int := (Nat.log2 n : Int) - Nat.log2 d
  let below := if 0 ≤ e then n < d * 2 ^ e.toNat else n * 2 ^ (-e).toNat < d
  if below then e - 1 else e
/-- n / d divided by 2^s, as a quotient. -/
def over2 (n d : Nat) (s : Int) : Nat × Nat := if 0 ≤ s then (n, d * 2 ^ s.toNat) else (n * 2 ^ (-s).toNat, d)
/-- What an overflow delivers (R115): magnitude bits, and NV for an E4M3 result that is NaN. -/
def overflowTo (c mode : Nat) (neg sat : Bool) (maxc : Nat) : Nat × Flags :=
  let away : Bool := mode == 0 || (mode == 2 && !neg) || (mode == 3 && neg)
  if sat || c = 7 || !away then (maxc, 0)
  else if c = 4 then (0x7F, fNV)
  else if c = 6 then (0x7F, 0)
  else (maxc + 1, 0)
/-- Rounds a positive magnitude n / d into a binary format whose fraction is cut to the given bits (R114 to R116, R275). -/
def roundBin (c frac mode : Nat) (neg sat flush : Bool) (n d : Nat) : FRes :=
  let f := ffmt c
  let sign := if neg then 2 ^ (f.width - 1) else 0
  let cut := f.frac - frac
  let emin : Int := 1 - (f.bias : Int)
  let e := ilog2 n d
  let e' := max e emin
  let (qn, qd) := over2 n d (e' - frac)
  let (q, inexact) := roundInt mode neg qn qd
  let code := ((e' - emin).toNat * 2 ^ frac + q) * 2 ^ cut
  let (un, ud) := over2 n d (e - frac)
  let tiny : Bool := e < emin - 1 || (e == emin - 1 && (roundInt mode neg un ud).1 < 2 ^ (frac + 1))
  let maxc := f.maxc / 2 ^ cut * 2 ^ cut
  if maxc < code then
    let (m, x) := overflowTo c mode neg sat maxc
    let m := if m = maxc + 1 then f.maxc + 1 else m
    { bits := if c = 4 && m = 0x7F then 0x7F else sign + m, fl := fOF ||| fNX ||| x }
  else if flush && c ≤ 5 && tiny then { bits := sign, fl := fUF ||| fNX }
  else { bits := sign + code, fl := flagIf inexact fNX ||| flagIf (inexact && tiny) fUF }
/-- The largest D8 magnitude code whose value is at most n / d, found from the given code down. -/
def d8Floor (n d : Nat) : Nat → Nat
  | 0 => 0
  | m + 1 => if (d8Mag (m + 1)).1 * d ≤ n * (d8Mag (m + 1)).2 then m + 1 else d8Floor n d m
/-- Rounds a positive magnitude into D8 (R113). -/
def roundD8 (mode : Nat) (neg sat : Bool) (n d : Nat) : FRes :=
  let lo := d8Floor n d 0x7F
  let (ln, ld) := d8Mag lo
  let exact : Bool := ln * d == n * ld
  let (hn, hd) := d8Mag (lo + 1)
  -- twice the value against the sum of its neighbours
  let twice := 2 * n * ld * hd
  let mid := (ln * hd + hn * ld) * d
  let up : Bool :=
    match mode with
    | 0 => mid < twice || (twice == mid && lo % 2 == 1)
    | 1 => false
    | 2 => !neg
    | 3 => neg
    | _ => lo % 2 == 0
  let m := if exact || lo = 0x7F then lo else if up then lo + 1 else lo
  let tiny : Bool := n * 1000000 < d
  let code (m : Nat) : Nat := if m = 0 then 0 else if neg then 0x80 + m else m
  if m = 0x7F then
    let (b, x) := overflowTo 6 mode neg sat 0x7E
    { bits := code b, fl := fOF ||| fNX ||| x }
  else { bits := code m, fl := flagIf (!exact) fNX ||| flagIf (tiny && !exact) fUF }
/-- Rounds a value into a format, once (R114 to R116). An infinity or a NaN is encoded as R107 and R119 give. -/
def roundTo (c mode : Nat) (sat flush : Bool) (v : FVal) : FRes :=
  match v with
  | .nan s =>
    { bits := canonNaN c, fl := if c = 7 then fNV else flagIf s fNV }
  | .inf neg =>
    let sign := if neg then 2 ^ (tyBits c - 1) else 0
    if c = 4 then { bits := if sat then sign + 0x7E else 0x7F, fl := fNV }
    else if c = 7 then { bits := sign + 7, fl := fNV }
    else if c = 6 then { bits := sign + 0x7F, fl := 0 }
    else { bits := sign + (ffmt c).maxc + 1, fl := 0 }
  | .fin neg n d =>
    if n = 0 then { bits := if neg && c != 6 then 2 ^ (tyBits c - 1) else 0, fl := 0 }
    else if c = 6 then roundD8 mode neg sat n d
    else roundBin c (ffmt c).frac mode neg sat flush n d

/-! ### Exact operations: the value and the flags of an invalid operation or a division by zero (R120, R121) -/

/-- An exact result with the flags that it raises before rounding. -/
abbrev Ex := FVal × Flags

/-- NaN operands: a NaN result, with NV if one of them signals (R121); otherwise the operation. -/
def nan2 (x y : FVal) (k : Ex) : Ex :=
  match x, y with
  | .nan s, .nan t => (.nan false, flagIf (s || t) fNV)
  | .nan s, _ => (.nan false, flagIf s fNV)
  | _, .nan t => (.nan false, flagIf t fNV)
  | _, _ => k
/-- An invalid operation (R120). -/
def invalid : Ex := (.nan false, fNV)
/-- The signed rational of a finite value over a common denominator. -/
def signedNum (neg : Bool) (n : Nat) : Int := if neg then -(n : Int) else n
/-- A rational from a signed numerator; a zero takes the given sign. -/
def ofSigned (v : Int) (d : Nat) (zeroNeg : Bool) : FVal :=
  if v = 0 then .fin zeroNeg 0 1 else .fin (v < 0) v.natAbs d
/-- The sign of an exact zero sum (R108). -/
def zeroSign (mode : Nat) (x y : Bool) : Bool := if x == y then x else mode == 3
/-- x + y. -/
def addF (mode : Nat) (x y : FVal) : Ex :=
  nan2 x y <|
    match x, y with
    | .inf a, .inf b => if a == b then (.inf a, 0) else invalid
    | .inf a, _ => (.inf a, 0)
    | _, .inf b => (.inf b, 0)
    | .fin a n d, .fin b m e => (ofSigned (signedNum a (n * e) + signedNum b (m * d)) (d * e) (zeroSign mode a b), 0)
    | _, _ => (.nan false, 0)
/-- The value with its sign inverted. -/
def negF : FVal → FVal
  | .fin s n d => .fin (!s) n d
  | .inf s => .inf (!s)
  | .nan q => .nan q
/-- x * y. -/
def mulF (x y : FVal) : Ex :=
  nan2 x y <|
    match x, y with
    | .inf a, .inf b => (.inf (a != b), 0)
    | .inf a, .fin b m _ => if m = 0 then invalid else (.inf (a != b), 0)
    | .fin a n _, .inf b => if n = 0 then invalid else (.inf (a != b), 0)
    | .fin a n d, .fin b m e => (.fin (a != b) (n * m) (d * e), 0)
    | _, _ => (.nan false, 0)
/-- c + x * y; 0 * inf is invalid even beside a quiet NaN c (R161, R268). -/
def fmaF (mode : Nat) (c x y : FVal) : Ex :=
  let (p, f) := mulF x y
  let (r, g) := addF mode c p
  (r, f ||| g)
/-- x / y (R161). -/
def divF (x y : FVal) : Ex :=
  nan2 x y <|
    match x, y with
    | .inf _, .inf _ => invalid
    | .inf a, .fin b _ _ => (.inf (a != b), 0)
    | .fin a _ _, .inf b => (.fin (a != b) 0 1, 0)
    | .fin a n d, .fin b m e =>
      if m = 0 then (if n = 0 then invalid else (.inf (a != b), fDZ)) else (.fin (a != b) (n * e) (d * m), 0)
    | _, _ => (.nan false, 0)

/-- floor(sqrt m), by two bits at a time. -/
def isqrt : Nat → Nat → Nat
  | 0, _ => 0
  | k + 1, m =>
    let r := 2 * isqrt k (m / 4)
    if (r + 1) * (r + 1) ≤ m then r + 1 else r
/-- A rational that rounds to any format with the given fraction bits as sqrt(n / d) does: the root itself where it is a
multiple of 2^-k, else the middle of the interval of that size that holds it. -/
def sqrtQ (frac n d : Nat) : Nat × Nat :=
  let k := frac + 4 + (-(ilog2 n d)).toNat
  let m := n * 4 ^ k / d
  let r := isqrt (Nat.log2 m / 2 + 1) m
  if r * r * d = n * 4 ^ k then (r, 2 ^ k) else (2 * r + 1, 2 ^ (k + 1))
/-- The square root of a value, for rounding to a format with the given fraction bits (R161). -/
def sqrtF (frac : Nat) (x : FVal) : Ex :=
  match x with
  | .nan s => (.nan false, flagIf s fNV)
  | .inf false => (.inf false, 0)
  | .inf true => invalid
  | .fin s n d =>
    if n = 0 then (.fin s 0 1, 0)
    else if s then invalid
    else (.fin false (sqrtQ frac n d).1 (sqrtQ frac n d).2, 0)

/-- Rounds an exact result and joins its flags. -/
def roundEx (c mode : Nat) (sat flush : Bool) (x : Ex) : FRes :=
  let r := roundTo c mode sat flush x.1
  { r with fl := r.fl ||| x.2 }

/-! ### Comparison, minimum and maximum (R162, R164) -/

/-- x < y of two values that are not NaN. -/
def ltF (x y : FVal) : Bool :=
  match x, y with
  | .inf a, .inf b => a && !b
  | .inf a, .fin .. => a
  | .fin .., .inf b => !b
  | .fin a n d, .fin b m e => signedNum a (n * e) < signedNum b (m * d)
  | _, _ => false
/-- x = y of two values that are not NaN; zeros of either sign are equal. -/
def eqF (x y : FVal) : Bool := !ltF x y && !ltF y x && (match x, y with | .nan _, _ => false | _, .nan _ => false | _, _ => true)
/-- The sign of a value. -/
def FVal.neg : FVal → Bool
  | .fin s _ _ => s
  | .inf s => s
  | .nan _ => false
/-- Whether a value is a NaN. -/
def FVal.isNaN : FVal → Bool
  | .nan _ => true
  | _ => false
/-- Whether a value is a NaN that sets NV. -/
def FVal.signals : FVal → Bool
  | .nan s => s
  | _ => false
/-- Whether a value is zero. -/
def FVal.isZero : FVal → Bool
  | .fin _ n _ => n == 0
  | _ => false
/-- FMIN (max = false) and FMAX on operand bits, after flush (R162). -/
def minMaxF (c : Nat) (max flush : Bool) (a b : Nat) : FRes :=
  let x := decodeF c a flush
  let y := decodeF c b flush
  let fl := flagIf (x.signals || y.signals) fNV
  let fa := flushBits c a flush
  let fb := flushBits c b flush
  if x.isNaN && y.isNaN then { bits := canonNaN c, fl := fl }
  else if x.isNaN then { bits := fb, fl := fl }
  else if y.isNaN then { bits := fa, fl := fl }
  else
    let less : Bool := ltF x y || (eqF x y && x.neg && !y.neg)
    { bits := if less == max then fb else fa, fl := fl }
/-- A floating compare (R164): the outcome and its flags. -/
def cmpF (fc : Nat) (x y : FVal) : Bool × Flags :=
  let un : Bool := x.isNaN || y.isNaN
  let sig := flagIf (x.signals || y.signals) fNV
  match fc with
  | 0 => (!un && eqF x y, sig)
  | 1 => (un || !eqF x y, sig)
  | 2 => (!un && ltF x y, flagIf un fNV)
  | 3 => (!un && !ltF y x, flagIf un fNV)
  | 4 => (!un && ltF y x, flagIf un fNV)
  | 5 => (!un && !ltF x y, flagIf un fNV)
  | 6 => (un, sig)
  | _ => (!un, sig)

/-! ### Conversions (R105, R117 to R119) -/

/-- The least and greatest value of an integer type. -/
def intRange (c : Nat) : Int × Int :=
  if isSigned c then (-(2 ^ (tyW c - 1) : Nat), (2 ^ (tyW c - 1) : Nat) - 1) else (0, (2 ^ tyW c : Nat) - 1)
/-- The bits of an integer in a type, wrapped. -/
def encodeInt (c : Nat) (v : Int) : Nat := wrapInt (tyW c) v
/-- A value clamped to an integer type. -/
def clampInt (c : Nat) (v : Int) : Int := max (intRange c).1 (min (intRange c).2 v)
/-- Floating point to integer (R118). -/
def floatToInt (c mode : Nat) (v : FVal) : FRes :=
  match v with
  | .nan _ => { bits := 0, fl := fNV }
  | .inf s => { bits := encodeInt c (if s then (intRange c).1 else (intRange c).2), fl := fNV }
  | .fin s n d =>
    let (q, inexact) := roundInt mode s n d
    let i := signedNum s q
    if clampInt c i = i then { bits := encodeInt c i, fl := flagIf inexact fNX }
    else { bits := encodeInt c (clampInt c i), fl := fNV }
/-- Converts the bits of one type into another (R105, R117 to R119). -/
def convert (src dst mode : Nat) (sat flush : Bool) (bits : Nat) : FRes :=
  if isFloat src then
    (if isFloat dst then roundTo dst mode sat flush (decodeF src bits flush)
     else floatToInt dst mode (decodeF src bits flush))
  else
    let v := decodeInt src bits
    if isFloat dst then roundTo dst mode sat flush (.fin (v < 0) v.natAbs 1)
    else { bits := encodeInt dst (if sat then clampInt dst v else v), fl := 0 }

/-! ### Special functions (R275, R276): irrational results are given as a rational strictly within the interval, far narrower
than any candidate's spacing, that holds them -/

/-- Bits of the working precision. -/
def wp : Nat := 400
/-- ln 2 in units of 2^-wp, rounded down: the sum of 1 / (k 2^k) over k from 1. -/
def ln2Sum : Nat → Nat
  | 0 => 0
  | k + 1 => 2 ^ wp / ((k + 1) * 2 ^ (k + 1)) + ln2Sum k
/-- The terms k, k + 1, ... of the exponential series of x (in units of 2^-wp), given term k. -/
def expSum (x : Nat) : Nat → Nat → Nat → Nat
  | 0, _, _ => 0
  | n + 1, k, t => t + expSum x n (k + 1) (t * x / 2 ^ wp / (k + 1))
/-- 2^f in units of 2^-wp for f in [0, 1) given in those units, rounded down. -/
def exp2Frac (f : Nat) : Nat := expSum (f * ln2Sum (wp + 8) / 2 ^ wp) 110 0 (2 ^ wp)
/-- 2^x for a finite x = ±n/d. -/
def exp2F (neg : Bool) (n d : Nat) : FVal :=
  let v := signedNum neg n
  let i := v / (d : Int)
  let r := (v - i * d).toNat
  if 20000 < i then scaled false 1 20000
  else if i < -20000 then scaled false 1 (-20000)
  else if r = 0 then scaled false 1 i
  else scaled false (2 * exp2Frac (r * 2 ^ wp / d) + 1) (i - wp - 1)
/-- Binary digits of log2 of m / 2^wp, m in [2^wp, 2^(wp+1)), by squaring: the next k digits after those gathered. -/
def log2Digits : Nat → Nat → Nat → Nat
  | 0, _, acc => acc
  | k + 1, m, acc =>
    let sq := m * m / 2 ^ wp
    if 2 ^ (wp + 1) ≤ sq then log2Digits k (sq / 2) (2 * acc + 1) else log2Digits k sq (2 * acc)
/-- log2 of a positive n / d. -/
def log2F (n d : Nat) : FVal :=
  let e := ilog2 n d
  let (mn, md) := over2 n d e
  if mn = md then ofSigned e 1 false
  else
    let k := 200
    let digits := log2Digits k (mn * 2 ^ wp / md) 0
    ofSigned (e * (2 ^ (k + 1) : Nat) + (2 * digits + 1 : Nat)) (2 ^ (k + 1)) false
/-- Rounds among the candidates of R275: 13 fraction bits at most. -/
def roundSpecial (c mode : Nat) (flush : Bool) (x : Ex) : FRes :=
  match x.1 with
  | .fin s n d =>
    if n = 0 then { bits := if s then 2 ^ (tyBits c - 1) else 0, fl := x.2 }
    else
      let r := roundBin c (min 13 (ffmt c).frac) mode s false flush n d
      { r with fl := r.fl ||| x.2 }
  | _ => roundEx c mode false flush x
/-- VRCP (R275, R276). -/
def rcpF (x : FVal) : Ex := divF (.fin false 1 1) x
/-- VRSQ (R275, R276). -/
def rsqF (frac : Nat) (x : FVal) : Ex :=
  match x with
  | .nan s => (.nan false, flagIf s fNV)
  | .inf s => if s then invalid else (.fin false 0 1, 0)
  | .fin s n d =>
    if n = 0 then (.inf s, fDZ)
    else if s then invalid
    else (.fin false (sqrtQ (frac + 2) d n).1 (sqrtQ (frac + 2) d n).2, 0)
/-- VEXP2 (R275, R276). -/
def exp2Ex (x : FVal) : Ex :=
  match x with
  | .nan s => (.nan false, flagIf s fNV)
  | .inf s => (if s then .fin false 0 1 else .inf false, 0)
  | .fin s n d => (if n = 0 then .fin false 1 1 else exp2F s n d, 0)
/-- VLOG2 (R275, R276). -/
def log2Ex (x : FVal) : Ex :=
  match x with
  | .nan s => (.nan false, flagIf s fNV)
  | .inf s => if s then invalid else (.inf false, 0)
  | .fin s n d =>
    if n = 0 then (.inf true, fDZ)
    else if s then invalid
    else (log2F n d, 0)

end Sys2Proof.Machine
end

