-- ==== Sys2Proof/Config.lean ====
section
/-! DEFINITION. What an FJL-W56 fixes (R2, R3, R14, R442), and the free values: constants without a body, of which nothing
can be proved (each named in the assumption log). -/

namespace Sys2Proof.Config

/-- Tile columns of the device (R14). -/
abbrev tileCols : Nat := 96
/-- Tile rows of the device (R14). -/
abbrev tileRows : Nat := 84
/-- Tiles of the device (R2). -/
abbrev tiles : Nat := 8064
/-- Paddocks, all graded full (R2). -/
abbrev paddocks : Nat := 56
/-- FEAT0: FAMILY 0x46, PART 0x38, STEP 0x00 (R3; the stepping is log 3). -/
abbrev feat0 : BitVec 32 := 0x46380000
/-- FEAT1: FULLPAD 56, ROUTEPAD 0, DARKPAD 0, GRIDH 7, GRIDW 8 (R3). -/
abbrev feat1 : BitVec 32 := BitVec.ofNat 32 (56 * 2 ^ 26 + 7 * 2 ^ 10 + 8 * 2 ^ 6)
/-- The offered bits of FEAT2: every defined bit (R442). -/
abbrev feat2 : BitVec 32 := 0x3FF
/-- FEAT3: SPANP 32, HOSTP 4 (R442). -/
abbrev feat3 : BitVec 32 := BitVec.ofNat 32 (32 * 2 ^ 26 + 4 * 2 ^ 23)

/-- Free value (log 9): how many of the last writes of a line had not been written back when it is discarded (R211). -/
opaque undone : Nat → Nat
/-- Free value (log 10): the skew of the distributed time base at a tile; used modulo 5 ns (R37). -/
opaque skew : Nat → Nat
/-- Free value (log 11): the rank that orders a group's addition, by the command's shape and placement and the group (R129). -/
opaque groupRank : List Nat → Nat → Nat
/-- Free value (log 12): the seal keys drawn from the controllers' random source (R424). -/
opaque sealKey : Nat → BitVec 256
/-- Free value (log 13): a signature under the device's private identity key (R454). -/
opaque signature : BitVec 256 → BitVec 512
/-- Free value (log 13): the bytes of the identity certificate (R441, R454). -/
opaque idCert : Nat → Byte
/-- Free value (log 7): a counter of cycles or of other timing, by tile, control-space offset and reading. -/
opaque cycleCount : Nat → Nat → Nat → Word
/-- Free value (log 16): the least firmware version that the fuses allow (R453). -/
opaque minVersion : Nat
/-- Free value (log 72): the VAL of a FLOCK_LOST record, which names the records and the entries that are lost (R377). -/
opaque flockLost : Nat → Nat → Word
/-- Free value (log 13): the public key with which a boot ROM checks its image: x, then y (R453). -/
opaque bootKey : BitVec 512
/-- Free value (log 13): the SHA-256 digest of that key which is fused into the device (R453). -/
opaque keyDigest : BitVec 256
/-- Free value (log 73): the version that a firmware image's header names (R453). -/
opaque headerVersion : List Byte → Nat
/-- Free value (log 73): the length of the body that the header names. -/
opaque headerLength : List Byte → Nat
/-- Free value (log 73): the load offset that the header names. -/
opaque headerOffset : List Byte → Nat
/-- Free value (log 15): a result the spec does not state. -/
opaque unstated : Nat → Word

end Sys2Proof.Config
end

