-- ==== Sys2Proof/Machine/Ops.lean ====
section
/-! DEFINITION. The named operations that every meaning is built from: geometry, tables, the time base, registers of the
issuing agent, memory with its full/empty bits, event records, packets, strands, and taking a trap and returning from one. -/

namespace Sys2Proof.Machine

open Sys2Proof

/-- What a meaning answers. -/
abbrev Out := Host.Outcome State Fault Refusal

/-! ### Geometry (R14, R15) -/

/-- The paddock of a tile (R14). -/
def paddockOf (t : Nat) : Nat := t / 96 / 12 * 8 + t % 96 / 12
/-- The lowest-numbered tile of a paddock, where its controllers reach the mesh (R407). -/
def corner (p : Nat) : Nat := p / 8 * 12 * 96 + p % 8 * 12
/-- The tiles of a paddock, rising. -/
def paddockTiles (p : Nat) : List Nat := (List.range 144).map (fun i => corner p + i / 12 * 96 + i % 12)
/-- Whether a pasture's rectangle holds a paddock (R15). -/
def Pcb.holds (b : Pcb) (p : Nat) : Bool :=
  b.row ≤ p / 8 && p / 8 < b.row + b.h && b.col ≤ p % 8 && p % 8 < b.col + b.w
/-- The paddocks of a pasture in row-major order, which is their rising order. -/
def Pcb.paddocks (b : Pcb) : List Nat := (List.range Config.paddocks).filter b.holds
/-- |Δrow| + |Δcolumn| of two tiles. -/
def tileDist (a b : Nat) : Nat :=
  ((a / 96 : Nat) - (b / 96 : Nat) : Int).natAbs + ((a % 96 : Nat) - (b % 96 : Nat) : Int).natAbs

/-! ### Tables -/

/-- A tile. -/
def State.tl (s : State) (t : Nat) : Tile := tget s.tiles t {}
/-- The state with a tile changed. -/
def State.updTl (s : State) (t : Nat) (f : Tile → Tile) : State := { s with tiles := tset s.tiles t (f (s.tl t)) }
/-- A pasture, or the default record where none exists. -/
def State.pas (s : State) (p : Nat) : Pasture := tget s.pastures p {}
/-- Whether a pasture exists (R38). -/
def State.hasPas (s : State) (p : Nat) : Bool := (tfind s.pastures p).isSome
/-- The state with a pasture changed; nothing where it does not exist. -/
def State.updPas (s : State) (p : Nat) (f : Pasture → Pasture) : State :=
  if s.hasPas p then { s with pastures := tset s.pastures p (f (s.pas p)) } else s
/-- A paddock's power manager and supervisor queue. -/
def State.pad (s : State) (p : Nat) : Paddock := tget s.paddocks p {}
/-- The state with a paddock changed. -/
def State.updPad (s : State) (p : Nat) (f : Paddock → Paddock) : State :=
  { s with paddocks := tset s.paddocks p (f (s.pad p)) }
/-- A controller core. -/
def State.ctl (s : State) (p c : Nat) : Ctl := tget s.ctls (2 * p + c) (Ctl.reset p c)
/-- The state with a controller core changed. -/
def State.updCtl (s : State) (p c : Nat) (f : Ctl → Ctl) : State :=
  { s with ctls := tset s.ctls (2 * p + c) (f (s.ctl p c)) }
/-- The pasture that holds a paddock (R38). -/
def State.pasOfPaddock (s : State) (p : Nat) : Option Nat :=
  (s.pastures.find? (fun e => e.2.pcb.holds p)).map (·.1)
/-- The pasture that holds a tile. -/
def State.pasOfTile (s : State) (t : Nat) : Option Nat := s.pasOfPaddock (paddockOf t)
/-- The tiles of a pasture's rectangle. -/
def State.pasTiles (s : State) (p : Nat) : List Nat := (s.pas p).pcb.paddocks.flatMap paddockTiles
/-- The tile that a pasture's remap table binds to a logical tile; none outside the logical grid (R15). -/
def Pasture.binding (p : Pasture) (row col : Nat) : Option Nat :=
  if row < p.rows && col < p.cols then
    some (tget p.remap (row * 65536 + col) ((12 * p.pcb.row + row) * 96 + 12 * p.pcb.col + col))
  else none
/-- The logical coordinates of a tile. -/
def Pasture.logical (p : Pasture) (t : Nat) : Option (Nat × Nat) :=
  ((List.range (p.rows * p.cols)).find? (fun i => p.binding (i / p.cols) (i % p.cols) == some t)).map
    (fun i => (i / p.cols, i % p.cols))
/-- The tile that forwarding entries put in a tile's place (R185). -/
def Pasture.forward (p : Pasture) (t : Nat) : Nat := tget p.fwd t t
/-- A tile's counter at a control-space offset raised by n, modulo 2^64 (R215). -/
def State.bump (s : State) (t off n : Nat) : State :=
  s.updTl t (fun x => { x with ctrs := tset x.ctrs off (tget x.ctrs off 0 + wd n) })
/-- A tile's counter. -/
def State.ctr (s : State) (t off : Nat) : Word := tget (s.tl t).ctrs off 0
/-- A new number for a packet, a command or an order. -/
def State.fresh (s : State) : Nat × State := (s.ids, { s with ids := s.ids + 1 })
/-- A value the spec does not state (log 15), and the state with the next one still free. -/
def State.takeFree (s : State) : Word × State := (Config.unstated s.free, { s with free := s.free + 1 })

/-! ### Time (R37, R394) -/

/-- The time base of a tile: the greater of the distributed count there and its last advance, which runs at half rate. -/
def State.tileTime (s : State) (t : Nat) : Nat :=
  max (s.now + Config.skew t % 5) ((s.tl t).tb.1 + (s.now - (s.tl t).tb.2) / 2)
/-- Pasture time at a tile. The spec does not say whose time base the epoch of R37 is: the model takes the root paddock's corner tile,
and a tile whose own time base still lies below the epoch reads 0 (R37, R171; log 69). -/
def State.pasTime (s : State) (p t : Nat) : Nat := s.tileTime t - (s.pas p).epoch
/-- Receipt at a tile of a stamp of pasture time: its time base advances to at least 1 ns more. -/
def State.receive (s : State) (p t stamp : Nat) : State :=
  let v := stamp + (s.pas p).epoch + 1
  s.updTl t (fun x => { x with tb := if s.tileTime t < v then (v, s.now) else x.tb })

/-! ### Memory (R6, R79, R194, R210, R213). Addresses are local addresses: bits [44:0] of R22, or a controller SRAM key. -/

/-- One byte of memory. -/
def memGet : Memory → Nat → Byte
  | [], _ => 0
  | (k, b) :: r, a => if k = a then b else memGet r a
/-- Memory with one byte written, in canonical form. -/
def memSet : Memory → Nat → Byte → Memory
  | [], a, b => if b = 0 then [] else [(a, b)]
  | (k, c) :: r, a, b =>
    if a = k then (if b = 0 then r else (a, b) :: r)
    else if a < k then (if b = 0 then (k, c) :: r else (a, b) :: (k, c) :: r)
    else (k, c) :: memSet r a b
/-- Every listed address is at least lo, addresses rise strictly, and no listed byte is 0. -/
def Memory.wfFrom : Nat → Memory → Bool
  | _, [] => true
  | lo, (k, b) :: r => lo ≤ k && b != 0 && Memory.wfFrom (k + 1) r
/-- The canonical form of memory. -/
def Memory.wf (m : Memory) : Bool := Memory.wfFrom 0 m
/-- The n bytes at an address. -/
def memBytes (m : Memory) (a : Nat) : Nat → List Byte
  | 0 => []
  | n + 1 => memGet m a :: memBytes m (a + 1) n
/-- The n bytes at an address, little-endian. -/
def memRead (m : Memory) (a n : Nat) : Nat := leNat (memBytes m a n)
/-- Memory with bytes written from an address on. -/
def memPut (m : Memory) (a : Nat) : List Byte → Memory
  | [] => m
  | b :: r => memPut (memSet m a b) (a + 1) r

/-- The local address of the SRAM of a paddock's controllers (R418; every paddock's controller has the same name in an
address, so the model keys them apart). -/
def sramKey (paddock off : Nat) : Nat := 2 ^ 46 + paddock * 2 ^ 20 + off
/-- Whether a local address lies in tile DRAM. -/
def isDram (a : Nat) : Bool := a < 2 ^ 42
/-- Whether a local address lies in tile scratchpad. -/
def isSpad (a : Nat) : Bool := 2 ^ 42 ≤ a && a < 2 * 2 ^ 42
/-- Whether a local address lies in host memory. -/
def isHost (a : Nat) : Bool := 3 * 2 ^ 42 ≤ a && a < 4 * 2 ^ 42
/-- The tile field of a local address. -/
def tileOf (a : Nat) : Nat := a / 2 ^ 29 % 2 ^ 13
/-- The 64-bit words that n bytes at an address touch, by address / 8. -/
def wordsOf (a n : Nat) : List Nat := if n = 0 then [] else (List.range ((a + n - 1) / 8 - a / 8 + 1)).map (a / 8 + ·)
/-- Whether a word holds an uncorrectable error (R213). -/
def State.badAt (s : State) (a n : Nat) : Bool := s.bad.any (fun w => (wordsOf a n).contains w)
/-- The full/empty state of the word of an address (R194). -/
def State.isFull (s : State) (a : Nat) : Bool := !s.empties.contains (a / 8)
/-- The n bytes at a local address, little-endian. -/
def State.rd (s : State) (a n : Nat) : Nat := memRead s.mem a n
/-- The n bytes at a local address. -/
def State.rdBytes (s : State) (a n : Nat) : List Byte := memBytes s.mem a n
/-- Correctable errors in the words an access reads are corrected at the home and counted (R213). -/
def State.correct (s : State) (a n : Nat) : State :=
  (s.corr.filter (fun w => (wordsOf a n).contains w)).foldl
    (fun s w => { s.bump (tileOf (8 * w)) (0x100 + 8 * 11) 1 with corr := s.corr.filter (· != w) }) s
/-- Whether an access and the range from lo to hi, if that is not empty, share an aligned 8-byte word. -/
def shareWord (a n lo hi : Nat) : Bool := lo < hi && lo / 8 * 8 < a + n && a < ceilDiv hi 8 * 8
/-- An installed bank command holds a word against an access of another party (R100, R287). -/
def State.bankHeld (s : State) (a n : Nat) : Bool :=
  s.cmds.any (fun c => c.eng == .bank && c.st == .held && shareWord a n c.lo c.hi)
/-- A write is remembered until a discard decides whether it had been written back (R210, R211; log 9). -/
def State.remember (s : State) (ws : List Nat) : State :=
  { s with undo := ws.foldl (fun u w =>
      if isDram (8 * w) then { word := w, old := wd (s.rd (8 * w) 8), full := s.isFull (8 * w) } :: u else u) s.undo }
/-- Sets the full/empty state of a word, together with the write of its data that has just been made. -/
def State.setState (s : State) (a : Nat) (full : Bool) : State :=
  { s with empties := if full then s.empties.filter (· != a / 8) else ninsert s.empties (a / 8) }
/-- Sets the full/empty state of a word alone. -/
def State.setFull (s : State) (a : Nat) (full : Bool) : State := (s.remember [a / 8]).setState a full

/-! ### Strands -/

/-- The tile on which a strand stands. -/
def Strand.tile (st : Strand) : Nat :=
  match st.place with
  | .slot t _ _ => t
  | .fold t => t
  | .arrival t => t
  | .transit t => t
  | .ctl p _ => corner p
/-- The core on which a strand runs. -/
def Strand.core (st : Strand) : Nat :=
  match st.place with
  | .slot _ c _ => c
  | _ => 0
/-- The slot in which a strand runs. -/
def Strand.slotNo (st : Strand) : Nat :=
  match st.place with
  | .slot _ _ n => n
  | _ => 0
/-- Whether a strand stands in a slot. -/
def Strand.inSlot (st : Strand) : Bool :=
  match st.place with
  | .slot _ _ _ => true
  | _ => false
/-- Whether a context is a controller core's. -/
def Strand.isCtl (st : Strand) : Bool :=
  match st.place with
  | .ctl _ _ => true
  | _ => false
/-- A handler-slot strand (R51). -/
def Strand.hslot (st : Strand) : Bool := wbit st.sw 23
/-- The strand follows a leader (R51). -/
def Strand.following (st : Strand) : Bool := wbit st.sw 22
/-- The strand runs its user handler (R51). -/
def Strand.inTrap (st : Strand) : Bool := wbit st.sw 21
/-- The strand holds a reservation (R51). -/
def Strand.rsv (st : Strand) : Bool := wbit st.sw 20
/-- The strand holds long vector mode (R51). -/
def Strand.lmode (st : Strand) : Bool := wbit st.sw 17
/-- A short vector register is live (R51). -/
def Strand.vlive (st : Strand) : Bool := wbit st.sw 16
/-- Pinned for any of the reasons of R187: the pin latch (bit 18), RSV, VLIVE, LMODE, INTRAP, HSLOT. -/
def Strand.pinReason (st : Strand) : Bool := wbit st.sw 18 || st.rsv || st.vlive || st.lmode || st.inTrap || st.hslot
/-- Acts as pinned: a pinned strand, or a controller core (R418). -/
def Strand.pinned (st : Strand) : Bool := st.pinReason || st.isCtl
/-- SW as CSRR returns it: bit 18 is PINNED (R187). -/
def Strand.swRead (st : Strand) : Word := setBit st.sw 18 st.pinReason
/-- Changes one bit of SW. -/
def Strand.swSet (st : Strand) (i : Nat) (b : Bool) : Strand := { st with sw := setBit st.sw i b }
/-- The byte address of the strand's bundle (R43). -/
def Strand.pcByte (st : Strand) : Word := zx st.pc <<< 3
/-- The byte address of the bundle after it, which is a link (R43). -/
def Strand.linkByte (st : Strand) : Word := zx (st.pc + 1) <<< 3
/-- General register n; g0 reads 0 (R12, R48). -/
def Strand.gr (st : Strand) (r : RegNo) : Word := if r = 0 then 0 else st.g[r.toNat]'r.isLt
/-- Writes general register n; a write to g0 is discarded (R12, R48). -/
def Strand.setG (st : Strand) (r : RegNo) (v : Word) : Strand :=
  if r = 0 then st else { st with g := st.g.set r.toNat v r.isLt }
/-- The bundle is complete: the next bundle is PC + 1 modulo 2^53 (R173). -/
def Strand.advance (st : Strand) : Strand := { st with pc := st.pc + 1, wait := none, cOnly := false, pend := none }
/-- The bundle is complete and the next one is given. -/
def Strand.jump (st : Strand) (pc : BitVec 53) : Strand := { st with pc := pc, wait := none, cOnly := false, pend := none }
/-- The C slot waits; the A slot is done (R55), and the sources keep the values they had before the bundle (R53). -/
def Strand.waitFor (st : Strand) (w : Wait) (order : Nat) (p : Pending) : Strand :=
  { st with wait := some w, cOnly := true, parkedAt := order, pend := some p }
/-- The class that an event names for a strand; a handler has none (R448). -/
def Strand.evClass (st : Strand) : Nat := if st.hslot then 0xFF else st.slice.cls
/-- The party that numbers the strand's posted operations (R192). -/
def Strand.party (st : Strand) : Party :=
  match st.place with
  | .ctl p c => .ctl p c
  | _ => .strand st.sid
/-- The strand with a given identifier. -/
def State.strandOf (s : State) (sid : Word) : Option Strand := s.strands.find? (fun st => st.sid == sid)
/-- Changes the strand with a given identifier. -/
def State.onStrand (s : State) (sid : Word) (f : Strand → Strand) : State :=
  { s with strands := lupd (fun st => st.sid == sid) f s.strands }
/-- The strand in a slot. -/
def State.inSlotAt (s : State) (t c n : Nat) : Option Strand := s.strands.find? (fun st => st.place == .slot t c n)

/-! ### The issuing agent: its context stands in the issue latch -/

/-- Changes the issuing context. -/
def State.upd (s : State) (f : Strand → Strand) : State := { s with x := { s.x with me := f s.x.me } }
/-- A source register: its value before the bundle (R53). -/
def State.g (s : State) (r : RegNo) : Word := s.x.src.gr r
/-- Writes a destination register. -/
def State.wg (s : State) (r : RegNo) (v : Word) : State := s.upd (fun st => st.setG r v)
/-- The C slot is complete; the next bundle follows. -/
def State.adv (s : State) : State := s.upd Strand.advance
/-- The tile on which the issuing agent stands. -/
def State.here (s : State) : Nat := s.x.me.tile
/-- The issuing controller core's supervisor registers. -/
def State.sv (s : State) : Sv :=
  match s.x.me.place with
  | .ctl p c => (s.ctl p c).sv
  | _ => {}
/-- Changes the issuing controller core's supervisor registers. -/
def State.updSv (s : State) (f : Sv → Sv) : State :=
  match s.x.me.place with
  | .ctl p c => s.updCtl p c (fun k => { k with sv := f k.sv })
  | _ => s
/-- The C slot parks or waits (R55). -/
def State.park (s : State) (w : Wait) : State :=
  let (n, s) := s.fresh
  s.upd (fun st => st.waitFor w n { w0 := s.x.w0, w1 := s.x.w1, g := s.x.src.g, v := s.x.src.v, log := s.x.log })
/-- The bundle cannot issue yet: nothing of it has been performed (R255, R261). -/
def State.stall (s : State) (w : Wait) : State :=
  let (n, s) := s.fresh
  s.upd (fun st => { st with wait := some w, parkedAt := n })

/-! ### Event records (R447 to R449) and the supervisor queue (R421) -/

/-- An executable mapping in use remembers the bytes that a write replaces on its page (R180). -/
def CodeMap.note (m : Memory) (a n : Nat) (c : CodeMap) : CodeMap :=
  { c with old := (List.range n).foldl (fun (l : List Host.Cell) i =>
      if c.page ≤ a + i && a + i < c.page + 2 ^ c.bits && !(l.any (fun e => e.1 == a + i)) then (a + i, memGet m (a + i)) :: l
      else l) c.old }
/-- Writes bytes to memory and nothing else: the caller wakes waiters. -/
def State.poke (s : State) (a : Nat) (bs : List Byte) : State :=
  let full := (wordsOf a bs.length).filter (fun w => a ≤ 8 * w && 8 * w + 8 ≤ a + bs.length)
  { s.remember (wordsOf a bs.length) with
    mem := memPut s.mem a bs
    code := s.code.map (CodeMap.note s.mem a bs.length)
    bad := s.bad.filter (fun w => !full.contains w)
    corr := s.corr.filter (fun w => !full.contains w) }
/-- The local address of host bus address a. -/
def hostKey (a : Nat) : Nat := 3 * 2 ^ 42 + a % 2 ^ 42
/-- Writes one record into a pasture's event queue, with its PHASE, and advances EVQTAIL (R447). -/
def State.writeRecord (s : State) (p : Nat) (r : List Byte) : State :=
  let q := s.pas p
  let n := q.records
  let phase := if n / q.pcb.evqn % 2 = 0 then 1 else 0
  (s.poke (hostKey (q.pcb.evq + 32 * (n % q.pcb.evqn))) (recSet r 2 1 phase)).updPas p
    (fun q => { q with evqtail := q.evqtail + 1, records := q.records + 1 })
/-- The queue is full (R449). -/
def Pasture.evqFull (q : Pasture) : Bool := (q.evqtail - q.evqhead).toNat == q.pcb.evqn
/-- Posts a record: written, or held by the root controller while the queue is full, or dropped and counted (R449). -/
def State.postRecord (s : State) (p : Nat) (r : List Byte) : State :=
  let q := s.pas p
  if !s.hasPas p then s
  else if q.evqFull || q.evheld != [] then
    if q.evheld.length < 1024 then s.updPas p (fun q => { q with evheld := q.evheld ++ [r], lostHeld := false })
    else s.updPas p (fun q => { q with evdrop := q.evdrop + 1 })
  else s.writeRecord p r
/-- The 32 bytes of an event record (R448); PHASE is set when it is written. -/
def eventRecord (code p cls wh : Nat) (sid : Word) (time : Nat) (val : Word) : List Byte :=
  leBytes 1 code ++ leBytes 1 p ++ leBytes 1 0 ++ leBytes 1 cls ++ leBytes 4 wh ++ leBytes 8 sid.toNat ++ leBytes 8 time
    ++ leBytes 8 val.toNat
/-- Posts an event of a pasture from a tile, with that tile's pasture time (R448). -/
def State.post (s : State) (p t code cls wh : Nat) (sid val : Word) : State :=
  s.postRecord p (eventRecord code p cls wh sid (s.pasTime p t) val)
/-- Queues an event for a paddock's supervisor; one that finds 256 waiting waits at its source in the same order (R421). -/
def State.supervise (s : State) (paddock : Nat) (e : SvEvent) : State :=
  s.updPad paddock (fun d => { d with svq := d.svq ++ [e] })
/-- No class, no place (R448). -/
def noCls : Nat := 0xFF
/-- No place (R448). -/
def noWhere : Nat := 0xFFFFFFFF
/-- A pasture event: the record, and the supervisor event at the root paddock (R421). The spec names no SV_SPC for it: a free
value (log 15). -/
def State.pastureEvent (s : State) (p t code cls wh : Nat) (sid val : Word) : State :=
  let (spc, s) := s.takeFree
  (s.post p t code cls wh sid val).supervise (s.pas p).pcb.rootp
    { cause := wd (2 * 2 ^ 16 + code), sid := sid, spc := spc, val := val, past := p }

/-! ### Following (R145, R146) -/

/-- A follower leaves: it continues alone at its own next PC. -/
def Strand.leave (st : Strand) : Strand :=
  let st := { st.swSet 22 false with follow := none }
  if st.wait == some .follow then { st with wait := none, cOnly := false } else st
/-- Every follower of a leader leaves. -/
def State.dropFollowers (s : State) (leader : Word) : State :=
  { s with strands := s.strands.map (fun st =>
      match st.follow with
      | some f => if f.leader == leader then st.leave else st
      | none => st) }

/-! ### Waits on a word (R205, R239, R405) -/

/-- A counter wait's condition (R205), or a join counter's (R239). -/
def counterHolds (zero : Bool) (target v : Nat) : Bool :=
  if zero then v == 0 else target ≤ v % 2 ^ 48 || 2 ^ 63 ≤ v
/-- What a write to a word does to a strand that waits on it: the wait ends if its condition now holds. -/
def Strand.notice (st : Strand) (w : Nat) (v : Nat) : Strand :=
  match st.wait with
  | some (.counter pa zero target) =>
    if pa / 8 = w && counterHolds zero target v then st.advance else st
  | some (.mwait pa d) => if pa / 8 = w && 2 ^ 63 ≤ v then (st.setG d (wd v)).advance else st
  | _ => st
/-- Every write performed at a word re-evaluates the waits on it. -/
def State.wake (s : State) (w : Nat) : State :=
  let v := s.rd (8 * w) 8
  { s with strands := s.strands.map (fun st => st.notice w v) }
/-- A write performed at its home (R79). -/
def State.store (s : State) (a : Nat) (bs : List Byte) : State :=
  (wordsOf a bs.length).foldl State.wake (s.poke a bs)
/-- A write of the low n bytes of a number. -/
def State.st (s : State) (a n v : Nat) : State := s.store a (leBytes n v)
/-- A store: one of less than a word reads the word, and corrects it (R213, R214). -/
def State.stWord (s : State) (a n v : Nat) : State := (if n % 8 = 0 then s else s.correct a n).st a n v

/-! ### Full/empty waiters (R196) -/

/-- A listed waiter's condition. -/
def FeWaiter.holds (w : FeWaiter) (s : State) : Bool := if w.kind = 2 then !s.isFull w.pa else s.isFull w.pa
/-- The C slot of a waiting strand tries again. -/
def Strand.again (st : Strand) : Strand := { st with wait := none }
/-- Performs a listed waiter: LDFE reads and empties, LDFF reads, STEF writes and fills. The strand's bundle completes. One whose
word has an uncorrectable error, or is held by an installed bank command, makes its access again, and meets that (R214, R287). -/
def State.doWaiter (s : State) (w : FeWaiter) : State :=
  if s.badAt w.pa 8 || s.bankHeld w.pa 8 then s.onStrand w.sid Strand.again
  else
    let s := s.correct w.pa 8
    let v := wd (s.rd w.pa 8)
    if w.kind = 2 then ((s.st w.pa 8 w.val.toNat).setState w.pa true).onStrand w.sid Strand.advance
    else
      let s := s.onStrand w.sid (fun st => (st.setG w.reg v).advance)
      if w.kind = 0 then s.setFull w.pa false else s
/-- After a state change the home performs the earliest listed waiter whose condition holds, until none does; the number
of listed waiters bounds the repetitions. -/
def State.drainFe (s : State) (t pa : Nat) : Nat → State
  | 0 => s
  | n + 1 =>
    match (s.tl t).fe.find? (fun w => w.pa == pa && w.holds s) with
    | none => s
    | some w => ((s.updTl t (fun x => { x with fe := ldel (· == w) x.fe })).doWaiter w).drainFe t pa n
/-- The waiters of a word after a change of its state. -/
def State.fillFe (s : State) (pa : Nat) : State :=
  s.drainFe (tileOf pa) (pa / 8 * 8) (s.tl (tileOf pa)).fe.length

/-! ### Reservations (R197, R199) -/

/-- Grants a word to a strand: it reads the word and holds the reservation. -/
def Strand.grant (st : Strand) (d : RegNo) (v : Word) : Strand := ((st.setG d v).swSet 20 true).advance
/-- Reservation grants counted. -/
def ctrGrants : Nat := 0x100 + 8 * 10
/-- The reservation of a word has come to a strand: it is granted now where the strand stands in its slot and the word can be
read; one in the fold makes its LRW again, as the holder, once it is rebound (R247), and so does one whose word has an error or is
held by an installed bank command, which it then meets (R214, R287). -/
def State.deliver (s : State) (t pa : Nat) (sid : Word) (d : RegNo) : State :=
  match s.strandOf sid with
  | none => s
  | some st =>
    if st.inSlot && !s.badAt pa 8 && !s.bankHeld pa 8 then
      ((s.correct pa 8).onStrand sid (fun st => st.grant d (wd (s.rd pa 8)))).bump t ctrGrants 1
    else s.onStrand sid Strand.again
/-- Gives freed entries to the port's entry queue in arrival order: a waiter whose word has an entry by then joins its
FIFO, and another takes the free entry and is granted (R199). -/
def State.drainResv (s : State) (t : Nat) : Nat → State
  | 0 => s
  | n + 1 =>
    match (s.tl t).resvQ with
    | [] => s
    | (sid, pa, d) :: r =>
      if (s.tl t).resv.any (·.pa == pa) then
        (s.updTl t (fun x => { x with
          resvQ := r, resv := lupd (·.pa == pa) (fun e => { e with fifo := e.fifo ++ [(sid, d)] }) x.resv })).drainResv t n
      else if (s.tl t).resv.length < 256 then
        ((s.updTl t (fun x => { x with resvQ := r, resv := x.resv ++ [{ pa := pa, holder := sid, fifo := [] }] })).deliver
          t pa sid d).drainResv t n
      else s
/-- The holder's reservation is released: the head of the FIFO is granted, or the entry is freed (R197, R199). -/
def State.release (s : State) (t : Nat) (sid : Word) : State :=
  match (s.tl t).resv.find? (·.holder == sid) with
  | none => s
  | some e =>
    match e.fifo with
    | (h, d) :: r =>
      (s.updTl t (fun x => { x with
        resv := lupd (·.holder == sid) (fun e => { e with holder := h, fifo := r }) x.resv })).deliver t e.pa h d
    | [] =>
      let s := s.updTl t (fun x => { x with resv := ldel (·.holder == sid) x.resv })
      s.drainResv t (s.tl t).resvQ.length

/-! ### Taking a trap and returning from one (R148 to R153, R421) -/

/-- Trap causes (R52). -/
def cIllegal : Nat := 0x01
/-- ILLEGAL_BUNDLE. -/
def cIllegalBundle : Nat := 0x02
/-- PRIV. -/
def cPriv : Nat := 0x03
/-- XLATE. -/
def cXlate : Nat := 0x04
/-- PROT. -/
def cProt : Nat := 0x05
/-- HOME_LOST. -/
def cHomeLost : Nat := 0x06
/-- SEAL. -/
def cSeal : Nat := 0x07
/-- ALIGN. -/
def cAlign : Nat := 0x08
/-- MEMERR. -/
def cMemerr : Nat := 0x09
/-- RSV_LEAVE. -/
def cRsvLeave : Nat := 0x0A
/-- BUDGET. -/
def cBudget : Nat := 0x0B
/-- FP. -/
def cFp : Nat := 0x0C
/-- VECTOR_DEFERRED. -/
def cVectorDeferred : Nat := 0x0D
/-- HANDLER_BUDGET. -/
def cHandlerBudget : Nat := 0x0E
/-- HANDLER_PARK. -/
def cHandlerPark : Nat := 0x0F
/-- MSG_REFUSED. -/
def cMsgRefused : Nat := 0x10
/-- MSG_OVERFLOW. -/
def cMsgOverflow : Nat := 0x11
/-- DEADLOCK. -/
def cDeadlock : Nat := 0x12
/-- STALL. -/
def cStall : Nat := 0x13
/-- WATCH. -/
def cWatch : Nat := 0x14
/-- TRAP. -/
def cTrap : Nat := 0x15

/-- The issuing strand stops with its followers gone and the cause queued for the supervisor of its paddock (R150, R421).
spc, val and conly are the values the supervisor receives. -/
def State.escalate (s : State) (cause : Nat) (spc val : Word) (conly : Bool) : State :=
  let st := s.x.me
  ((s.dropFollowers st.sid).upd (fun st =>
    { st.leave with stop := some .escalated, wait := none, cOnly := false, pend := none, arrived := false })).supervise (paddockOf st.tile)
    { cause := wd (2 ^ 16 + (if conly then 256 else 0) + cause), sid := st.sid, spc := spc, val := val, past := st.pasture }
/-- The user handler is entered (R149). -/
def Strand.enterTrap (st : Strand) (slotA adone : Bool) (cause : Nat) (val : Word) : Strand :=
  let st' := { (st.leave.swSet 21 true) with
    utpc := st.pcByte
    utc := wd ((if slotA then 512 else 0) + (if adone then 256 else 0) + cause)
    utval := val
    wait := none
    cOnly := false
    pend := none
    arrived := false
    pc := BitVec.ofNat 53 (st.utv.toNat / 8) }
  if cause = cBudget then { st' with budget := 256, grace := true } else st'
/-- A controller core's fault: pending while INH = 0; with INH = 1 the core stops and CTRL_FAULT is posted (R421). -/
def State.ctlFault (s : State) (p c cause : Nat) (val : Word) : State :=
  if (s.ctl p c).sv.inh then
    let s := s.updCtl p c (fun k => { k with sv := { k.sv with halted := true } })
    let s := if (s.ctl p (1 - c)).sv.halted then s.updPad p (fun d => { d with boot := 3 }) else s
    match s.pasOfPaddock p with
    | some q => s.pastureEvent q (corner p) 0x23 noCls noWhere 0 (wd p)
    | none => s
  else s.updCtl p c (fun k => { k with sv := { k.sv with fault := some (cause, val) } })
/-- The event of an uncorrectable error that the issuing agent's own access met (R214). -/
def State.memEvent (s : State) (val : Word) : State :=
  let st := s.x.me
  match st.place with
  | .ctl p _ => (s.pasOfPaddock p).elim s (fun q => s.post q (corner p) cMemerr noCls (corner p) 0 val)
  | _ => s.post st.pasture st.tile cMemerr st.evClass st.tile st.sid val
/-- A trap of the issuing agent (R149): it enters the strand's handler, or escalates, or is a controller's fault. The
state given is the one the trap leaves otherwise untouched (R56). -/
def State.takeTrap (s : State) (slotA : Bool) (cause : Nat) (val : Word) : State :=
  let st := s.x.me
  let s := { s with x := { s.x with trap := some { cause := cause, val := val } } }
  match st.place with
  | .ctl p c =>
    (s.ctlFault p c (cause + if s.x.aDone then 256 else 0) val).upd (fun st => { st with wait := none, cOnly := false, pend := none })
  | _ =>
    if st.hslot || st.inTrap || st.utv == 0 || cause == cHandlerBudget || cause == cHandlerPark then
      s.escalate cause st.pcByte val s.x.aDone
    else (s.dropFollowers st.sid).upd (fun st => st.enterTrap slotA s.x.aDone cause val)
/-- A trap that the bundle itself raises: an uncorrectable error posts an event as well (R214). -/
def State.trapAt (s : State) (slotA : Bool) (cause : Nat) (val : Word) : State :=
  (if cause = cMemerr then s.memEvent val else s).takeTrap slotA cause val
/-- The trap of a posted operation that failed earlier, whose event was posted then (R193, R214). -/
def State.trapFail (s : State) (cause : Nat) (val : Word) : State := s.takeTrap false cause val
/-- A trap of the C slot. -/
def State.trapC (s : State) (cause : Nat) (val : Word) : State := s.trapAt false cause val
/-- ILLEGAL in the C slot: the value is word 0 (R60). -/
def State.illegalC (s : State) : State := s.trapC cIllegal (zx s.x.w0)
/-- PRIV in the C slot: the value is word 0 (R61). -/
def State.privC (s : State) : State := s.trapC cPriv (zx s.x.w0)
/-- A C-slot trap whose value the spec does not state (log 15). A cause of neither slot, ILLEGAL_BUNDLE or BUDGET, is taken here too:
the spec names no UTC.SLOT for it, and the model writes 0 (R149; log 69). -/
def State.trapFree (s : State) (cause : Nat) : State :=
  let (v, s) := s.takeFree
  s.trapC cause v
/-- A wait that counts as parked: in a handler slot it raises HANDLER_PARK; otherwise the strand parks and k records where
(R410). -/
def State.parkWith (s : State) (w : Wait) (k : State → State) : State :=
  if s.x.me.hslot then s.trapFree cHandlerPark else k (s.park w)
/-- The same with nothing to record. -/
def State.parkUser (s : State) (w : Wait) : State := s.parkWith w id
/-- The return from a user handler, past its checks (R151): the bundle at UTPC is issued, with its C slot alone where
ADONE is 1. -/
def Strand.uret (st : Strand) : Strand :=
  { (st.swSet 21 false) with pc := BitVec.ofNat 53 (st.utpc.toNat / 8), wait := none, cOnly := wbit st.utc 8, pend := none }
/-- The return from a supervisor event (R433). -/
def State.sret (s : State) : State :=
  let e := s.sv.epc
  (s.updSv (fun v => { v with inh := false })).upd (fun st => st.jump (BitVec.ofNat 53 (e.toNat / 8)))

end Sys2Proof.Machine
end

