-- ==== Sys2Proof/Machine/Access.lean ====
section
/-! DEFINITION. Memory as an agent reaches it: page walks and translation (R174 to R178, R419), homes and routing (R25, R181,
R198), the waits for acknowledgements (R87, R90, R193), posted operations and packets (R82, R192, R390 to R393), control
space (R435), and the local accesses with their holds and errors (R95, R100, R214, R287). -/

namespace Sys2Proof.Machine

open Sys2Proof

/-! ### Homes -/

/-- Where the home of a domain physical address lies (R25). -/
inductive Home where
  | tile (t : Nat)
  | device (d : Nat)
  | host
  | control
  deriving DecidableEq, Repr

/-- The home of a domain physical address. -/
def State.homeOf (s : State) (pa : Nat) : Home :=
  if nfield pa 45 11 != s.devnum.toNat then .device (nfield pa 45 11)
  else if nfield pa 42 3 < 2 then .tile (nfield pa 29 13)
  else if nfield pa 42 3 = 3 then .host
  else .control
/-- The local address of a domain physical address (R22). -/
def localOf (pa : Nat) : Nat := pa % 2 ^ 45
/-- The defects of R24 that need no pasture: a region that names nothing, a tile number that names no tile, a scratchpad
offset beyond 2 MiB. -/
def badPa (pa : Nat) : Bool :=
  let region := nfield pa 42 3
  let t := nfield pa 29 13
  4 ≤ region || (region < 2 && Config.tiles ≤ t) || (region = 2 && Config.tiles ≤ t && t != 0x1FFF)
    || (region = 1 && nfield pa 21 8 != 0)
/-- What makes a walk raise XLATE: the defects of R24, a tile outside the pasture among them, and another device's number
where SPAN is not accepted (R442). -/
def State.badFor (s : State) (p pa : Nat) : Bool :=
  badPa pa || (s.committed && !s.feat2.getLsbD 7 && nfield pa 45 11 != s.devnum.toNat)
    || (nfield pa 45 11 == s.devnum.toNat && nfield pa 42 3 < 3 && nfield pa 29 13 != 0x1FFF
    && !(s.pas p).pcb.holds (paddockOf (nfield pa 29 13)))

/-! ### The page walk (R175 to R177) -/

/-- What a walk or a translation answers. -/
inductive Walk where
  | ok (e : TlbEntry)
  | fault (cause : Nat)
  deriving DecidableEq, Repr

/-- The index bits of each level: low bit and width (R175). -/
def walkLevels : List (Nat × Nat) := [(47, 9), (38, 9), (29, 9), (21, 8), (16, 5)]
/-- A table pointer lies in this device's DRAM or scratchpad in the walker's paddock, aligned to 4 KiB. -/
def State.tableOk (s : State) (paddock t : Nat) : Bool :=
  t % 4096 == 0 && nfield t 45 11 == s.devnum.toNat && nfield t 42 3 < 2 && nfield t 29 13 < Config.tiles
    && !(nfield t 42 3 == 1 && nfield t 21 8 != 0) && paddockOf (nfield t 29 13) == paddock
/-- What an entry e of a table whose index begins at bit lo gives a walk: its end, or the next table (R176, R177). -/
def State.walkEntry (s : State) (p va lo e : Nat) : Walk ⊕ Nat :=
  let page := nfield e 12 44 * 4096
  if e % 2 = 0 || nfield e 56 8 != 0 || nfield e 8 4 != 0 || nfield e 2 1 != 0 then .inl (.fault cXlate)
  else if nfield e 1 1 = 1 then
    if 38 ≤ lo || page % 2 ^ lo != 0 || s.badFor p (page + va % 2 ^ lo) then .inl (.fault cXlate)
    else if nfield e 7 1 = 1 then .inl (.fault cHomeLost)
    else .inl (.ok { asp := p, base := va / 2 ^ lo * 2 ^ lo, bits := lo, pa := page,
                     r := nfield e 3 1 == 1, w := nfield e 4 1 == 1, x := nfield e 5 1 == 1, s := nfield e 6 1 == 1 })
  else if lo = 16 || nfield e 3 5 != 0 then .inl (.fault cXlate)
  else .inr page
/-- The walk from one table down the remaining levels, as the tables stand. -/
def State.walkFrom (s : State) (p paddock va : Nat) : Nat → List (Nat × Nat) → Walk
  | _, [] => .fault cXlate
  | t, (lo, n) :: rest =>
    if !s.tableOk paddock t then .fault cXlate
    else
      let ea := localOf t + 8 * nfield va lo n
      if (s.tl (tileOf ea)).failed then .fault cHomeLost
      else if s.badAt ea 8 then .fault cMemerr
      else match s.walkEntry p va lo (s.rd ea 8) with
        | .inl w => w
        | .inr t => s.walkFrom p paddock va t rest
/-- The root of a pasture's tables for one of its paddocks (R423). -/
def Pasture.rootOf (q : Pasture) (paddock : Nat) : Nat := q.pcb.roots.getD (q.pcb.paddocks.idxOf paddock) 0
/-- A whole walk of a pasture's tables in one paddock, as they stand (R177). -/
def State.walk (s : State) (p paddock va : Nat) : Walk :=
  s.walkFrom p paddock va ((s.pas p).rootOf paddock) walkLevels
/-- Counts an access that has to wait behind a bank entry (R291), at the tile of the word. -/
def State.bumpHeld (s : State) (key : Nat) : State := s.bump (tileOf key) (0x200 + 24) 1

/-! ### Translation -/

/-- The physical address that an entry gives. -/
def TlbEntry.addr (e : TlbEntry) (va : Nat) : Nat := e.pa + va % 2 ^ e.bits
/-- The entry of a TLB that maps an address of a pasture. -/
def tlbFind (tlb : List TlbEntry) (p va : Nat) : Option TlbEntry :=
  tlb.find? (fun e => e.asp == p && va / 2 ^ e.bits * 2 ^ e.bits == e.base)
/-- A TLB with an entry added; the oldest goes when it is full (which entries a TLB holds shows only in timing, R174). -/
def tlbAdd (n : Nat) (tlb : List TlbEntry) (e : TlbEntry) : List TlbEntry :=
  e :: (tlb.filter (fun f => !(f.asp == e.asp && f.base == e.base && f.bits == e.bits))).take (n - 1)
/-- The rights an access needs (R178). -/
structure Need where
  r : Bool := false
  w : Bool := false
  x : Bool := false
  deriving DecidableEq, Repr
/-- R. -/
def needR : Need := { r := true }
/-- W. -/
def needW : Need := { w := true }
/-- R and W. -/
def needRW : Need := { r := true, w := true }
/-- None (HOMEOF). -/
def needNone : Need := {}
/-- Whether an entry gives the rights; instruction fetch needs X with W = 0 (R178). -/
def TlbEntry.allows (e : TlbEntry) (n : Need) : Bool :=
  (!n.r || e.r) && (!n.w || e.w) && (!n.x || (e.x && !e.w))
/-- What a translated access of a party outside supervisor mode meets: a missing right, S = 1 or control space is PROT
(R24, R178); HOMEOF, which needs nothing, is checked for none of them (R167). -/
def State.checkEntry (s : State) (p : Nat) (e : TlbEntry) (va : Nat) (n : Need) : Nat ⊕ Nat :=
  let pa := e.addr va
  if s.badFor p pa then .inr cXlate
  else if n == needNone then .inl pa
  else if !e.allows n || e.s then .inr cProt
  else if s.homeOf pa == .control then .inr cProt
  else .inl pa
/-- Translation of an address of a pasture with the TLB of a tile (R174, R178); none: a TLB miss. -/
def State.xlateAt (s : State) (p t : Nat) (va : Word) (n : Need) : Option (Nat ⊕ Nat) :=
  if nfield va.toNat 56 8 != 0 then some (.inr cXlate)
  else (tlbFind (s.tl t).tlb p va.toNat).map (fun e => s.checkEntry p e va.toNat n)
/-- What an access of a controller core meets at an entry: its pages may have S = 1 and lie in control space (R419). -/
def State.ctlEntry (s : State) (p : Nat) (e : TlbEntry) (va : Nat) (n : Need) : Nat ⊕ Nat :=
  if s.badFor p (e.addr va) then .inr cXlate
  else if !e.allows n then .inr cProt else .inl (e.addr va)
/-- Translation by a controller core (R419): physical with SV_ASP = 0xFF; otherwise by its TLB; none: a miss, which walks the root
paddock's tables. SV_ASP may name a number that no pasture has: R419 speaks only of an existing pasture's root, and the model raises
XLATE there without a walk (DESIGN CHOICE, log 82). -/
def State.xlateCtl (s : State) (sv : Sv) (va : Word) (n : Need) : Option (Nat ⊕ Nat) :=
  let p := sv.asp.toNat
  if nfield va.toNat 56 8 != 0 then some (.inr cXlate)
  else if p = 0xFF then some (if badPa va.toNat then .inr cXlate else .inl va.toNat)
  else match tlbFind sv.tlb p va.toNat with
    | some e => some (s.ctlEntry p e va.toNat n)
    | none => if s.hasPas p then none else some (.inr cXlate)
/-- The walker's unit: 64 KiB. -/
def walkPage (va : Word) : Word := wd (va.toNat / 2 ^ 16 * 2 ^ 16)
/-- A walk that was asked for with one address serves another: both lie on the page that it finds, or in one 64 KiB unit. -/
def State.sameWalk (s : State) (p t : Nat) (w va : Word) : Bool :=
  walkPage w == walkPage va
    || (match s.walk p (paddockOf t) w.toNat with
        | .ok e => va.toNat / 2 ^ e.bits * 2 ^ e.bits == e.base
        | .fault _ => false)
/-- A TLB miss joins the walk of its page or asks for one: sixteen run at once and 64 wait; none where the queue is full
(R174). -/
def State.askWalk (s : State) (p t : Nat) (va : Word) : Option State :=
  if (s.tl t).walks.any (fun w => s.sameWalk p t w va) then some s
  else if (s.tl t).walks.length < 80 then
    some ((if (s.tl t).walks.length < 16 then s.bump t 0x108 1 else s).updTl t
      (fun x => { x with walks := x.walks ++ [walkPage va] }))
  else none
/-- Translation for a unit that acts at a tile without a strand or a command; none: a miss, which is counted once and waits for a
walk as any other (R174). The unit meets the fault of that walk, unless the tables have changed since (log 80). -/
def State.unitXlate (s : State) (p t : Nat) (va : Word) (n : Need) : Option (Nat ⊕ Nat) × State :=
  match s.xlateAt p t va n with
  | some r => (some r, s)
  | none =>
    let page := walkPage va
    let left (s : State) (l : List (Word × Option Nat)) : State := s.updTl t (fun x => { x with unitWalks := l })
    let ask (s : State) : State := (s.askWalk p t va).getD s
    let others := (s.tl t).unitWalks.filter (·.1 != page)
    match (s.tl t).unitWalks.find? (·.1 == page) with
    | some (_, some c) =>
      (match s.walk p (paddockOf t) va.toNat with
       | .fault _ => (some (.inr c), left s others)
       | .ok _ => (none, ask (left s (others ++ [(page, none)]))))
    | some (_, none) => (none, ask s)
    | none => (none, ask (left (s.bump t 0x100 1) (others ++ [(page, none)])))
/-- A strand's TLB miss (R174). The fetch of a bundle that misses leaves the bundle unissued; the C slot waits under R55. -/
def State.missAt (s : State) (va : Word) : State :=
  let s := s.bump s.here 0x100 1
  let s := (s.askWalk s.x.me.pasture s.here va).getD s
  if s.x.got then s.park (.walk va) else s.stall (.walk va)
/-- Where the C slot's log holds a noted result; below it are the words of a vector access. -/
def memoKey (key : Nat) : Nat := 256 + key
/-- A result that the C slot has noted. -/
def State.noted (s : State) (key : Nat) : Option Nat := tfind s.x.log (memoKey key)
/-- Notes a result of the C slot, which is not made again when the slot tries again after a wait. -/
def State.note (s : State) (key v : Nat) : State := { s with x := { s.x with log := tset s.x.log (memoKey key) v } }
/-- Where the C slot notes the table entry that a controller's walk for an address reads at a level. -/
def walkKey (va lvl : Nat) : Nat := 2 ^ 20 + va / 2 ^ 16 * 8 + lvl
/-- A controller core's walk from one table down the remaining levels: each read is a pinned fetch, which the core waits for
(R177, R419). -/
def State.ctlWalk (s : State) (p : Nat) (va : Word) (k : State → Walk → State) (lvl t : Nat) : List (Nat × Nat) → State
  | [] => k s (.fault cXlate)
  | (lo, n) :: rest =>
    if !s.tableOk (s.pas p).pcb.rootp t then k s (.fault cXlate)
    else match s.noted (walkKey va.toNat lvl) with
      | none => s.park (.fetch va (t + 8 * nfield va.toNat lo n) (.block 8 (walkKey va.toNat lvl)))
      | some e =>
        if 2 ^ 64 ≤ e then k s (.fault (e - 2 ^ 64))
        else match s.walkEntry p va.toNat lo e with
          | .inl w => k s w
          | .inr t => s.ctlWalk p va k (lvl + 1) t rest
/-- The issuing agent translates an address and goes on with what the translation answers, or waits for a walk (R177, R178,
R419). -/
def State.withXlate (s : State) (va : Word) (n : Need) (k : State → Nat ⊕ Nat → State) : State :=
  if s.x.me.isCtl then
    let p := s.sv.asp.toNat
    match s.xlateCtl s.sv va n with
    | some r => k s r
    | none => s.ctlWalk p va (fun s w =>
        match w with
        | .fault c => k s (.inr c)
        | .ok e => k (s.updSv (fun v => { v with tlb := tlbAdd 256 v.tlb e })) (s.ctlEntry p e va.toNat n)) 0
        ((s.pas p).rootOf (s.pas p).pcb.rootp) walkLevels
  else match s.xlateAt s.x.me.pasture s.here va n with
    | none => s.missAt va
    | some r => k s r
/-- The same, going on with the domain physical address or taking the trap with the virtual one. -/
def State.withPa (s : State) (va : Word) (n : Need) (k : State → Nat → State) : State :=
  s.withXlate va n (fun s r =>
    match r with
    | .inl pa => k s pa
    | .inr c => s.trapC c va)
/-- An aligned access: ALIGN comes before XLATE (R21, R63). -/
def State.withAligned (s : State) (va : Word) (size : Nat) (n : Need) (k : State → Nat → State) : State :=
  if va.toNat % size != 0 then s.trapC cAlign va else s.withPa va n k

/-! ### Waits for acknowledgements (R85, R87, R90, R91, R193) -/

/-- Whether a destination lies within a scope measured from a tile (R85): a tile, 16,384 + port for host memory, 32,768 +
device for another device. -/
def inScope (scope : BitVec 2) (here dst : Nat) : Bool :=
  if dst < 16384 then
    (match scope.toNat with | 0 => dst == here | 1 => paddockOf dst == paddockOf here | _ => true)
  else if dst < 32768 then 2 ≤ scope.toNat else scope == 3
/-- The posted operations of a party that are not acknowledged (R192). -/
def State.outstanding (s : State) (p : Party) : List Packet := s.unacked.filter (·.party == p)
/-- Whether an instruction is a long-vector access. -/
def Instr.isLongAccess : Instr → Bool
  | .vldW .. => true
  | .vstW .. => true
  | _ => false
/-- The long-vector accesses that a strand has queued (R95). -/
def State.longQueuedOf (s : State) (st : Strand) : List SeqItem :=
  let u := tget (s.tl st.tile).long st.core {}
  if u.owner == some st.sid && !st.isCtl then (u.q.map (·.item)).filter (fun i => Instr.isLongAccess i.op) else []
/-- Those of the issuing strand. -/
def State.longQueued (s : State) : List SeqItem := s.longQueuedOf s.x.me
/-- A posted long-vector store (R263). -/
def Packet.longPost (k : Packet) : Bool :=
  match k.body with
  | .post (.store _ n _ _) => n == 256
  | _ => false
/-- A strand's long-vector accesses are not all performed (R90, R258). -/
def State.longBusy (s : State) (st : Strand) : Bool :=
  !(s.longQueuedOf st).isEmpty || (s.outstanding st.party).any Packet.longPost
/-- A release's wait has ended for a strand: earlier long-vector accesses are performed, and posted operations and commands
within the scope are acknowledged (R90). -/
def State.drainedOf (s : State) (st : Strand) (scope : BitVec 2) : Bool :=
  !s.longBusy st && (s.outstanding st.party).all (fun k => !inScope scope st.tile k.dst)
    && s.cmds.all (fun c => st.isCtl || c.sid != st.sid || c.eng == .message || !inScope scope st.tile c.exTile)
/-- That of the issuing strand. -/
def State.drained (s : State) (scope : BitVec 2) : Bool := s.drainedOf s.x.me scope
/-- Waits as FENCE; then the first failed posted operation since the last report is raised, once (R193, R404). -/
def State.withFence (s : State) (scope : BitVec 2) (k : State → State) : State :=
  if !s.drained scope then s.park (.acks scope.toNat)
  else match s.x.me.fail with
    | some (c, a) => (s.upd (fun st => { st with fail := none })).trapFail c a
    | none => k s
/-- A PUT, whose writes are posted operations of its strand (R83), has not written everything. -/
def Cmd.putting (c : Cmd) : Bool := match c.op with | .put .. => c.st == .held | _ => false
/-- Every posted operation of a strand is acknowledged, and no command of it still sits in a core queue (R29, R87). -/
def State.postsDone (s : State) (st : Strand) : Bool :=
  (s.outstanding st.party).isEmpty
    && s.cmds.all (fun c => st.isCtl || c.sid != st.sid || (c.st != .queued && !c.putting))
/-- R87 and R29 are met for a strand: every posted operation is acknowledged, no long-vector access is queued, and no
command still sits in a core queue. -/
def State.mayLeave (s : State) (st : Strand) : Bool := s.postsDone st && (s.longQueuedOf st).isEmpty
/-- The limits of R192 leave a party of a tile room for one more posted operation: 32 of a strand, and 512 in the tile's
retransmit buffer. -/
def State.postRoom (s : State) (p : Party) (t : Nat) : Bool :=
  (match p with | .cmd _ => true | _ => (s.outstanding p).length < 32) && (s.unacked.filter (·.src == t)).length < 512

/-! ### Packets (R82, R388 to R393) -/

/-- The next sequence number of a party at a home. -/
def seqGet (l : List ((Party × Nat) × Nat)) (p : Party) (d : Nat) : Nat :=
  match l.find? (fun e => e.1 == (p, d)) with
  | some e => e.2
  | none => 0
/-- The next sequence number of a party at a home becomes n. -/
def seqPut (l : List ((Party × Nat) × Nat)) (p : Party) (d n : Nat) : List ((Party × Nat) × Nat) :=
  ((p, d), n) :: l.filter (fun e => e.1 != (p, d))
/-- The flits of a packet: three for a context, ceil((32 + LEN) / 64) for a message; one otherwise (R388; only whether any
flit is injected shows, R246). -/
def Body.flits : Body → Nat
  | .context _ _ => 3
  | .post (.msg m) => ceilDiv (32 + m.len) 64
  | _ => 1
/-- Adds 1 to an entry of a list of counts. -/
def inc1 (l : List Nat) (i : Nat) : List Nat := l.set i (l.getD i 0 + 1)
/-- Whether a packet counts in SENT and RCVD: it goes from a tile to a tile, and is no controller's (R435; log 65). -/
def Packet.counts (k : Packet) : Bool :=
  k.src < 16384 && k.dst < 16384 && k.cls < 3 && (match k.party with | .ctl _ _ => false | _ => true)
    && (match k.body with | .slice _ => false | _ => true)
/-- A packet is injected for the first time (R435). -/
def State.countSent (s : State) (k : Packet) : State :=
  if k.counts then s.updTl k.src (fun x => { x with sent := inc1 x.sent k.want }) else s
/-- Flits injected count for mode B, which is frozen unless the pasture is RUNNING (R246, R425). -/
def State.countFlits (s : State) (p n : Nat) : State :=
  s.updPas p (fun q => if q.st == .running then { q with flits := q.flits + n } else q)
/-- A packet enters the mesh: a class-0 request uses the token, or travels as class 1 for this journey and is counted (R392);
its flits count for mode B (R246). -/
def State.journey (s : State) (k : Packet) : State :=
  let demote := k.want = 0 && !(s.tl k.src).token
  let k := { k with cls := if demote then 1 else k.want }
  let s := if demote then s.bump k.src (0x1000 + 64) 1 else s
  let s := if k.cls = 0 then s.updTl k.src (fun x => { x with token := false }) else s
  let s := s.countFlits k.pasture k.body.flits
  { s with mesh := s.mesh ++ [k] }
/-- A packet's first injection. -/
def State.inject (s : State) (k : Packet) : State := (s.countSent k).journey k
/-- Sends a request that is not a posted operation, for a party; key: the access of a command that it makes; stays: it goes to a
retired tile itself, not to its replacement. -/
def State.send (s : State) (p : Party) (src dst pasture cls : Nat) (b : Body) (key : Nat := 0) (stays : Bool := false) : State :=
  let (n, s) := s.fresh
  s.inject { id := n, party := p, src := src, dst := if dst < 16384 && !stays then (s.pas pasture).forward dst else dst,
             pasture := pasture, cls := cls, want := cls, key := key, body := b }
/-- Sends a reply: it uses no token (R392) and travels in the class of its request (R391). -/
def State.reply (s : State) (p : Party) (src dst pasture cls : Nat) (b : Body) (key : Nat := 0) : State :=
  let (n, s) := s.fresh
  let k : Packet := { id := n, party := p, src := src, dst := dst, pasture := pasture, cls := cls, want := cls, key := key, body := b }
  let s := (s.countSent k).countFlits pasture b.flits
  { s with mesh := s.mesh ++ [k] }
/-- The stamp of an operation that carries one: the sender's pasture time at its first injection (R394). -/
def Post.stamped (o : Post) (t : Nat) : Post :=
  match o with
  | .msg m => .msg { m with stamp := t }
  | .event m => .event { m with stamp := t }
  | .wake sid slot gen tgt _ => .wake sid slot gen tgt t
  | .haltt sid slot gen tgt _ => .haltt sid slot gen tgt t
  | .insp sid slot gen _ buf => .insp sid slot gen t buf
  | o => o
/-- A packet with its stamp. -/
def Packet.stamped (k : Packet) (t : Nat) : Packet :=
  match k.body with
  | .post o => { k with body := .post (o.stamped t) }
  | _ => k
/-- The first injection of a posted operation that waited for it, with its stamp; the retransmit buffer holds the same packet. -/
def State.launch (s : State) (k : Packet) : State :=
  let k := k.stamped (s.pasTime k.pasture k.src)
  ({ s with unacked := lupd (·.id == k.id) (fun _ => k) s.unacked }).inject k
/-- An earlier posted operation of the same party to the same home is not acknowledged. -/
def State.behindPost (s : State) (k : Packet) : Bool :=
  s.unacked.any (fun u => u.party == k.party && u.dst == k.dst && u.seq < k.seq)
/-- A posted operation of a party: numbered per home (R82), stamped, and kept in the retransmit buffer (R192). -/
def State.numberPost (s : State) (p : Party) (src dst pasture cls : Nat) (o : Post) (key : Nat) : Packet × State :=
  let (n, s) := s.fresh
  let dst := if dst < 16384 then (s.pas pasture).forward dst else dst
  let q := seqGet s.seqNext p dst
  let k : Packet := { id := n, party := p, src := src, dst := dst, pasture := pasture, seq := q, cls := cls, want := cls, key := key
                      body := .post (o.stamped (s.pasTime pasture src)) }
  (k, { s with unacked := s.unacked ++ [k], seqNext := seqPut s.seqNext p dst (q + 1) })
/-- Sends a posted operation of a party. One of class 0 is injected only once the party's earlier ones to the same tile are
accepted (R393). -/
def State.sendPost (s : State) (p : Party) (src dst pasture cls : Nat) (o : Post) (key : Nat := 0) : State :=
  let (k, s) := s.numberPost p src dst pasture cls o key
  if k.want = 0 && s.behindPost k then { s with waiting := s.waiting ++ [k] } else s.inject k
/-- The first class-0 operation that waited for its turn to be injected goes, if its turn has come (R393). -/
def State.launchNext (s : State) (p : Party) (dst : Nat) : State :=
  match s.waiting.find? (fun k => k.party == p && k.dst == dst && k.want = 0 && !s.behindPost k) with
  | some k => ({ s with waiting := ldel (·.id == k.id) s.waiting }).launch k
  | none => s
/-- The destination number of a home for a pasture: host memory is reached through port PNUM mod 4 (R447). -/
def destOf (p : Nat) : Home → Nat
  | .tile t => t
  | .device d => 32768 + d
  | .host => 16384 + p % 4
  | .control => 16384
/-- The pasture of the issuing agent: a controller's is the one SV_ASP names. -/
def State.myPasture (s : State) : Nat := if s.x.me.isCtl then s.sv.asp.toNat else s.x.me.pasture
/-- The issuing agent posts an operation, once it has fewer than 32 outstanding and its tile's retransmit buffer has room
(R192). -/
def State.postOp (s : State) (dst cls : Nat) (o : Post) (k : State → State) : State :=
  if !s.postRoom s.x.me.party s.here then s.park (.acks 4)
  else k (s.sendPost s.x.me.party s.here dst s.myPasture cls o)

/-! ### Control space (R215, R435) -/

/-- Whether the engine of a counter is accepted (R442): an absent engine's counters read 0. -/
def State.ctrOffered (s : State) (off : Nat) : Bool :=
  !s.committed ||
    (if 0x400 ≤ off && off < 0x500 then s.feat2.getLsbD 0
     else if 0x500 ≤ off && off < 0x600 then s.feat2.getLsbD 0 && s.feat2.getLsbD 1
     else if 0xE00 ≤ off && off < 0xF00 then s.feat2.getLsbD 2
     else if 0xF00 ≤ off && off < 0x1000 then s.feat2.getLsbD 3 else true)
/-- The counters of a tile that count cycles: BTFULL, CPYPERMW, SELWAIT and FPARK (R291, R305, R361, R384). -/
def cycleCounter (off : Nat) : Bool := [0x230, 0x328, 0xE28, 0xF48].contains off
/-- A counter as it is read: one that counts cycles is 0 until there may have been one to count, which its stored value marks, and
then a free value (log 7). -/
def State.ctrRead (s : State) (t off : Nat) : Nat :=
  if cycleCounter off && s.ctr t off != 0 then (Config.cycleCount t off s.free).toNat else (s.ctr t off).toNat
/-- The 256-bit image of a step-cache entry (R332). -/
def ScEntry.image (e : ScEntry) : Nat :=
  if !e.v then 0
  else e.btag + e.step * 2 ^ 32 + (e.k - 1) * 2 ^ 64 + (e.n - 1) * 2 ^ 74 + (e.m - 1) * 2 ^ 84 + e.gen * 2 ^ 96
    + e.img * 2 ^ 112 + (if e.sc then 2 ^ 121 else 0) + e.afmt * 2 ^ 122 + 2 ^ 127 + e.sca.toNat * 2 ^ 128
    + e.scb.toNat * 2 ^ 160 + e.iptr * 2 ^ 192
/-- One 64-bit word of a tile's control space, at an offset that is a multiple of 8. -/
def State.tileReg (s : State) (t off : Nat) : Nat :=
  let x := s.tl t
  if 0x600 ≤ off && off < 0xE00 then
    (tget x.sc ((off - 0x600) / 32) {}).image / 2 ^ (8 * (off % 32)) % 2 ^ 64
  else if 0x100 ≤ off && off < 0x1100 then (if s.ctrOffered off then s.ctrRead t off else 0)
  else if off = 0x1100 then x.tstop
  else if 0x1108 ≤ off && off < 0x1120 then x.stopSent.getD ((off - 0x1108) / 8) 0
  else if 0x1120 ≤ off && off < 0x1138 then x.stopRcvd.getD ((off - 0x1120) / 8) 0
  else if 0x1140 ≤ off && off < 0x1540 then
    match x.stopSlots.find? (fun e => e.1 == (off - 0x1140) / 16) with
    | some (_, sid, st) => if off % 16 = 0 then sid.toNat else st
    | none => 0
  else if off = 0x1600 then x.spillbase.toNat
  else if off = 0x1608 then x.spillblk.getD ((s.pasOfTile t).elim 0 (fun p => (s.pas p).pcb.spillblk))
  else if off = 0x1610 then x.foldbase.toNat
  else 0
/-- One 64-bit word of the control space of a paddock's controllers. -/
def State.ctlReg (s : State) (p off : Nat) : Nat :=
  if off < 2 ^ 20 then s.rd (sramKey p off) 8
  else if off = 0x100000 then (s.pad p).share
  else if off = 0x100008 then (s.pad p).caps
  else 0
/-- One 64-bit word of control space as a party of a paddock reaches it. -/
def State.ctlWord (s : State) (paddock pa : Nat) : Nat :=
  let off := nfield pa 0 29
  if nfield pa 29 13 = 0x1FFF then s.ctlReg paddock off else s.tileReg (nfield pa 29 13) off
/-- The bytes of an aligned access of up to 8 bytes to control space. -/
def State.readControl (s : State) (paddock pa n : Nat) : Nat :=
  s.ctlWord paddock (pa / 8 * 8) / 2 ^ (8 * (pa % 8)) % 2 ^ (8 * n)
/-- Sets a paddock's power share, unless the shares of all paddocks would exceed 3,000 W (R19). -/
def State.setShare (s : State) (p v : Nat) : State :=
  let others := ((List.range Config.paddocks).filter (· != p)).foldl (fun a q => a + (s.pad q).share) 0
  if others + v ≤ 3000 then s.updPad p (fun d => { d with share := v }) else s
/-- The spill settings of a tile may still be written: no class of its pasture has been opened (R367). -/
def State.spillFree (s : State) (t : Nat) : Bool := (s.pasOfTile t).all (fun p => !(s.pas p).everOpen)
/-- An address in a tile's own DRAM. -/
def State.ownDram (s : State) (t v : Nat) : Bool := v < 2 ^ 56 && s.homeOf v == .tile t && isDram (localOf v)
/-- A value that SPILLBASE takes: it lies in the tile's own DRAM, aligned to 4 KiB (R367). -/
def State.spillBaseOk (s : State) (t v : Nat) : Bool := v % 4096 == 0 && s.ownDram t v
/-- Writes SPILLBASE or SPILLBLK of a tile; a setting outside its limits is refused (R367, R422). -/
def State.putSpill (s : State) (t v : Nat) (blk : Bool) : State :=
  if !s.spillFree t then s
  else if blk then (if v < 65536 then s.updTl t (fun x => { x with spillblk := some v }) else s)
  else if s.spillBaseOk t v then s.updTl t (fun x => { x with spillbase := wd v })
  else s
/-- Writes one 64-bit word of control space; read-only and unlisted offsets ignore it (R9, R435). -/
def State.putCtlWord (s : State) (paddock pa v : Nat) : State :=
  let off := nfield pa 0 29
  let t := nfield pa 29 13
  if t = 0x1FFF then
    if off < 2 ^ 20 then s.poke (sramKey paddock off) (leBytes 8 v)
    else if off = 0x100000 then s.setShare paddock (v % 2 ^ 32)
    else s
  else if off = 0x1600 then s.putSpill t v false
  else if off = 0x1608 then s.putSpill t v true
  else if off = 0x1610 then (if s.ownDram t v then s.updTl t (fun x => { x with foldbase := wd v }) else s)
  else s
/-- A write of up to 8 aligned bytes to control space. -/
def State.writeControl (s : State) (paddock pa n v : Nat) : State :=
  let old := s.ctlWord paddock (pa / 8 * 8)
  let sh := 8 * (pa % 8)
  let keep := old % 2 ^ sh + old / 2 ^ (sh + 8 * n) * 2 ^ (sh + 8 * n)
  s.putCtlWord paddock (pa / 8 * 8) (keep + v % 2 ^ (8 * n) * 2 ^ sh)

/-! ### Local accesses -/

/-- Whether a home tile is the one the issuing strand stands on; a controller core stands on none (R418). -/
def State.isHere (s : State) (t : Nat) : Bool := !s.x.me.isCtl && t == s.here
/-- An installed bank command holds the access (R287), or the strand's own command that is not yet installed does (R100). -/
def State.bankHolds (s : State) (a n : Nat) : Bool :=
  s.cmds.any (fun c => c.eng == .bank && shareWord a n c.lo c.hi
    && (c.st == .held || (c.sid == s.x.me.sid && !s.x.me.isCtl && (c.st == .queued || c.st == .sent || c.st == .arrived))))
/-- The access overlaps a long-vector access that the strand has queued (R95). -/
def State.seqHolds (s : State) (pa n : Nat) : Bool :=
  s.longQueued.any (fun i => i.pas.any (fun w => w < pa + n && pa < w + 8))
/-- Where the C slot notes the access for which it was last counted as held by a bank entry. -/
def heldKey : Nat := 106
/-- The strand waits behind a bank entry, and the access is counted once (R291); or for a bank command of its own that is not yet
installed, which is no entry (R100). -/
def State.parkBank (s : State) (key n : Nat) : State :=
  (if s.bankHeld key n && s.noted heldKey != some key then (s.bumpHeld key).note heldKey key else s).park .bank
/-- The waits of a local access within one unit, then the access. -/
def State.withLocal (s : State) (pa n : Nat) (k : State → State) : State :=
  if s.seqHolds pa n then s.park .seq
  else if s.bankHolds (localOf pa) n then s.parkBank (localOf pa) n
  else k s

/-! ### What a waiting C slot has already read or done (R12, R53; log 63) -/

/-- Whether a place of the log holds data that have been read or something that has been done: not a translation, which a TLBINV
makes the C slot do again (R179). -/
def memoData (k : Nat) : Bool := k < 256 || [257, 261, 263].contains k || (320 ≤ k && k < 0x1100)
/-- Goes on with a result that the C slot has noted, or makes it and notes it. -/
def State.once (s : State) (key : Nat) (make : State → (State → Nat → State) → State) (k : State → Nat → State) : State :=
  match s.noted key with
  | some v => k s v
  | none => make s (fun s v => k (s.note key v) v)

/-! ### Vector accesses: separate words of 8 bytes, in no fixed order (R81, R287) -/

/-- The words of an access of n words at a local address that can be performed now: not performed yet, among those the schedule
picks, and not held by an installed bank command. -/
def State.freeWords (s : State) (key n : Nat) (log : Tbl Nat) (only : List Nat) : List Nat :=
  (List.range n).filter (fun i =>
    (tfind log i).isNone && (only.isEmpty || only.contains i) && !s.bankHeld (key + 8 * i) 8)
/-- Performs those words: written from v, or read into the log. -/
def State.doWords (s : State) (key n : Nat) (log : Tbl Nat) (only : List Nat) (v : Option Nat) : Tbl Nat × State :=
  (s.freeWords key n log only).foldl (fun (a : Tbl Nat × State) i =>
    match v with
    | some v => (tset a.1 i 0, a.2.st (key + 8 * i) 8 (elem v 64 i))
    | none => (tset a.1 i (a.2.rd (key + 8 * i) 8), a.2.correct (key + 8 * i) 8)) (log, s)
/-- Every word is performed. -/
def allWords (n : Nat) (log : Tbl Nat) : Bool := (List.range n).all (fun i => (tfind log i).isSome)
/-- The words that were read, as one number. -/
def wordsVal (n : Nat) (log : Tbl Nat) : Nat := packElems 64 ((List.range n).map (fun i => tget log i 0))
/-- The issuing strand's own command that is not yet installed holds the access (R100). -/
def State.ownHolds (s : State) (a n : Nat) : Bool :=
  s.cmds.any (fun c => c.eng == .bank && shareWord a n c.lo c.hi
    && c.sid == s.x.me.sid && !s.x.me.isCtl && (c.st == .queued || c.st == .sent || c.st == .arrived))
/-- A local vector access of n words of the issuing strand: a read, or a write of v. Words behind a bank entry, and those the
schedule leaves for later, are performed when the C slot tries again. -/
def State.withWords (s : State) (addr : Word) (pa n : Nat) (v : Option Nat) (k : State → Nat → State) : State :=
  let key := localOf pa
  if s.seqHolds pa (8 * n) then s.park .seq
  else if s.ownHolds key (8 * n) then s.parkBank key (8 * n)
  else if v.isNone && s.badAt key (8 * n) then
    (s.bump (tileOf key) (0x100 + 8 * 12) 1).trapC cMemerr addr
  else
    let (log, s) := s.doWords key n s.x.log s.x.only v
    let s := { s with x := { s.x with log := log } }
    if allWords n log then k s (wordsVal n log)
    else s.parkBank key (8 * n)
/-- Reads words of the issuing tile, each with its virtual and physical address, each by itself and once (R81, R287): the first is
noted at place base. They come after a queued long-vector access that shares one (R95); k receives them as a number. -/
def State.readEach (s : State) (base : Nat) (ws : List (Word × Nat)) (k : State → Nat → State) : State :=
  let key (x : (Word × Nat) × Nat) : Nat := localOf x.1.2
  let left := ws.zipIdx.filter (fun x => (s.noted (base + x.2)).isNone)
  if left.any (fun x => s.seqHolds x.1.2 8) then s.park .seq
  else match left.find? (fun x => !s.bankHolds (key x) 8 && s.badAt (key x) 8) with
    | some x => (s.bump (tileOf (key x)) (0x100 + 8 * 12) 1).trapC cMemerr x.1.1
    | none =>
      let s := (left.filter (fun x => !s.bankHolds (key x) 8)).foldl (fun s x =>
        (s.correct (key x) 8).note (base + x.2) (s.rd (key x) 8)) s
      match left.find? (fun x => s.bankHolds (key x) 8) with
      | some x => s.parkBank (key x) 8
      | none => k s (packElems 64 ((List.range ws.length).map (fun i => (s.noted (base + i)).getD 0)))
/-- The words of a record of n bytes, a multiple of 8, that lies in one page. -/
def recWords (va : Word) (pa n : Nat) : List (Word × Nat) := (List.range (n / 8)).map (fun i => (va + wd (8 * i), pa + 8 * i))
/-- An uncorrectable error met by the issuing strand's own access: MEMERR with the address (R214), counted. -/
def State.memErr (s : State) (addr : Word) (key : Nat) : State :=
  (s.bump (tileOf key) (0x100 + 8 * 12) 1).trapC cMemerr addr

/-! ### Routing (R181, R198) -/

/-- An access that needs the strand's tile: it may not leave while it holds a reservation (R198). -/
def State.leaving (s : State) (addr : Word) (k : State → State) : State :=
  if s.x.me.rsv then s.trapC cRsvLeave addr else k s
/-- Migration, or what a pinned strand does instead (R26, R181). -/
def State.moveOr (s : State) (t : Nat) (pinned : State → State) : State :=
  if s.x.me.pinned then pinned s else s.park (.depart t)
/-- A plain read of n bytes, translated: local, by migration or by pinned fetch. pinnedOnly: LDP, which never migrates. -/
def State.readOp (s : State) (addr : Word) (pa n : Nat) (pinnedOnly : Bool) (r : Req) (k : State → Nat → State) : State :=
  match s.homeOf pa with
  | .control => k { s with free := s.free + 1 } (s.readControl (paddockOf s.here) pa n)
  | .tile t =>
    if s.isHere t then
      s.withLocal pa n (fun s =>
        if s.badAt (localOf pa) n then s.memErr addr (localOf pa)
        else k (s.correct (localOf pa) n) (s.rd (localOf pa) n))
    else s.leaving addr (fun s =>
      if pinnedOnly then s.park (.fetch addr pa r) else s.moveOr t (fun s => s.park (.fetch addr pa r)))
  | _ => s.leaving addr (fun s => s.park (.fetch addr pa r))
/-- A write of n bytes of a number, translated: local or posted. A store of less than a word reads the word (R214). -/
def State.writeOp (s : State) (addr : Word) (pa n v : Nat) (k : State → State) : State :=
  match s.homeOf pa with
  | .control => k (s.writeControl (paddockOf s.here) pa n v)
  | .tile t =>
    if s.isHere t then
      s.withLocal pa n (fun s =>
        if n % 8 != 0 && s.badAt (localOf pa) n then s.memErr addr (localOf pa) else k (s.stWord (localOf pa) n v))
    else s.leaving addr (fun s =>
      if s.seqHolds pa n then s.park .seq
      else if s.ownHolds (localOf pa) n then s.parkBank (localOf pa) n
      else s.postOp t 1 (.store (localOf pa) n (BitVec.ofNat 2048 v) addr) k)
  | h => s.leaving addr (fun s =>
      if s.seqHolds pa n then s.park .seq
      else s.postOp (destOf s.myPasture h) 1 (.store (localOf pa) n (BitVec.ofNat 2048 v) addr) k)

/-! ### Strands outside the issue latch -/

/-- Puts a context back into the tables. -/
def State.checkIn (s : State) (st : Strand) (gone : Bool) : State :=
  match st.place with
  | .ctl p c => s.updCtl p c (fun k => { k with ctx := st })
  | _ =>
    if gone then { s with strands := ldel (fun x => x.sid == st.sid) s.strands }
    else s.onStrand st.sid (fun _ => st)
/-- A latch that holds a context outside its own issue: what its waiting bundle has done, read and fetched. -/
def latchOf (st : Strand) : Latch :=
  match st.pend with
  | some p => { me := st, src := { st with g := p.g, v := p.v }, aDone := st.cOnly, w0 := p.w0, w1 := p.w1, got := true
                log := p.log }
  | none => { me := st, src := st, aDone := st.cOnly }
/-- Runs an operation of the issuing agent for a strand of the tables, with its bundle's A slot done as its mark says. -/
def State.asStrand (s : State) (sid : Word) (f : State → State) : State :=
  match s.strandOf sid with
  | none => s
  | some st =>
    let s' := f { s with x := latchOf st }
    { (s'.checkIn s'.x.me s'.x.gone) with x := s.x }
/-- The same for a controller core. -/
def State.asCtl (s : State) (p c : Nat) (f : State → State) : State :=
  let s' := f { s with x := latchOf (s.ctl p c).ctx }
  { (s'.checkIn s'.x.me false) with x := s.x }

end Sys2Proof.Machine
end

