-- ==== Sys2Proof/Machine/Operands.lean ====
section
/-! DEFINITION. Operand forms: what a bundle's slots name as destinations (R54), which instructions an agent may execute
(R60, R61, R418, R442), effective addresses (R63), sizes (R65), conditions (R58), element types (R69, R249). -/

namespace Sys2Proof.Machine

open Sys2Proof

/-! ### Destinations (R54) -/

/-- What a slot writes, for the check of R54. -/
inductive Dest where
  | g (r : RegNo)
  | v (r : RegNo)
  | w (r : RegNo)
  | csr (n : BitVec 8)
  deriving DecidableEq, Repr

/-- A general-register destination; g0 is never a conflict. -/
def destG (r : RegNo) : Option Dest := if r = 0 then none else some (.g r)
/-- A vector-register destination of a class. -/
def destV (long : Bool) (r : RegNo) : Option Dest := some (if long then .w r else .v r)

/-- The destination a C-slot instruction names. -/
def destC : Instr → Option Dest
  | .csrr d _ => destG d
  | .csrw _ c => some (.csr c)
  | .time d => destG d
  | .homeof d _ => destG d
  | .lea d _ _ => destG d
  | .call _ => destG 15
  | .brl d _ _ => destG d
  | .ld d _ _ _ => destG d
  | .ldp d _ _ _ => destG d
  | .ldAcq d _ _ _ => destG d
  | .ldfe d _ _ => destG d
  | .ldff d _ _ => destG d
  | .lrw d _ _ => destG d
  | .amor d _ _ _ _ => destG d
  | .cas d _ _ _ => destG d
  | .spawn d _ => destG d
  | .spawnw d _ => destG d
  | .sliceinfo d _ => destG d
  | .vldV d _ _ => destV false d
  | .vldW d _ _ => destV true d
  | .cpystat d _ => destG d
  | .mxstat d _ => destG d
  | .scstat d _ => destG d
  | .fpop d _ => destG d
  | .ffloor d => destG d
  | .fstat d _ => destG d
  | .mwait d _ => destG d
  | .mprobe d _ => destG d
  | .resume | .kill | .hold | .go | .drain | .reset | .create | .destroy | .qctl | .post | .shrink | .lost => destG 1
  | _ => none

/-- The destination an A-slot instruction names. -/
def destA : Instr → Option Dest
  | .add d _ _ | .sub d _ _ | .and d _ _ | .or d _ _ | .xor d _ _ | .andn d _ _ | .shl d _ _ | .shr d _ _ | .sra d _ _
  | .rot d _ _ | .mul d _ _ | .mulh d _ _ | .mulhn d _ _ | .min d _ _ | .max d _ _ | .minn d _ _ | .maxn d _ _
  | .slt d _ _ | .sltn d _ _ | .seq d _ _ | .div d _ _ | .divn d _ _ | .rem d _ _ | .remn d _ _ => destG d
  | .clz d _ | .ctz d _ | .popc d _ => destG d
  | .bext d _ _ _ | .bins d _ _ _ | .sel d _ _ _ => destG d
  | .addi d _ _ | .andi d _ _ | .ori d _ _ | .xori d _ _ | .shli d _ _ | .shri d _ _ | .srai d _ _ => destG d
  | .movi d _ => destG d
  | .fadd d _ _ _ _ | .fsub d _ _ _ _ | .fmul d _ _ _ _ | .ffma d _ _ _ _ | .fdiv d _ _ _ _ => destG d
  | .fmin d _ _ _ | .fmax d _ _ _ | .fsgn d _ _ _ | .fsgnn d _ _ _ | .fsgnx d _ _ _ | .fsqrt d _ _ _ => destG d
  | .fcmp d _ _ _ _ | .fcvt d _ _ _ _ _ => destG d
  | .vadd l d _ _ _ _ _ | .vsub l d _ _ _ _ _ | .vmul l d _ _ _ _ _ | .vmin l d _ _ _ _ _ | .vmax l d _ _ _ _ _
  | .vfma l d _ _ _ _ _ | .vfms l d _ _ _ _ _ | .vand l d _ _ _ _ _ | .vor l d _ _ _ _ _ | .vxor l d _ _ _ _ _
  | .vshl l d _ _ _ _ _ | .vshr l d _ _ _ _ _ | .vsel l d _ _ _ _ _ | .vperm l d _ _ _ _ _ | .vdotIp l d _ _ _ _ _
  | .vdotCos l d _ _ _ _ _ | .vdotCosn l d _ _ _ _ _ | .vdotL2 l d _ _ _ _ _ | .vrcpn l d _ _ _ _ _
  | .vrsqn l d _ _ _ _ _ | .vcvt l d _ _ _ _ _ | .vpack l d _ _ _ _ _ _ | .vunpack l d _ _ _ _ _ => destV l d
  | .vcmp l d _ _ _ _ _ _ => destV l d
  | .vabs l d _ _ _ | .vneg l d _ _ _ | .vbcast l d _ _ _ | .vredAdd l d _ _ _ | .vredMin l d _ _ _ | .vredMax l d _ _ _
  | .vrcp l d _ _ _ | .vrsq l d _ _ _ | .vexp2 l d _ _ _ | .vlog2 l d _ _ _ => destV l d
  | .vscale l d _ _ _ _ => destV l d
  | .vext _ d _ _ _ _ => destG d
  | _ => none

/-- Both slots name the same destination register (R54). -/
def conflict (c a : Instr) : Bool := (destC c).isSome && destC c == destA a

/-! ### Who may execute what -/

/-- C-slot instructions that a controller core executes (R418): majors 0x00 to 0x12 with its exceptions, 0x14, 0x15 without
MIG, PIN and UNPIN, 0x32, and the long opcodes but VLOOP. -/
def ctlInstr : Instr → Bool
  | .nopC | .csrr .. | .csrw .. | .time .. | .trap .. | .jr .. | .ret | .homeof .. | .lea .. | .br .. | .call .. | .brc ..
  | .cmps .. | .cmpsi .. | .brl .. | .ld .. | .st .. | .ldp .. | .ldAcq .. | .stRel .. | .amop .. | .amoz .. | .amor ..
  | .cas .. | .ccwait .. | .ccset .. | .fence .. | .discard .. | .pref .. | .mint .. | .tlbinv .. | .gstop .. | .ctxld ..
  | .ctxst .. | .sret | .resume | .kill | .hold | .go | .drain | .reset | .create | .destroy | .qctl | .post | .shrink
  | .lost | .liw .. | .lih .. | .brLong .. | .calll .. | .leaLong .. | .ccwaitLong .. => true
  | _ => false
/-- A-slot instructions of majors 0x00 to 0x17: none that names a vector register. -/
def ctlInstrA (a : Instr) : Bool :=
  match a, destA a with
  | .vext .., _ => false
  | _, some (.v _) => false
  | _, some (.w _) => false
  | _, _ => true
/-- The full type code of an ety that is a type 7 or D8 feature (R442): E2M1 is bit 6, D8 is bit 5. -/
def tyOffered (f : BitVec 32) (code : Nat) : Bool := if code = 7 then f.getLsbD 6 else if code = 6 then f.getLsbD 5 else true
/-- An ety field of an A-slot vector instruction; 7 is the integer type there. -/
def etyOffered (f : BitVec 32) (e : BitVec 3) : Bool := e.toNat != 6 || f.getLsbD 5
/-- The class and types of a vector instruction are accepted features (R442). -/
def vecOffered (f : BitVec 32) : Instr → Bool
  | .vadd l _ _ _ _ e _ | .vsub l _ _ _ _ e _ | .vmul l _ _ _ _ e _ | .vmin l _ _ _ _ e _ | .vmax l _ _ _ _ e _
  | .vfma l _ _ _ _ e _ | .vfms l _ _ _ _ e _ | .vand l _ _ _ _ e _ | .vor l _ _ _ _ e _ | .vxor l _ _ _ _ e _
  | .vshl l _ _ _ _ e _ | .vshr l _ _ _ _ e _ | .vsel l _ _ _ _ e _ | .vperm l _ _ _ _ e _ | .vdotIp l _ _ _ _ e _
  | .vdotCos l _ _ _ _ e _ | .vdotCosn l _ _ _ _ e _ | .vdotL2 l _ _ _ _ e _ | .vrcpn l _ _ _ _ e _
  | .vrsqn l _ _ _ _ e _ => (!l || f.getLsbD 4) && etyOffered f e
  | .vcmp l _ _ _ _ e _ _ => (!l || f.getLsbD 4) && etyOffered f e
  | .vabs l _ _ _ e | .vneg l _ _ _ e | .vbcast l _ _ _ e | .vredAdd l _ _ _ e | .vredMin l _ _ _ e | .vredMax l _ _ _ e
  | .vrcp l _ _ _ e | .vrsq l _ _ _ e | .vexp2 l _ _ _ e | .vlog2 l _ _ _ e => (!l || f.getLsbD 4) && etyOffered f e
  | .vext l _ _ _ _ e => (!l || f.getLsbD 4) && etyOffered f e
  | .vcvt l _ _ x _ _ y => (!l || f.getLsbD 4) && tyOffered f x.toNat && tyOffered f y.toNat
  | .vpack l _ _ _ _ e _ y => (!l || f.getLsbD 4) && etyOffered f e && tyOffered f y.toNat
  | .vunpack l _ _ _ _ e y => (!l || f.getLsbD 4) && etyOffered f e && tyOffered f y.toNat
  | .vscale l _ _ _ _ y => (!l || f.getLsbD 4) && tyOffered f y.toNat
  | .vldW .. | .vstW .. | .vmodeLong | .vloop .. | .vloopLong .. => f.getLsbD 4
  | .mxldb .. | .mxrun .. | .mxdrain .. | .mxwait .. | .mxstat .. | .mxsend .. => f.getLsbD 0
  | .scset .. | .scinv .. | .scstat .. => f.getLsbD 0 && f.getLsbD 1
  | .selopen .. | .selpush .. | .selemit .. | .selreset => f.getLsbD 2
  | .fpush .. | .fpushRel .. | .fpop .. | .fdone | .ffloor .. | .fstat .. => f.getLsbD 3
  | _ => true
/-- Whether an accepted instruction may be executed by the issuing agent at all; otherwise it is ILLEGAL. Before the commit
every feature stands offered (R443). -/
def State.permits (s : State) (slotA : Bool) (i : Instr) : Bool :=
  (!s.x.me.isCtl || (if slotA then ctlInstrA i else ctlInstr i)) && (!s.committed || vecOffered s.feat2 i)

/-! ### Addresses, sizes, conditions -/

/-- Bytes of a CM access size (R65). -/
def clsBytes (c : BitVec 3) : Nat := match c.toNat with | 0 | 4 => 1 | 1 | 5 => 2 | 2 | 6 => 4 | _ => 8
/-- The value a load writes, from the bytes read (R65, R191). -/
def loadVal (c : BitVec 3) (v : Nat) : Word :=
  match c.toNat with
  | 0 => (BitVec.ofNat 8 v).signExtend 64
  | 1 => (BitVec.ofNat 16 v).signExtend 64
  | 2 => (BitVec.ofNat 32 v).signExtend 64
  | _ => wd v
/-- The effective address of a CM or CMS access (R63). -/
def State.ea {n : Nat} (s : State) (a : RegNo) (i : BitVec n) (size : Nat) : Word := s.g a + sx i * wd size
/-- Bytes of a CR size field: W is 4, D is 8 (R47). -/
def szBytes (z : BitVec 2) : Nat := if z = 2 then 4 else 8
/-- A condition of R58 on 64 bits. -/
def cond (c : BitVec 3) (a b : Word) : Bool :=
  match c.toNat with
  | 0 => a == b
  | 1 => a != b
  | 2 => BitVec.slt a b
  | 3 => !BitVec.slt a b
  | 4 => BitVec.ult a b
  | 5 => !BitVec.ult a b
  | 6 => a &&& b != 0
  | _ => a &&& b == 0

/-! ### Results of A-slot instructions -/

/-- The turns a bundle takes (R144). -/
def State.takes (s : State) (n : Nat) : State := { s with x := { s.x with turns := n } }
/-- An integer A-slot instruction writes its result; it raises no flag and no trap (R155). -/
def intOp (d : RegNo) (v : Word) (s : State) : Out := .next (s.wg d v)

/-! ### Vector registers of the issuing strand (R48, R249) -/

/-- A short register as it stood before the bundle. -/
def State.vr (s : State) (r : RegNo) : VShort := s.x.src.v.toArray.getD r.toNat 0
/-- Writes a short register: SW.VLIVE becomes 1 (R252). -/
def State.wv (s : State) (r : RegNo) (x : VShort) : State :=
  s.upd (fun st => { (st.swSet 16 true) with v := st.v.setIfInBounds r.toNat x })
/-- The n elements of a register's bits. -/
def elems (x w n : Nat) : List Nat := (List.range n).map (elem x w)

end Sys2Proof.Machine
end

