-- ==== Sys2Proof/Machine/Flags.lean ====
section
/-! DEFINITION. Rounding mode, flush, and the flags of A-slot floating-point instructions with their trap (R53, R68, R116,
R120 to R122). -/

namespace Sys2Proof.Machine

open Sys2Proof

/-- The rounding mode that a context's SW.RM names (R51). -/
def Strand.rm (st : Strand) : Nat := nfield st.sw.toNat 10 3
/-- The rounding mode of a rounding field: code 7 takes SW.RM as it stood before the bundle (R53, R68). -/
def State.mode (s : State) (r : BitVec 3) : Nat := if r = 7 then s.x.src.rm else r.toNat
/-- Flush is in force for scalar and vector instructions (R116). -/
def State.ftz (s : State) : Bool := wbit s.x.src.sw 13
/-- The trap enables, in the bit order of the flags (R51). -/
def Strand.te (st : Strand) : Flags := (st.sw >>> 5).setWidth 5
/-- Flags ORed into SW.FLAGS (R51). -/
def Strand.orFlags (st : Strand) (f : Flags) : Strand := { st with sw := st.sw ||| zx f }
/-- The end of an A-slot floating-point instruction (R122): the trap FP where a raised flag is enabled, else the result and
the flags. -/
def State.withFlags (s : State) (f : Flags) (k : State → State) : State :=
  if f &&& s.x.src.te != 0 then s.trapAt true cFp (zx f)
  else
    let s := (k s).upd (fun st => st.orFlags f)
    { s with x := { s.x with aflags := s.x.aflags ||| f } }
/-- A floating-point result into a general register, with its flags (R160, R165). -/
def fpOp (d : RegNo) (r : FRes) (s : State) : Out := .next (s.withFlags r.fl (fun s => s.wg d (wd r.bits)))

end Sys2Proof.Machine
end

