-- ==== Sys2Proof/Machine/Memory.lean ====
section
/-! DEFINITION. Memory instructions (R90 to R92, R186 to R212): loads and stores, full/empty words, reservations, atomics,
completion counters, FENCE, migration and pinning, DISCARD and PREF. -/

namespace Sys2Proof.Machine

open Sys2Proof

/-! ### Loads and stores (R91, R92, R191) -/

/-- A load: translated, then performed locally, by migration or by pinned fetch. -/
def loadOp (pinnedOnly : Bool) (d a : RegNo) (z : BitVec 3) (i : BitVec 14) (s : State) : State :=
  let n := clsBytes z
  let ea := s.ea a i n
  s.withAligned ea n needR (fun s pa =>
    s.readOp ea pa n pinnedOnly (.load n (z.toNat < 3) d) (fun s v => (s.wg d (loadVal z v)).adv))
/-- LD (R191). -/
def execLd (d a : RegNo) (z : BitVec 3) (i : BitVec 14) (s : State) : Out := .next (loadOp false d a z i s)
/-- LDP (R191): never migrates. -/
def execLdp (d a : RegNo) (z : BitVec 3) (i : BitVec 14) (s : State) : Out := .next (loadOp true d a z i s)
/-- LD.ACQ (R92). -/
def execLdAcq (d a : RegNo) (z : BitVec 3) (i : BitVec 14) (s : State) : Out := .next (loadOp false d a z i s)
/-- ST (R191): the register is named in rd. -/
def execSt (d a : RegNo) (z : BitVec 3) (i : BitVec 14) (s : State) : Out :=
  let n := clsBytes z
  let ea := s.ea a i n
  .next (s.withAligned ea n needW (fun s pa => s.writeOp ea pa n (s.g d).toNat State.adv))
/-- Whether the issuing agent holds a reservation and the access needs another home: RSV_LEAVE, before any wait (R198). -/
def State.guardLeave (s : State) (addr : Word) (pa : Nat) (k : State → State) : State :=
  match s.homeOf pa with
  | .tile t => if s.isHere t then k s else s.leaving addr k
  | .control => k s
  | _ => s.leaving addr k
/-- ST.REL (R91). -/
def execStRel (d a : RegNo) (z : BitVec 3) (p : BitVec 2) (i : BitVec 12) (s : State) : Out :=
  let n := clsBytes z
  let ea := s.ea a i n
  .next (s.withAligned ea n needW (fun s pa => s.guardLeave ea pa (fun s =>
    s.withFence p (fun s => s.writeOp ea pa n (s.g d).toNat State.adv))))

/-! ### Accesses made at the home with the strand present (R181) -/

/-- A full/empty or reservation access: local, or by migration; PROT for a pinned strand and for other homes. The
continuation receives the local address. An uncorrectable error is met unless the whole word is rewritten (R214). -/
def State.atHome (s : State) (addr : Word) (pa : Nat) (whole : Bool) (k : State → Nat → State) : State :=
  let key := localOf pa
  match s.homeOf pa with
  | .tile t =>
    if s.isHere t then
      s.withLocal pa 8 (fun s => if !whole && s.badAt key 8 then s.memErr addr key else k (s.correct key 8) key)
    else s.leaving addr (fun s => s.moveOr t (fun s => s.trapC cProt addr))
  | _ => s.leaving addr (fun s => s.trapC cProt addr)

/-! ### Full/empty words (R194 to R196) -/

/-- A waiting access is appended to its word's wait list. -/
def State.feWait (s : State) (key kind : Nat) (d : RegNo) (v : Word) : State :=
  s.parkWith (.fullEmpty key) (fun s =>
    ((s.updTl s.here (fun x => { x with
      fe := x.fe ++ [{ pa := key, sid := s.x.me.sid, kind := kind, reg := d, val := v }] })).bump s.here (0x100 + 72) 1))
/-- LDFE (R195). -/
def execLdfe (d a : RegNo) (i : BitVec 14) (s : State) : Out :=
  let ea := s.ea a i 8
  .next (s.withAligned ea 8 needRW (fun s pa => s.atHome ea pa false (fun s key =>
    if s.isFull key then (((s.wg d (wd (s.rd key 8))).setFull key false).fillFe key).adv else s.feWait key 0 d 0)))
/-- LDFF (R195). -/
def execLdff (d a : RegNo) (i : BitVec 14) (s : State) : Out :=
  let ea := s.ea a i 8
  .next (s.withAligned ea 8 needR (fun s pa => s.atHome ea pa false (fun s key =>
    if s.isFull key then (s.wg d (wd (s.rd key 8))).adv else s.feWait key 1 d 0)))
/-- STEF (R195): a release at D, then the wait for EMPTY. -/
def execStef (d a : RegNo) (i : BitVec 14) (s : State) : Out :=
  let ea := s.ea a i 8
  .next (s.withAligned ea 8 needRW (fun s pa => s.atHome ea pa false (fun s key =>
    s.withFence 2 (fun s =>
      if s.isFull key then s.feWait key 2 0 (s.g d)
      else (((s.st key 8 (s.g d).toNat).setState key true).fillFe key).adv))))
/-- STFF (R195). -/
def execStff (d a : RegNo) (i : BitVec 14) (s : State) : Out :=
  let ea := s.ea a i 8
  .next (s.withAligned ea 8 needW (fun s pa => s.atHome ea pa true (fun s key =>
    s.withFence 2 (fun s => (((s.st key 8 (s.g d).toNat).setState key true).fillFe key).adv))))
/-- FEMPTY (R195). -/
def execFempty (a : RegNo) (i : BitVec 14) (s : State) : Out :=
  let ea := s.ea a i 8
  .next (s.withAligned ea 8 needW (fun s pa => s.atHome ea pa false (fun s key =>
    s.withFence 2 (fun s => ((s.setFull key false).fillFe key).adv))))
/-- FFULL (R195). -/
def execFfull (a : RegNo) (i : BitVec 14) (s : State) : Out :=
  let ea := s.ea a i 8
  .next (s.withAligned ea 8 needW (fun s pa => s.atHome ea pa false (fun s key =>
    s.withFence 2 (fun s => ((s.setFull key true).fillFe key).adv))))

/-! ### Reservations (R197 to R199) -/

/-- The held word of the issuing strand at its tile. -/
def State.holds (s : State) (key : Nat) : Bool :=
  (s.tl s.here).resv.any (fun e => e.holder == s.x.me.sid && e.pa == key)
/-- LRW at the home of its word. A strand that the reservation has come to already, without having been granted it, is granted
now (R247). -/
def State.reserve (s : State) (d : RegNo) (key : Nat) : State :=
  let t := s.here
  let grant (s : State) : State := (s.bump t ctrGrants 1).upd (fun st => st.grant d (wd (s.rd key 8)))
  if s.holds key then grant s
  else if (s.tl t).resv.any (·.pa == key) then
    s.parkWith (.resv key) (fun s => s.updTl t (fun x => { x with
      resv := lupd (·.pa == key) (fun e => { e with fifo := e.fifo ++ [(s.x.me.sid, d)] }) x.resv }))
  else if (s.tl t).resv.length < 256 then
    grant (s.updTl t (fun x => { x with resv := x.resv ++ [{ pa := key, holder := s.x.me.sid, fifo := [] }] }))
  else s.parkWith (.resv key) (fun s => s.updTl t (fun x => { x with resvQ := x.resvQ ++ [(s.x.me.sid, key, d)] }))
/-- A strand that the reservation had come to leaves without it: by a trap, or because the word has another home by now. -/
def State.unreserved (s : State) (t : Nat) (sid : Word) : State :=
  let leaves : Bool := match s.x.me.wait with | some (.depart _) => true | _ => false
  if !s.x.me.rsv && (s.x.trap.isSome || leaves) then s.release t sid else s
/-- LRW (R197, R199). -/
def execLrw (d a : RegNo) (i : BitVec 14) (s : State) : Out :=
  let ea := s.ea a i 8
  let r := s.withAligned ea 8 needRW (fun s pa => s.leaving ea (fun s => s.atHome ea pa false (fun s key => s.reserve d key)))
  .next (if s.x.me.rsv then r else r.unreserved s.here s.x.me.sid)
/-- SCH and RELR: the word must be the held one, else RSV_LEAVE; then a release at D (R97, R197). -/
def State.atHeld (s : State) (ea : Word) (pa : Nat) (k : State → Nat → State) : State :=
  let here : Bool := match s.homeOf pa with | .tile t => s.isHere t | _ => false
  if !s.x.me.rsv || !here || !s.holds (localOf pa) then s.trapC cRsvLeave ea
  else s.atHome ea pa false (fun s key => s.withFence 2 (fun s => k s key))
/-- The reservation of the issuing strand is given up. -/
def State.giveUp (s : State) : State := ((s.release s.here s.x.me.sid).upd (fun st => st.swSet 20 false))
/-- SCH (R197). -/
def execSch (d a : RegNo) (i : BitVec 14) (s : State) : Out :=
  let ea := s.ea a i 8
  .next (s.withAligned ea 8 needRW (fun s pa => s.atHeld ea pa (fun s key =>
    (s.st key 8 (s.g d).toNat).giveUp.adv)))
/-- RELR (R197). -/
def execRelr (a : RegNo) (i : BitVec 14) (s : State) : Out :=
  let ea := s.ea a i 8
  .next (s.withAligned ea 8 needRW (fun s pa => s.atHeld ea pa (fun s _ => s.giveUp.adv)))

/-! ### Atomics (R66, R200 to R203) -/

/-- The new value of an atomic operation on n bytes; FADD rounds to nearest even with no flush and no flag (R66, R200). -/
def amoNew (op : BitVec 4) (n old b : Nat) : Nat :=
  let w := 8 * n
  match op.toNat with
  | 0 => (old + b) % 2 ^ w
  | 1 => if signedOf w b < signedOf w old then b else old
  | 2 => if signedOf w old < signedOf w b then b else old
  | 3 => min old b
  | 4 => max old b
  | 5 => old &&& b
  | 6 => old ||| b
  | 7 => old ^^^ b
  | 8 =>
    let c := if n = 4 then 0 else 1
    (roundEx c 0 false false (addF 0 (decodeF c old false) (decodeF c b false))).bits
  | _ => b
/-- An atomic operation performed at a word's home (R79). -/
def State.amoAt (s : State) (op : BitVec 4) (key n b : Nat) : State :=
  let s := s.correct key n
  s.st key n (amoNew op n (s.rd key n) (b % 2 ^ (8 * n)))
/-- A posted operation of a strand or controller (R181): local, posted, or PROT for host memory. -/
def State.postedAt (s : State) (addr : Word) (pa n : Nat) (o : Post) (k control : State → State) : State :=
  let go (d : Nat) (s : State) : State :=
    if s.seqHolds pa n then s.park .seq
    else if s.ownHolds (localOf pa) n then s.parkBank (localOf pa) n
    else s.postOp d 1 o State.adv
  match s.homeOf pa with
  | .control => control s
  | .tile t => if s.isHere t then s.withLocal pa n k else s.leaving addr (go t)
  | .device d => s.leaving addr (go (32768 + d))
  | .host => s.leaving addr (fun s => s.trapC cProt addr)
/-- AMOP (R200). In control space, which only a controller core reaches, the word is read and written there. -/
def execAmop (a b : RegNo) (o : BitVec 4) (z : BitVec 2) (s : State) : Out :=
  let n := szBytes z
  let ea := s.g a
  let v := (s.g b).toNat % 2 ^ (8 * n)
  .next (s.withAligned ea n needRW (fun s pa =>
    s.postedAt ea pa n (.amo o (localOf pa) n (wd v) ea)
      (fun s => if s.badAt (localOf pa) n then s.memErr ea (localOf pa) else (s.amoAt o (localOf pa) n v).adv)
      (fun s =>
        let p := paddockOf s.here
        (s.writeControl p pa n (amoNew o n (s.readControl p pa n) v)).adv)))
/-- An AMOZ performed at its home (R201); none where it would start a handler and the tile's handler queue is full (R408). -/
def State.amozAt (s : State) (key : Nat) (addr b : Word) : Option State :=
  let t := tileOf key
  let new := wd (s.rd key 8) + b
  let h := wd (s.rd (key + 8) 8)
  let starts : Bool := new == 0 && b != 0 && h != 0
  if starts && 32 ≤ (s.tl t).handlers.length then none
  else
    let s := (s.correct key 16).st key 8 new.toNat
    some (if starts then
      s.updTl t (fun x => { x with handlers := x.handlers ++ [{ pc := h, regs := [addr], g15 := 0 }] }) else s)
/-- AMOZ (R201). A local one that finds the handler queue full waits, unperformed (R408). -/
def execAmoz (a b : RegNo) (s : State) : Out :=
  let ea := s.g a
  let v := s.g b
  .next (s.withAligned ea 16 needRW (fun s pa =>
    s.postedAt ea pa 16 (.amoz (localOf pa) v ea)
      (fun s =>
        if s.badAt (localOf pa) 16 then s.memErr ea (localOf pa)
        else match s.amozAt (localOf pa) ea v with
          | some s => s.adv
          | none => s.park (.handlerRoom ea (localOf pa) v))
      (fun s =>
        let p := paddockOf s.here
        (s.writeControl p pa 8 ((wd (s.readControl p pa 8) + v).toNat)).adv)))
/-- A migrating atomic (R181): local, by migration, as a pinned round trip, or PROT off the device. -/
def State.atomicAt (s : State) (addr : Word) (pa n : Nat) (r : Req) (k control : State → State) : State :=
  match s.homeOf pa with
  | .control => control s
  | .tile t =>
    if s.isHere t then
      s.withLocal pa n (fun s => if s.badAt (localOf pa) n then s.memErr addr (localOf pa) else k s)
    else s.leaving addr (fun s => s.moveOr t (fun s => s.park (.fetch addr pa r)))
  | _ => s.leaving addr (fun s => s.trapC cProt addr)
/-- AMOR (R202). -/
def execAmor (d a b : RegNo) (o : BitVec 4) (z : BitVec 2) (s : State) : Out :=
  let n := szBytes z
  let ea := s.g a
  let v := (s.g b).toNat % 2 ^ (8 * n)
  .next (s.withAligned ea n needRW (fun s pa =>
    s.atomicAt ea pa n (.amor o n (wd v) d)
      (fun s => ((s.amoAt o (localOf pa) n v).wg d (wd (s.rd (localOf pa) n))).adv)
      (fun s =>
        let p := paddockOf s.here
        let old := s.readControl p pa n
        ((s.writeControl p pa n (amoNew o n old v)).wg d (wd old)).adv)))
/-- CAS performed at the word's home (R203). -/
def State.casAt (s : State) (key n old new : Nat) : State :=
  let s := s.correct key n
  if s.rd key n = old % 2 ^ (8 * n) then s.st key n (new % 2 ^ (8 * n)) else s
/-- CAS (R203). -/
def execCas (d a b : RegNo) (z : BitVec 2) (s : State) : Out :=
  let n := szBytes z
  let ea := s.g a
  let old := s.g d
  let new := s.g b
  .next (s.withAligned ea n needRW (fun s pa =>
    s.atomicAt ea pa n (.cas n old new d)
      (fun s => ((s.casAt (localOf pa) n old.toNat new.toNat).wg d (wd (s.rd (localOf pa) n))).adv)
      (fun s =>
        let p := paddockOf s.here
        let was := s.readControl p pa n
        ((if was = old.toNat % 2 ^ (8 * n) then s.writeControl p pa n (new.toNat % 2 ^ (8 * n)) else s).wg d
          (wd was)).adv)))

/-! ### Completion counters (R204 to R206, R239) -/

/-- A wait on a counter (R181, R205): local, by migration, or by polling. -/
def State.waitOp (s : State) (addr : Word) (pa : Nat) (zero : Bool) (target : Nat) : State :=
  let key := localOf pa
  match s.homeOf pa with
  | .control =>
    if counterHolds zero target (s.readControl (paddockOf s.here) pa 8) then s.adv
    else s.park (.poll addr pa zero target)
  | .tile t =>
    if s.isHere t then
      s.withLocal pa 8 (fun s =>
        if s.badAt key 8 then s.memErr addr key
        else if counterHolds zero target (s.rd key 8) then (s.correct key 8).adv
        else (s.correct key 8).parkWith (.counter key zero target) id)
    else s.leaving addr (fun s => s.moveOr t (fun s => s.park (.fetch addr pa (.poll zero target))))
  | _ => s.leaving addr (fun s => s.park (.fetch addr pa (.poll zero target)))
/-- CCWAIT (R205). -/
def execCcwait (a b : RegNo) (s : State) : Out :=
  let ea := s.g a
  .next (s.withAligned ea 8 needR (fun s pa => s.waitOp ea pa false (nfield (s.g b).toNat 0 48)))
/-- Long CCWAIT (R205). -/
def execCcwaitLong (a : RegNo) (count : W32) (s : State) : Out :=
  let ea := s.g a
  .next (s.withAligned ea 8 needR (fun s pa => s.waitOp ea pa false count.toNat))
/-- CCSET (R206): as ST.D. -/
def execCcset (a b : RegNo) (s : State) : Out :=
  let ea := s.g a
  .next (s.withAligned ea 8 needW (fun s pa => s.writeOp ea pa 8 (s.g b).toNat State.adv))
/-- CCWAIT_POLL (R205): 256 cycles after the poll before it, the wait of strand inp.sid, or of
controller core inp.l of paddock inp.k where inp.m is 1, reads its counter again. -/
def execCcwaitPoll (s : State) : Out :=
  let poll (s : State) : State :=
    match s.x.me.wait with
    | some (.poll addr pa zero target) =>
      if s.homeOf pa == .control then
        if counterHolds zero target (s.readControl (paddockOf s.here) pa 8) then s.adv else s
      else s.upd (fun st => { st with wait := some (.fetch addr pa (.poll zero target)) })
    | _ => s
  if s.inp.m = 1 then .next (s.asCtl s.inp.k s.inp.l poll) else .next (s.asStrand s.inp.sid poll)

/-! ### FENCE, MIG, PIN (R90, R186, R189) -/

/-- FENCE (R90). -/
def execFence (p : BitVec 2) (s : State) : Out := .next (s.withFence p State.adv)
/-- MIG (R186): a reservation holder may not leave (R198). -/
def execMig (a : RegNo) (s : State) : Out :=
  let ea := s.g a
  .next (s.withPa ea needR (fun s pa =>
    match s.homeOf pa with
    | .tile t => if s.isHere t then s.adv else s.leaving ea (fun s => s.moveOr t State.adv)
    | _ => s.leaving ea (fun s => s.trapC cProt ea)))
/-- PIN (R189). -/
def execPin (s : State) : Out := .next (s.upd (fun st => st.swSet 18 true)).adv
/-- UNPIN (R189). -/
def execUnpin (s : State) : Out :=
  .next (s.upd (fun st => { ((st.swSet 18 false).swSet 19 false) with migcnt := 0, migwin := 0 })).adv

/-! ### DISCARD and PREF (R210 to R212) -/

/-- One line of a tile's home cache is dropped: its last writes that no write-back has carried are undone, how many being a
free value (log 9); what is left of the line has been written back. -/
def State.discardLine (s : State) (line : Nat) : State :=
  let mine := s.undo.filter (fun u => u.word / 8 == line)
  let n := Config.undone s.free % (mine.length + 1)
  let s' := (mine.take n).foldl (fun s u => { s with
      mem := memPut s.mem (8 * u.word) (leBytes 8 u.old.toNat)
      code := s.code.map (CodeMap.note s.mem (8 * u.word) 8)
      empties := if u.full then s.empties.filter (· != u.word) else ninsert s.empties u.word }) s
  let held : Bool := n != 0 || Config.undone (s.free + 1) % 2 == 1
  let s' := { s' with undo := s'.undo.filter (fun u => u.word / 8 != line), free := s.free + 2 }
  let s' := if held then s'.bump (tileOf (64 * line)) (0x100 + 104) 1 else s'
  ((List.range 8).map (fun i => 8 * (8 * line + i))).foldl State.fillFe s'
/-- A DISCARD performed at its home; scratchpad has no cache (R211). -/
def State.discardAt (s : State) (key len : Nat) : State :=
  if isDram key then
    ((List.range (len / 64)).map (fun i => key / 64 + i)).foldl
      (fun s l => if tileOf (64 * l) = tileOf key then s.discardLine l else s) s
  else s
/-- The size of the page that maps an address for the issuing agent; none where no page does (R419). -/
def State.pageBits (s : State) (va : Word) : Option Nat :=
  (if s.x.me.isCtl then tlbFind s.sv.tlb s.sv.asp.toNat va.toNat
   else tlbFind (s.tl s.here).tlb s.x.me.pasture va.toNat).map (·.bits)
/-- DISCARD (R211). -/
def execDiscard (a b : RegNo) (s : State) : Out :=
  let ea := s.g a
  let len := (s.g b).toNat
  if ea.toNat % 64 != 0 || len % 64 != 0 then .next (s.trapC cAlign ea)
  else .next (s.withPa ea needW (fun s pa =>
    if (s.pageBits ea).any (fun n => 2 ^ n < ea.toNat % 2 ^ n + len) then s.trapC cAlign (ea + s.g b)
    else s.postedAt ea pa len (.discard (localOf pa) len ea) (fun s => (s.discardAt (localOf pa) len).adv) State.adv))
/-- PREF (R212): a hint that changes no architectural state and never traps. -/
def execPref (_a : RegNo) (s : State) : Out := .next s.adv

end Sys2Proof.Machine
end

