-- ==== Sys2Proof/Machine/Command.lean ====
section
/-! DEFINITION. Engine commands: issue (R28 to R30, R204), the accesses of an engine as a hart of its tile (R31, R81, R214),
completion with its flags and counter (R32, R204, R290), selection contexts (R347, R348), and the completion report. -/

namespace Sys2Proof.Machine

open Sys2Proof

/-! ### Packets and commands by number -/

/-- The packet that an event concerns, by its number. -/
def State.packet (s : State) (n : Nat) : Option Packet := s.mesh.find? (·.id == n)
/-- A packet leaves the mesh. -/
def State.take (s : State) (k : Packet) : State := { s with mesh := ldel (·.id == k.id) s.mesh }
/-- A packet is accepted at its destination, and counted there (R435). -/
def State.accept (s : State) (k : Packet) : State :=
  if k.counts then (s.take k).updTl k.dst (fun x => { x with rcvd := inc1 x.rcvd k.want }) else s.take k
/-- The command with a given number. -/
def State.cmd (s : State) (n : Nat) : Option Cmd := s.cmds.find? (·.id == n)
/-- Changes a command. -/
def State.updCmd (s : State) (n : Nat) (f : Cmd → Cmd) : State := { s with cmds := lupd (·.id == n) f s.cmds }
/-- The gate of R30: every earlier operation that the release covers is acknowledged. -/
def State.gateOpen (s : State) (c : Cmd) : Bool :=
  c.after.all (fun n => !s.unacked.any (·.id == n) && !s.cmds.any (·.id == n))
/-- The rounding mode of an engine (R124): MRND, and SW.RM at issue for 7. -/
def Cmd.mode (c : Cmd) : Nat := let m := nfield c.fmt.toNat 13 3; if m = 7 then nfield c.sw.toNat 10 3 else m
/-- FMT.MSAT. -/
def Cmd.msat (c : Cmd) : Bool := wbit c.fmt 12
/-- FMT.MFTZ. -/
def Cmd.mftz (c : Cmd) : Bool := wbit c.fmt 11

/-- A type code that an engine takes: D8 and E2M1 only where they are accepted (R442). -/
def State.typeOn (s : State) (c : Nat) : Bool :=
  !s.committed || (if c = 7 then s.feat2.getLsbD 6 else if c = 6 then s.feat2.getLsbD 5 else true)

/-! ### Issue -/

/-- Checks a counter address at issue (R178, R204), once; 0 names none where the instruction allows it. -/
def State.withCounter (s : State) (c : Word) (zeroNone : Bool) (k : State → Option Nat → State) : State :=
  if zeroNone && c = 0 then k s none
  else s.once 2 (fun s k => s.withAligned c 8 needW (fun s pa => if s.homeOf pa == .host then s.trapC cProt c else k s pa))
    (fun s pa => k s (some pa))
/-- The words of the n pieces of 64 bytes of a record from an address on, each piece translated and homed on the issuing tile; l:
those of the pieces before them. -/
def State.withPieces (s : State) (p : Word) (l : List (Word × Nat)) (k : State → List (Word × Nat) → State) : Nat → State
  | 0 => k s l
  | n + 1 => s.withPa p needR (fun s pa =>
      let here : Bool := match s.homeOf pa with | .tile t => s.isHere t | _ => false
      if here then s.withPieces (p + 64) (l ++ recWords p pa 64) k n else s.trapC cProt p)
/-- An address that must be aligned, readable and homed on the issuing tile, checked once; k receives its translation. -/
def State.withPlace (s : State) (p : Word) (align : Nat) (k : State → Nat → State) : State :=
  s.once 0 (fun s k => s.withAligned p align needR (fun s pa =>
    let here : Bool := match s.homeOf pa with | .tile t => s.isHere t | _ => false
    if here then k s pa else s.trapC cProt p)) k
/-- Where the C slot notes the words of a record as it reads them. -/
def recordPlace : Nat := 0x400
/-- Reads a record of n bytes, at most 64 or a multiple of 64, at a place that withPlace has checked, once: a strand that then
waits goes on with the bytes it has (R296, R355). Its words are read each by itself (R81, R287). -/
def State.withBytes (s : State) (p : Word) (pa n : Nat) (k : State → List Byte → State) : State :=
  s.once 1 (fun s k =>
    if n ≤ 64 then s.readEach recordPlace (recWords p pa n) k
    else s.withPieces p [] (fun s l => s.readEach recordPlace l k) (n / 64)) (fun s v => k s (leBytes n v))
/-- Reads a record that must be aligned and homed on the issuing tile. -/
def State.withBlock (s : State) (p : Word) (align n : Nat) (k : State → List Byte → State) : State :=
  s.withPlace p align (fun s pa => s.withBytes p pa n k)
/-- A record and a counter, checked and read in the order of R285, R296 and R322: the record's place, the counter, the bytes. -/
def State.withDesc (s : State) (p c : Word) (align n : Nat) (zeroNone : Bool) (k : State → List Byte → Option Nat → State) :
    State :=
  s.withPlace p align (fun s pa => s.withCounter c zeroNone (fun s ctr => s.withBytes p pa n (fun s bs => k s bs ctr)))
/-- Commands that wait in a core's queue to an engine (R28). -/
def State.queueLen (s : State) (t c : Nat) (e : Engine) : Nat :=
  (s.cmds.filter (fun k => k.tile == t && k.core == c && k.eng == e && k.st == .queued)).length
/-- An MXSEND whose scope does not include its target: it holds back no later command of its issuer, and none of its issuer's
earlier commands holds it back (R324). -/
def Cmd.apart (c : Cmd) : Bool := match c.op with | .mxsend _ _ p => !inScope p c.tile c.exTile | _ => false
/-- The operations that a command issued now must wait for: posted operations and commands of the strand within the scope
(R30, R84). -/
def State.coveredBy (s : State) (scope : BitVec 2) : List Nat :=
  let t := s.here
  ((s.outstanding s.x.me.party).filter (fun k => inScope scope t k.dst)).map (·.id)
    ++ (s.cmds.filter (fun c => c.sid == s.x.me.sid && c.eng != .message && !c.apart && inScope scope t c.exTile)).map (·.id)
/-- A new command of the issuing strand with everything it takes from it (R28, R30). -/
def State.newCmd (s : State) (e : Engine) (op : Instr) (scope : BitVec 2) (id : Nat) : Cmd :=
  { id := id, sid := s.x.me.sid, pasture := s.x.me.pasture, tile := s.here, core := s.x.me.core, eng := e, exTile := s.here
    op := op, fmt := s.x.src.fmt, sca := s.x.src.sca, scb := s.x.src.scb, sw := s.x.src.sw, after := s.coveredBy scope }
/-- Command issue is a release (R30, R97): a recorded failure of a posted operation is raised, after the wait of FENCE (R193; log
26). With none recorded the issue waits for nothing, and the engine's gate does. -/
def State.withReport (s : State) (scope : BitVec 2) (k : State → State) : State :=
  if s.x.me.fail.isSome then s.withFence scope k else k s
/-- Queues a command once long-vector accesses are performed (R95) and the core's queue has an entry (R28). -/
def State.queueCmd (s : State) (e : Engine) (op : Instr) (scope : BitVec 2) (f : Cmd → Cmd) (k : State → State) : State :=
  if s.longBusy s.x.me then s.park .seq
  else if 2 ≤ s.queueLen s.here s.x.me.core e then s.park .queue
  else
    let (n, s) := s.fresh
    k { s with cmds := s.cmds ++ [f (s.newCmd e op scope n)] }
/-- The same after the report of a failed posted operation. -/
def State.issueCmd (s : State) (e : Engine) (op : Instr) (scope : BitVec 2) (f : Cmd → Cmd) (k : State → State) : State :=
  s.withReport scope (fun s => s.queueCmd e op scope f k)
/-- A command is the head of its core's queue to its engine. -/
def State.isHead (s : State) (c : Cmd) : Bool :=
  c.st == .queued
    && ((s.cmds.find? (fun k => k.tile == c.tile && k.core == c.core && k.eng == c.eng && k.st == .queued)).any (·.id == c.id))

/-! ### Accesses of an engine (R31, R81, R99; log 64)

A command runs in passes. Each pass walks through the whole command: an access that has been made answers with what its log
holds; another is made now, if the schedule picks it, or waits. An access to the tile's own memory is performed at once; one to
another home is a packet, whose answer fills the log. -/

/-- One pass over a command. -/
structure Run where
  s : State
  log : Tbl Acc := []
  only : List Nat := []             -- the accesses that this pass may make, by key; none listed: all
  key : Nat := 0                    -- the key of the next access
  blocked : Bool := false           -- what follows in this element needs an access that is not made yet
  pend : Bool := false              -- some access is not made, or its answer or acknowledgement is awaited
  late : Bool := false              -- a write of this element is not acknowledged
  deriving DecidableEq, Repr

/-- Starts a pass. -/
def State.run (s : State) (c : Cmd) : Run := { s := s, log := c.log, only := s.inp.vals.map BitVec.toNat }
/-- Element i of a phase: its accesses are independent of other elements'. -/
def Run.begin (r : Run) (phase i : Nat) : Run := { r with key := phase * 2 ^ 60 + i * 2 ^ 16, blocked := false, late := false }
/-- What a pass leaves: the command has started, with its log. -/
def Run.save (r : Run) (c : Cmd) : State := r.s.updCmd c.id (fun c => { c with log := r.log, started := true })
/-- The rest of the element waits. -/
def Run.stop (r : Run) : (Nat ⊕ Nat) × Run := (.inl 0, { r with blocked := true, pend := true })
/-- What an access answers. A write whose packet is out holds nothing back but the completion. -/
def Run.answer (r : Run) (write : Bool) (a : Acc) : (Nat ⊕ Nat) × Run :=
  match a with
  | .val v => (.inl v, r)
  | .fault c => (.inr c, r)
  | .out _ => if write then (.inl 0, { r with late := true, pend := true }) else r.stop
  | _ => r.stop
/-- One access: make receives what the log holds of it, and answers with what becomes of it; none: not now. -/
def Run.once (r : Run) (write : Bool) (make : State → Nat → Option Acc → Option Acc × State) : (Nat ⊕ Nat) × Run :=
  let k := r.key
  let old := tfind r.log k
  let r := { r with key := k + 1 }
  if r.blocked then (.inl 0, r)
  else match old with
    | some (.val v) => (.inl v, r)
    | some (.fault c) => (.inr c, r)
    | some (.out t) => r.answer write (.out t)
    | some (.walk _) => r.stop
    | _ =>
      if !r.only.isEmpty && !r.only.contains k then r.stop
      else match make r.s k old with
        | (none, s) => { r with s := s }.stop
        | (some a, s) => { r with s := s, log := tset r.log k a }.answer write a
/-- Something that a pass does once, when everything before it in its element is done: a count, a place in a list. -/
def Run.effect (r : Run) (f : State → State) : Run :=
  let k := r.key
  let r' := { r with key := k + 1 }
  if r.blocked || r.late || (tfind r.log k).isSome then r' else { r' with s := f r.s, log := tset r.log k (.val 0) }

/-- The tile as whose hart a command runs: the executing one, and for GET and PUT the issuing one (R208). -/
def Cmd.base (c : Cmd) : Nat := if c.eng == .getput then c.tile else c.exTile
/-- The mesh class of a command's fetches and writes (R391); its completion update and its flags travel as every other posted
operation, in class 1. -/
def Cmd.meshCls (c : Cmd) : Nat := if c.eng == .getput || c.eng == .copy then 2 else 1
/-- The event of an uncorrectable error that a command met (R214). -/
def State.errEvent (s : State) (p h : Nat) (sid addr : Word) : State :=
  s.post p h cMemerr ((s.strandOf sid).elim noCls Strand.evClass) h sid addr
/-- An uncorrectable error met by an engine: counted, with its event (R214). -/
def State.engineErr (s : State) (p h : Nat) (sid addr : Word) : State := (s.bump h (0x100 + 96) 1).errEvent p h sid addr
/-- A command's TLB miss (R174): it joins a walk, asks for one, or waits for room in the miss queue. -/
def State.engMiss (s : State) (c : Cmd) (va : Word) : Option Acc × State :=
  let s := s.bump c.base 0x100 1
  (some (.walk va), (s.askWalk c.pasture c.base va).getD s)
/-- An access meets an installed bank command: it waits, and is counted once (R291). -/
def State.engHeld (s : State) (key : Nat) (old : Option Acc) : Option Acc × State :=
  (some .held, if old == some .held then s else s.bumpHeld key)
/-- An entry holds a command's access to a word; it holds no bank command's (R287). -/
def State.heldFrom (s : State) (c : Cmd) (key n : Nat) : Bool := c.eng != .bank && s.bankHeld key n
/-- A read of n bytes at a physical address for a command. -/
def State.engRead (s : State) (c : Cmd) (addr : Word) (pa n k : Nat) (old : Option Acc) : Option Acc × State :=
  let key := localOf pa
  let fetch (dst : Nat) : Option Acc × State :=
    (some (.out s.now), s.send (.cmd c.id) c.base dst c.pasture c.meshCls (.fetch c.sid addr key (.load n false 0)) k)
  match s.homeOf pa with
  | .tile h =>
    if h != c.base then fetch h
    else if s.heldFrom c key n then s.engHeld key old
    else if s.badAt key n then (some (.fault cMemerr), s.engineErr c.pasture h c.sid addr)
    else (some (.val (s.rd key n)), s.correct key n)
  | .control => (some (.fault cProt), s)
  | h => fetch (destOf c.pasture h)
/-- A posted operation of a command in a mesh class, once the tile's retransmit buffer has room (R192). -/
def State.engPost (s : State) (c : Cmd) (dst cls : Nat) (o : Post) (k : Nat) : Option Acc × State :=
  if s.postRoom (.cmd c.id) c.base then
    (some (.out s.now), s.sendPost (.cmd c.id) c.base dst c.pasture cls o k)
  else (none, s)
/-- A write of n bytes at a physical address for a command. -/
def State.engWrite (s : State) (c : Cmd) (addr : Word) (pa n v k : Nat) (old : Option Acc) : Option Acc × State :=
  let key := localOf pa
  let o : Post := .store key n (BitVec.ofNat 2048 v) addr
  match s.homeOf pa with
  | .tile h =>
    if h != c.base then s.engPost c h c.meshCls o k
    else if s.heldFrom c key n then s.engHeld key old
    else if n % 8 != 0 && s.badAt key n then (some (.fault cMemerr), s.engineErr c.pasture h c.sid addr)
    else (some (.val 0), s.stWord key n v)
  | .control => (some (.fault cProt), s)
  | h => s.engPost c (destOf c.pasture h) c.meshCls o k
/-- An access at a virtual address, translated with the TLB of the command's tile (R31, R174). -/
def Run.at_ (r : Run) (c : Cmd) (write : Bool) (va : Word) (need : Need)
    (f : State → Nat → Nat → Option Acc → Option Acc × State) : (Nat ⊕ Nat) × Run :=
  r.once write (fun s k old =>
    match s.xlateAt c.pasture c.base va need with
    | none => s.engMiss c va
    | some (.inr e) => (some (.fault e), s)
    | some (.inl pa) => f s pa k old)
/-- The cause of a write, if it failed. -/
def writeErr (x : (Nat ⊕ Nat) × Run) : Option Nat × Run :=
  (match x.1 with | .inl _ => none | .inr e => some e, x.2)
/-- Reads n bytes at a virtual address (R31). -/
def Run.read (r : Run) (c : Cmd) (va : Word) (n : Nat) : (Nat ⊕ Nat) × Run :=
  r.at_ c false va needR (fun s pa k old => s.engRead c va pa n k old)
/-- Writes n bytes at a virtual address (R31). -/
def Run.write (r : Run) (c : Cmd) (va : Word) (n v : Nat) : Option Nat × Run :=
  writeErr (r.at_ c true va needW (fun s pa k old => s.engWrite c va pa n v k old))
/-- The parts of an element, which do not wait for one another, from part i on; the first cause, in their order. -/
def Run.partsFrom (r : Run) (f : Run → Nat → (Nat ⊕ Nat) × Run) (i : Nat) : Nat → (List Nat ⊕ Nat) × Run
  | 0 => (.inl [], r)
  | n + 1 =>
    let (x, r') := f { r with blocked := false } i
    let (y, r'') := Run.partsFrom r' f (i + 1) n
    (match x, y with
     | .inr e, _ => .inr e
     | .inl _, .inr e => .inr e
     | .inl v, .inl vs => .inl (v :: vs), { r'' with blocked := r'.blocked || r''.blocked })
/-- The n parts of an element that can be begun. -/
def Run.parts (r : Run) (n : Nat) (f : Run → Nat → (Nat ⊕ Nat) × Run) : (List Nat ⊕ Nat) × Run :=
  if r.blocked then (.inl (List.replicate n 0), r) else r.partsFrom f 0 n
/-- Reads a run of n words of 8 bytes, each translated and each by itself (R81); the first cause met, in address order. -/
def Run.readWords (r : Run) (c : Cmd) (va : Word) (n : Nat) : (Nat ⊕ Nat) × Run :=
  match r.parts n (fun r i => r.read c (va + wd (8 * i)) 8) with
  | (.inl vs, r) => (.inl (packElems 64 vs), r)
  | (.inr e, r) => (.inr e, r)
/-- Writes a run of n words of 8 bytes, each translated and each by itself (R81); the first cause met, in address order. -/
def Run.writeWords (r : Run) (c : Cmd) (va : Word) (v n : Nat) : Option Nat × Run :=
  match r.parts n (fun r i =>
      match r.write c (va + wd (8 * i)) 8 (elem v 64 i) with
      | (some e, r) => (.inr e, r)
      | (none, r) => (.inl 0, r)) with
  | (.inl _, r) => (none, r)
  | (.inr e, r) => (some e, r)
/-- Fills in what has become of an access of a command whose packet is out. -/
def State.fillLog (s : State) (n k : Nat) (a : Acc) : State :=
  s.updCmd n (fun c => match tfind c.log k with | some (.out _) => { c with log := tset c.log k a } | _ => c)
/-- The fetches of a command that have had no reply for a time, by key (R301). -/
def State.unanswered (s : State) (c : Cmd) (ns : Nat) : List Nat :=
  c.log.filterMap (fun x =>
    match x.2 with
    | .out t => if t + ns ≤ s.now && !s.unacked.any (fun u => u.party == .cmd c.id && u.key == x.1) then some x.1 else none
    | _ => none)
/-- The engines that execute commands keep the order of acceptance in starting them (R28): no command of the engine accepted
before, with its gate clear, is still to start, but for those that wait on a path of their own. -/
def State.mayStart (s : State) (c : Cmd) (onPath : Cmd → Bool) : Bool :=
  c.started || s.cmds.all (fun d => !(d.eng == c.eng && d.exTile == c.exTile && d.st == .held && d.ord < c.ord && !d.started
    && s.gateOpen d && !onPath d))
/-- A command is held by its engine from acceptance to completion. -/
def Cmd.accepted (c : Cmd) : Bool :=
  match c.st with
  | .held | .ran | .parked | .asking | .ending _ _ _ => true
  | _ => false
/-- The command starts, whether or not an access of it can be made yet. -/
def State.start (s : State) (c : Cmd) : State := s.updCmd c.id (fun c => { c with started := true })

/-! ### Selection contexts (R347, R348) -/

/-- A selection context. -/
def State.selCtx (s : State) (t i : Nat) : SelCtx := tget (s.tl t).sel i {}
/-- Changes a context. -/
def State.updSel (s : State) (t i : Nat) (f : SelCtx → SelCtx) : State :=
  s.updTl t (fun x => { x with sel := tset x.sel i (f (tget x.sel i {})) })
/-- The context of a tile that a strand owns. -/
def State.selOwned (s : State) (t : Nat) (sid : Word) : Option Nat :=
  (List.range 4).find? (fun i => (s.selCtx t i).owner == some sid)
/-- A free context of a tile. -/
def State.selFreeOne (s : State) (t : Nat) : Option Nat := (List.range 4).find? (fun i => (s.selCtx t i).owner.isNone)
/-- A select command that has not completed. -/
def Cmd.selLive (c : Cmd) : Bool := c.eng == .select && (c.st == .queued || c.accepted)
/-- A context that its owner leaves: free, its lists discarded, but for those that another strand's commands still name. -/
def SelCtx.left (x : SelCtx) (busy : Bool) : SelCtx := if busy then { x with owner := none } else {}
/-- What a strand that is gone, or is about to be, leaves on a tile: its place among the waiters and, once its commands have all
completed, its context (R348). -/
def State.selDropAt (s : State) (sid : Word) (t : Nat) : State :=
  let live := s.cmds.filter (fun c => c.selLive && c.tile == t)
  let s := s.updTl t (fun x => { x with selWait := x.selWait.filter (· != sid) })
  if live.any (·.sid == sid) then s
  else match s.selOwned t sid with
    | some i => s.updSel t i (fun x => x.left (live.any (·.num == i)))
    | none => s
/-- The same on every tile. -/
def State.selDrop (s : State) (sid : Word) : State := (s.tiles.map (·.1)).foldl (fun s t => s.selDropAt sid t) s

/-! ### Completion -/

/-- A completion at its counter (R204): COUNT rises by n, and the first error is kept. -/
def counterUp (v n : Nat) (err : Option Nat) : Nat :=
  let count := (v % 2 ^ 48 + n) % 2 ^ 48
  let rest := v / 2 ^ 48 % 2 ^ 8 * 2 ^ 48
  match err with
  | some e => if v / 2 ^ 63 % 2 = 1 then v / 2 ^ 48 * 2 ^ 48 + count else 2 ^ 63 + e % 2 ^ 7 * 2 ^ 56 + rest + count
  | none => v / 2 ^ 48 * 2 ^ 48 + count
/-- One completion performed at its counter's home (R204). -/
def State.countAt (s : State) (key : Nat) (err : Option Nat) : State :=
  (s.correct key 8).st key 8 (counterUp (s.rd key 8) 1 err)
/-- The event that names the SID, the address and the cause of an operation that was not performed (R193, R238). -/
def State.failEvent (s : State) (p t cause : Nat) (sid addr : Word) : State :=
  s.post p t cause ((s.strandOf sid).elim noCls Strand.evClass) t sid addr
/-- The update of a command's counter (R32): at once on its own tile, elsewhere as a posted operation. Where it cannot be
performed, an event names the counter's physical address, which is all that the command holds of it (log 66). -/
def State.engCount (s : State) (c : Cmd) (pa : Nat) (err : Option Nat) (k : Nat) (old : Option Acc) : Option Acc × State :=
  let key := localOf pa
  match s.homeOf pa with
  | .tile h =>
    if h != c.base then s.engPost c h 1 (.count pa err) k
    else if s.heldFrom c key 8 then s.engHeld key old
    else if s.badAt key 8 then (some (.fault cMemerr), (s.bump h (0x100 + 96) 1).failEvent c.pasture h cMemerr c.sid (wd pa))
    else (some (.val 0), s.countAt key err)
  | .control => (some (.val 0), s)
  | h => s.engPost c (destOf c.pasture h) 1 (.count pa err) k
/-- ORs a command's flags into the word at FLAGOUT (R290): an AMOP.OR.D; the cause where it cannot. -/
def Run.flagOut (r : Run) (c : Cmd) (addr : Word) (fl : BitVec 5) : Option Nat × Run :=
  writeErr (r.at_ c true addr needW (fun s pa k old =>
    let key := localOf pa
    match s.homeOf pa with
    | .tile h =>
      if h != c.base then s.engPost c h 1 (.amo 6 key 8 (wd fl.toNat) addr) k
      else if s.heldFrom c key 8 then s.engHeld key old
      else if s.badAt key 8 then (some (.fault cMemerr), s.engineErr c.pasture h c.sid addr)
      else (some (.val 0), (s.correct key 8).st key 8 (s.rd key 8 ||| fl.toNat))
    | _ => (some (.fault cProt), s)))
/-- The counters of completed commands (R291, R305, R329, R361), on the tile that keeps them. -/
def State.countDone (s : State) (c : Cmd) (err : Option Nat) : State :=
  let bad (s : State) (t off : Nat) : State := if err.isSome then s.bump t off 1 else s
  match c.eng with
  | .copy => bad (s.bump c.tile 0x300 1) c.tile 0x308
  | .bank => bad s c.exTile 0x228
  | .matrix =>
    let s := match c.op with | .mxdrain .. => s.bump c.exTile 0x430 1 | _ => s
    bad s c.exTile 0x438
  | .select =>
    let s := s.bump c.tile 0xE00 1
    if c.ctr.isSome then bad s c.tile 0xE20 else s
  | _ => s
/-- The end of a slice launched through a window is counted, and SET_DONE posted when its set is complete (R446). -/
def State.countEnded (s : State) (p t : Nat) (l : Slice) : State :=
  match l.set with
  | none => s
  | some n =>
    let (acc, e) := tget (s.pas p).setstat (256 * l.cls + n) (0, 0)
    let s := s.updPas p (fun q => { q with setstat := tset q.setstat (256 * l.cls + n) (acc, e + 1) })
    if e + 1 = acc then s.post p t 0x28 l.cls n 0 (wd ((e + 1).toNat + 2 ^ 32 * acc.toNat)) else s
/-- The long unit of some core of a tile still serves a strand. -/
def State.ownsLong (s : State) (t : Nat) (sid : Word) : Bool := (s.tl t).long.any (fun e => e.2.owner == some sid)
/-- The posted operations of a killed strand within scope D, its commands, and what of its long instructions had begun, are complete
(R101, R104). -/
def State.endDue (s : State) (e : Ended) : Bool :=
  !s.unacked.any (fun k => k.party == .strand e.sid && inScope 2 e.tile k.dst) && !s.cmds.any (·.sid == e.sid) && !s.ownsLong e.tile e.sid
/-- Kills whose strands have left nothing outstanding are counted (R104, R446). -/
def State.settleEnds (s : State) : State :=
  (s.ends.filter s.endDue).foldl (fun s e => s.countEnded e.pasture e.tile e.slice)
    { s with ends := s.ends.filter (fun e => !s.endDue e) }
/-- A command has completed: it is counted, a strand that is gone leaves its selection context (R348), and the executing tile's report is on its way (R32). -/
def State.doneCmd (s : State) (c : Cmd) (err : Option Nat) : State :=
  let s := s.countDone c err
  if c.eng == .message || c.eng == .join then { s with cmds := ldel (·.id == c.id) s.cmds }.settleEnds
  else
    let s := s.updCmd c.id (fun c => { c with st := .finished err })
    let s := if c.eng == .select && (s.strandOf c.sid).isNone then s.selDropAt c.sid c.tile else s
    if c.exTile = c.tile || 16384 ≤ c.exTile then s else s.reply (.cmd c.id) c.exTile c.tile c.pasture 1 (.report c.id)
/-- A join counter falls by 1, modulo 2^64 (R238). -/
def State.joinDown (s : State) (key : Nat) : State :=
  let s := s.correct key 8
  s.st key 8 (wd (s.rd key 8) - 1).toNat
/-- The join decrement of a killed strand, by the tile that command c of engine join names (R238, R432): at a local counter at once,
elsewhere as a posted operation of the strand, once R192 leaves room. Where it cannot be made, an event says so (R193). -/
def State.endJoin (s : State) (c : Cmd) : State :=
  let t := c.tile
  let (x, r) := ({ s.run c with only := [] }.begin 10 0).at_ c true c.arg needW (fun s pa _ old =>
    let key := localOf pa
    match s.homeOf pa with
    | .tile h =>
      if h != t then
        (if s.postRoom (.strand c.sid) t then
          (some (.val 0), s.sendPost (.strand c.sid) t h c.pasture 1 (.joinDec key c.arg))
        else (none, s))
      else if s.heldFrom c key 8 then s.engHeld key old
      else if s.badAt key 8 then (some (.fault cMemerr), s.bump h (0x100 + 96) 1)
      else (some (.val 0), s.joinDown key)
    | _ => (some (.fault cProt), s))
  if r.pend then r.save c
  else
    let s := (r.save c).doneCmd c none
    match x with
    | .inr e => s.failEvent c.pasture t e c.sid c.arg
    | .inl _ => s
/-- The end of a command whose work is done (R32, R290): the flags into FLAGOUT unless it is 0, and, that and every write of
the command acknowledged, the counter; each once it can be made. -/
def State.endCmd (s : State) (c : Cmd) : State :=
  match c.st with
  | .ending flagout fl err =>
    if c.eng == .join then s.endJoin c else
    let r := Run.begin { s.run c with only := [] } 9 0
    let (e, r) := if flagout = 0 then (none, r) else r.flagOut c flagout fl
    if r.pend then r.save c
    else
      let err := err <|> e
      let (_, r) : (Nat ⊕ Nat) × Run := match c.ctr with
        | some pa => (r.begin 10 0).once true (fun s k old => s.engCount c pa err k old)
        | none => (.inl 0, r)
      if r.pend then r.save c else (r.save c).doneCmd c err
  | _ => s
/-- A command's work is done, and its completion begins. -/
def State.finishWith (s : State) (c : Cmd) (flagout : Word) (fl : BitVec 5) (err : Option Nat) : State :=
  let s := s.updCmd c.id (fun c => { c with st := .ending flagout fl err })
  (s.cmd c.id).elim s s.endCmd
/-- The same with no flags. -/
def State.finishCmd (s : State) (c : Cmd) (err : Option Nat) : State := s.finishWith c 0 0 err
/-- The end of a pass: the command goes on later while an access waits or a write is not acknowledged (R32), and otherwise
completes. -/
def Run.complete (r : Run) (c : Cmd) (flagout : Word) (fl : BitVec 5) (err : Option Nat) : State :=
  if r.pend then r.save c else (r.save c).finishWith c flagout fl err
/-- COMPLETION_REPORT (R32): command inp.k, whose work is done, makes its flag and counter updates once its writes are
acknowledged; or, those done, the executing tile's report of it reaches its issuing tile. -/
def execCompletionReport (s : State) : Out :=
  match s.cmd s.inp.k with
  | some c =>
    match c.st with
    | .ending _ _ _ => .next (s.endCmd c)
    | .finished _ =>
      let gone (s : State) : State := { s with cmds := ldel (·.id == c.id) s.cmds }.settleEnds
      if c.exTile = c.tile || 16384 ≤ c.exTile then .next (gone s)
      else match s.mesh.find? (fun k => k.body == .report c.id) with
        | some k => .next (gone (s.accept k))
        | none => .next s
    | _ => .next s
  | none => .next s

end Sys2Proof.Machine
end

