-- ==== Sys2Proof/Machine/Packets.lean ====
section
/-! DEFINITION. Packets at their destinations (R82, R192, R193, R390 to R393): acceptance, refusal, sequence, acknowledgement
and retransmission, and the posted operations that a home performs. -/

namespace Sys2Proof.Machine

open Sys2Proof

/-! ### Acceptance and refusal -/

/-- The tile that receives a packet: a retired tile that still works passes it on (R185). -/
def State.target (s : State) (k : Packet) : Nat :=
  if k.dst < 16384 then (s.pas k.pasture).forward k.dst else k.dst
/-- A packet whose source holds it no longer, the tile having failed, is gone, with a command that it carries. -/
def State.orphan (s : State) (k : Packet) : State :=
  match k.body with
  | .post (.bank n) | .post (.mxsend n _) => { s.accept k with cmds := ldel (·.id == n) s.cmds }
  | _ => s.accept k
/-- A packet is refused or dropped: the side network carries a notice, and the source still holds the packet (R82, R390). -/
def State.refuse (s : State) (k : Packet) : State :=
  if k.src < 16384 && (s.tl k.src).failed then s.orphan k else
  let (n, s) := (s.take k).fresh
  { s with dropped := s.dropped ++ [k]
           mesh := s.mesh ++ [{ id := n, src := k.dst, dst := k.src, pasture := k.pasture, cls := 3, body := .refused k.id }] }
/-- The acknowledgement of a posted operation, in the class of its request (R391). -/
def State.ackTo (s : State) (k : Packet) (b : Body) : State := s.reply k.party k.dst k.src k.pasture k.cls b

/-- What a home does with a posted operation whose turn it is. -/
inductive PostEnd where
  | done (s : State)                        -- performed
  | failed (s : State) (cause : Nat) (addr : Word)   -- cannot be performed (R193)
  | full                                    -- a queue or buffer there is full (R82)
  | fullAt (s : State)                      -- the same, with what the home records of it (R369)
  | stale                                   -- its earmark names nobody now (R397)
  | full404 (s : State) (last : Bool)       -- a message refused under R404, for good or not
  | wait (s : State)                        -- it waits there for a walk (R174)
  | part (s : State) (log : Tbl Nat) (held : Bool)   -- some of its words wait for later, or behind a bank entry (R81, R287)
  deriving DecidableEq, Repr

/-- The next operation of a party at a home is its next in sequence (R82); an operation that has had its turn changes nothing. -/
def State.passSeq (s : State) (k : Packet) : State :=
  { s with seqExp := seqPut s.seqExp k.party k.dst (max (k.seq + 1) (seqGet s.seqExp k.party k.dst)) }
/-- What of a packet's access has been performed, and whether it has met an installed bank command. -/
def State.keepPart (s : State) (k : Packet) (log : Tbl Nat) (held : Bool) : State :=
  { s with mesh := lupd (·.id == k.id) (fun k => { k with log := log, held := k.held || held }) s.mesh }
/-- A posted operation reaches its home (R82): one performed before is acknowledged again; one out of sequence is refused and
counted; one in its turn is performed, or fails, or is refused, or waits there with what of it is performed. -/
def State.arriveTurn (s : State) (k : Packet) (perform : State → PostEnd) : State :=
  let want := seqGet s.seqExp k.party k.dst
  if k.seq < want then (s.accept k).ackTo k (.ack k.id)
  else if want < k.seq then (s.bump k.dst (0x100 + 64) 1).refuse k
  else match perform s with
    | .done s => ((s.accept k).passSeq k).ackTo k (.ack k.id)
    | .failed s c a => ((s.accept k).passSeq k).ackTo k (.nack k.id c a)
    | .full => s.refuse k
    | .fullAt s => s.refuse k
    | .stale => ((s.bump k.dst (0x1000 + 32) 1).accept k |>.passSeq k).ackTo k (.stale k.id)
    | .full404 s last => (if last then s.accept k else s.take k).ackTo k (.msgRefused k.id)
    | .wait s => s
    | .part s log held => s.keepPart k log held
/-- The address of an operation on memory, as its issuer held it. -/
def Post.addr : Post → Word
  | .store _ _ _ a => a
  | .amo _ _ _ _ a => a
  | .amoz _ _ a => a
  | .discard _ _ a => a
  | .joinDec _ a => a
  | .count pa _ => wd pa
  | _ => 0
/-- The same for an operation on memory or a record: a failed home cannot perform it (R193). -/
def State.arrivePost (s : State) (k : Packet) (perform : State → PostEnd) : State :=
  s.arriveTurn k (fun s =>
    if k.dst < 16384 && (s.tl k.dst).failed then
      .failed s cHomeLost (match k.body with | .post o => o.addr | _ => 0)
    else perform s)

/-! ### Posted operations performed at a home -/

/-- A packet of a bank command, which no bank entry holds (R287). -/
def State.bankParty (s : State) (k : Packet) : Bool :=
  match k.party with
  | .cmd n => (s.cmd n).any (·.eng == .bank)
  | _ => false
/-- Performs posted operation o of packet k at its home (R82, R193, R214): a store, an atomic, a DISCARD, a join decrement or a
completion. A store of a vector is performed word by word (R81), those words that inp.vals picks. -/
def State.performPost (s : State) (t : Nat) (k : Packet) (o : Post) : PostEnd :=
  let held (key : Nat) : State := if k.held then s else s.bumpHeld key
  let posted (s : State) : State := s.bump t (0x100 + 56) 1
  let go (pa n : Nat) (reads : Bool) (addr : Word) (f : State → Option State) : PostEnd :=
    if !s.bankParty k && s.bankHeld pa n then .part (held pa) k.log true
    else if reads && s.badAt pa n then .failed (s.bump t (0x100 + 96) 1) cMemerr addr
    else match f (posted s) with
      | some s => .done s
      | none => .full
  match o with
  | .store pa n v addr =>
    if n ≤ 8 then go pa n (n % 8 != 0) addr (fun s => some (s.stWord pa n v.toNat))
    else
      let (log, s') := s.doWords pa (n / 8) k.log (s.inp.vals.map BitVec.toNat) (some v.toNat)
      if allWords (n / 8) log then .done (posted s')
      else .part (if s.bankHeld pa n && !k.held then s'.bumpHeld pa else s') log (s.bankHeld pa n)
  | .amo op pa n b addr => go pa n true addr (fun s => some (s.amoAt op pa n b.toNat))
  | .amoz pa b addr => go pa 16 true addr (fun s => s.amozAt pa addr b)
  | .discard pa len _ => .done ((posted s).discardAt pa len)
  | .joinDec pa addr => go pa 8 true addr (fun s => some (s.joinDown pa))
  | .count pa err => go pa 8 true (wd pa) (fun s => some (s.countAt pa err))
  | _ => .part s k.log false

/-- A remote bank command comes to its tile (R82, R286): it waits in the bank arrival buffer of 16 entries, unnumbered until it
is installed, or is refused. -/
def State.arriveBank (s : State) (k : Packet) (n : Nat) : State :=
  let want := seqGet s.seqExp k.party k.dst
  let inBuffer := (s.cmds.filter (fun c => c.eng == .bank && c.exTile == k.dst && c.st == .arrived)).length
  if k.seq < want then (s.accept k).ackTo k (.ack k.id)
  else if want < k.seq then (s.bump k.dst (0x100 + 64) 1).refuse k
  else if (s.tl k.dst).failed then ((s.accept k).passSeq k).ackTo k (.nack k.id cHomeLost ((s.cmd n).elim 0 (fun c => wd c.lo)))
  else if 16 ≤ inBuffer then (s.bump k.dst (0x200 + 16) 1).refuse k
  else
    let (o, s) := (s.accept k).fresh
    s.updCmd n (fun c => { c with st := .arrived, ord := o })
/-- A device can be reached over Span now (R452). -/
def State.reaches (s : State) (dst : Nat) : Bool := dst < 32768 || (tfind s.spanDown (dst - 32768)).isNone
/-- The posted operation of another device that the schedule describes, in its turn there (R82, R452): at local address inp.val, of n
bytes inp.bytes: a store for inp.l = 0, AMOP operation inp.l - 1, an AMOZ for 17, whose issuer's virtual address is inp.sid (R201), for
18 a completion, with the code inp.sid - 1 unless that is 0, and for 19 a DISCARD of inp.k bytes (R181). -/
def Input.post (i : Input) : Option Post :=
  let a := i.val.toNat
  let n := i.bytes.length
  let v := leNat i.bytes
  if i.l = 0 then (if (n = 32 || n = 256 || [1, 2, 4, 8].contains n) && a % n = 0 then some (.store a n (BitVec.ofNat 2048 v) i.val) else none)
  else if i.l < 17 then (if (n = 4 || n = 8) && a % n = 0 then some (.amo (BitVec.ofNat 4 (i.l - 1)) a n (wd v) i.val) else none)
  else if i.l = 17 then (if a % 16 = 0 then some (.amoz a (wd v) i.sid) else none)
  else if i.l = 18 then (if a % 8 = 0 then some (.count a (if i.sid = 0 then none else some (i.sid.toNat - 1))) else none)
  else if i.l = 19 && a % 64 = 0 && i.k % 64 = 0 then some (.discard a i.k i.val)
  else none
/-- A local address in the DRAM or the scratchpad of a tile of the device. -/
def ownMemory (a : Nat) : Bool := a < 2 ^ 45 && !badPa a && nfield a 42 3 < 2
/-- The words of an access of another device, of n bytes, that inp.vals picks and no installed bank command holds are performed (R81,
R287); the schedule names the others later, with inp.ro once their wait has been counted (R291). The access counts, at a
control-space offset, with its first word. -/
def State.inboundWords (s : State) (t n off : Nat) (v : Option Nat) : State :=
  let a := s.inp.val.toNat
  let (log, s') := s.doWords a (n / 8) [] (s.inp.vals.map BitVec.toNat) v
  let s' := if (tfind log 0).isSome then s'.bump t off 1 else s'
  if s.bankHeld a n && !s.inp.ro then s'.bumpHeld a else s'
/-- It is performed, or not yet while an installed bank command holds its word or a queue there is full. The failed acknowledgement of
one that cannot be performed leaves the device: its issuer's tile posts the event (R193). -/
def State.inboundPost (s : State) : State :=
  let t := tileOf s.inp.val.toNat
  match s.inp.post with
  | some o =>
    if !ownMemory s.inp.val.toNat || !s.feat2.getLsbD 7 || (s.tl t).failed then s
    else
      let one : State :=
        match s.performPost t { id := 0, src := 32768, dst := t, pasture := (s.pasOfTile t).getD 0, held := s.inp.ro, body := .post o }
          o with
        | .done s | .failed s _ _ | .part s _ _ => s
        | _ => s
      match o with
      | .store _ n v _ => if n ≤ 8 then one else s.inboundWords t n (0x100 + 56) (some v.toNat)
      | _ => one
  | none => s
/-- A posted operation that has come to the host interface: a write is performed word by word (R80, R81), those words that inp.vals
picks. -/
def State.hostPost (s : State) (k : Packet) (o : Post) : PostEnd :=
  match o with
  | .store pa n v _ =>
    if n ≤ 8 then .done (s.st pa n v.toNat)
    else
      let (log, s) := s.doWords pa (n / 8) k.log (s.inp.vals.map BitVec.toNat) (some v.toNat)
      if allWords (n / 8) log then .done s else .part s log false
  | _ => .done s
/-- POSTED_OP_ARRIVAL (R82, R88): packet inp.k, a store, atomic, DISCARD, join decrement, completion or bank command, reaches
its home. A write to host memory is acknowledged when it is on
the PCIe link (R80); one to another device, when that device answers: with inp.m = 1 it could not perform it. With inp.m = 2 it is
an operation of another device at a home of this one (R452). -/
def execPostedOpArrival (s : State) : Out :=
  if s.inp.m = 2 then .next s.inboundPost
  else match s.packet s.inp.k with
  | some k =>
    match k.body with
    | .post o =>
      match o with
      | .store .. | .amo .. | .amoz .. | .discard .. | .joinDec .. | .count .. =>
        if k.dst < 16384 then
          .next (s.arrivePost { k with dst := s.target k } (fun s => s.performPost (s.target k) k o))
        else if k.dst < 32768 then .next (s.arrivePost k (fun s => s.hostPost k o))
        else if !s.reaches k.dst then .next s
        else if s.inp.m = 1 then .next (s.arrivePost k (fun s => .failed s s.inp.l o.addr))
        else .next (s.arrivePost k (fun s => .done s))
      | .bank n => .next (s.arriveBank { k with dst := s.target k } n)
      | _ => .next s
    | _ => .next s
  | none => .next s

/-! ### Acknowledgements -/

/-- A retransmit entry is freed (R192), and a class-0 operation that waited behind it may be injected (R393). -/
def State.freeEntry (s : State) (n : Nat) : State :=
  match s.unacked.find? (·.id == n) with
  | some k => (({ s with unacked := ldel (·.id == n) s.unacked }).launchNext k.party k.dst).settleEnds
  | none => s
/-- The counter update of a message that is accepted, or refused for good, begins (R399, R404). -/
def State.msgDone (s : State) (k : Packet) (m : Msg) (err : Option Nat) : State :=
  match m.ctr with
  | none => s
  | some pa =>
    let (n, s) := s.fresh
    let c : Cmd := { id := n, sid := m.sid, pasture := k.pasture, tile := k.src, core := 0, eng := .message, exTile := k.src
                     op := .fdone, ctr := some pa, st := .ending 0 0 err }
    ({ s with cmds := s.cmds ++ [c] }).endCmd c
/-- What an acknowledgement ends at its issuer: a write of a command is acknowledged (R32), a push is complete once its record
is inserted (R379), and a message's counter is completed once it is accepted (R399). -/
def State.ackDone (s : State) (n : Nat) : State :=
  match s.unacked.find? (·.id == n) with
  | some k =>
    match k.body, k.party with
    | .post (.push c _), _ => (s.cmd c).elim s (fun c => s.finishCmd c none)
    | .post (.msg m), _ | .post (.event m), _ => s.msgDone k m none
    | _, .cmd c => s.fillLog c k.key (.val 0)
    | _, _ => s
  | none => s
/-- POSTED_ACK (R80): the acknowledgement, packet inp.k, reaches the issuing tile. -/
def execPostedAck (s : State) : Out :=
  match s.packet s.inp.k with
  | some k =>
    match k.body with
    | .ack n => .next (((s.accept k).ackDone n).freeEntry n)
    | _ => .next s
  | none => .next s
/-- Records the first failed posted operation of a strand (R193); a command notes the cause at the access. -/
def State.recordFail (s : State) (p : Party) (key cause : Nat) (addr : Word) : State :=
  let note (st : Strand) : Strand := if st.fail.isNone then { st with fail := some (cause, addr) } else st
  match p with
  | .strand sid => s.onStrand sid note
  | .ctl p c => s.updCtl p c (fun k => { k with ctx := note k.ctx })
  | .cmd n => s.fillLog n key (.fault cause)
  | .walk _ _ => s
/-- The SID of the strand that a party acts for, or 0. -/
def State.partySid (s : State) (p : Party) : Word :=
  match p with
  | .strand sid => sid
  | .cmd n => ((s.cmds.find? (·.id == n)).map (·.sid)).getD 0
  | .ctl _ _ | .walk _ _ => 0
/-- A command whose home was lost before it was installed or queued there: the issuing tile performs its completion (R289,
R328). A record pushed to a lost unit is counted as popped and done (R386). -/
def State.loseCmd (s : State) (n : Nat) : State :=
  match s.unacked.find? (·.id == n) with
  | some k =>
    match k.body with
    | .post (.bank c) | .post (.mxsend c _) => (s.cmd c).elim s (fun c =>
        (s.updCmd c.id (fun c => { c with exTile := c.tile, ord := 0 })).finishCmd { c with exTile := c.tile } (some cHomeLost))
    | .post (.push c _) => (s.cmd c).elim s (fun c =>
        (s.updTl c.tile (fun x => { x with flock := { x.flock with
          popped := x.flock.popped + 1, finished := x.flock.finished + 1 } })).finishCmd c none)
    | _ => s
  | none => s
/-- A failed acknowledgement k of posted operation n takes effect at its issuer (R193). -/
def State.failedBack (s : State) (k : Packet) (n cause : Nat) (addr : Word) : State :=
  let key := ((s.unacked.find? (·.id == n)).map (·.key)).getD 0
  (((s.loseCmd n).recordFail k.party key cause addr).freeEntry n).failEvent k.pasture k.dst cause (s.partySid k.party) addr
/-- FAILED_ACK (R193): the failed acknowledgement, packet inp.k, reaches the issuing tile. -/
def execFailedAck (s : State) : Out :=
  match s.packet s.inp.k with
  | some k =>
    match k.body with
    | .nack n cause addr => .next ((s.accept k).failedBack k n cause addr)
    | _ => .next s
  | none => .next s

/-! ### Drops and retransmission (R390, R392) -/

/-- PACKET_DROP (R390): a router of tile inp.l drops packet inp.k of class 1 or 2; class 0 is never dropped (R392). -/
def execPacketDrop (s : State) : Out :=
  match s.packet s.inp.k with
  | some k => if k.cls = 1 || k.cls = 2 then .next ((s.bump s.inp.l (0x1000 + 48) 1).refuse k) else .next s
  | none => .next s
/-- REFUSAL_NOTICE (R82, R390): the notice, packet inp.k, reaches the source, which will send the packet again. -/
def execRefusalNotice (s : State) : Out :=
  match s.packet s.inp.k with
  | some k =>
    match k.body with
    | .refused n =>
      match s.dropped.find? (·.id == n) with
      | some d =>
        let s := s.take k
        .next { s with dropped := ldel (·.id == n) s.dropped, resend := s.resend ++ [{ d with tries := d.tries + 1 }] }
      | none => .next (s.take k)
    | _ => .next s
  | none => .next s
/-- RETRANSMIT (R390): packet inp.k is sent again, counted at its source. -/
def execRetransmit (s : State) : Out :=
  match s.resend.find? (·.id == s.inp.k) with
  | some k =>
    let s := { s with resend := ldel (·.id == s.inp.k) s.resend }
    .next ((if k.src < 16384 then s.bump k.src (0x1000 + 56) 1 else s).journey k)
  | none => .next s
/-- CLASS0_TOKEN_RETURN (R392): the token of tile inp.k is back. -/
def execClass0TokenReturn (s : State) : Out := .next (s.updTl s.inp.k (fun x => { x with token := true }))

end Sys2Proof.Machine
end

