-- ==== Sys2Proof/Machine/VectorMath.lean ====
section
/-! DEFINITION. What each vector instruction computes from its operands (R249, R265 to R277), as pure functions of register
images: the short unit and the sequencer of the long unit use the same ones. -/

namespace Sys2Proof.Machine

open Sys2Proof

/-! ### Inputs and results -/

/-- The operands of a vector instruction: register images of w bits, a general register, and what it takes of SW and FMT. -/
structure VIn where
  w : Nat                           -- register width
  a : Nat := 0
  b : Nat := 0
  d : Nat := 0                      -- the destination's old image
  x : Word := 0                     -- the general register of VBCAST and VEXT
  rm : Nat := 0                     -- SW.RM
  ftz : Bool := false               -- SW.FTZ
  vsat : Bool := false              -- FMT.VSAT
  deriving DecidableEq, Repr

/-- A result: the image of the destination, and the flags raised. -/
structure VRes where
  val : Nat
  fl : Flags := 0
  deriving DecidableEq, Repr

/-- The full type code that ety and rnd name (R69, R249); n64 has none of its own and is tyN64. -/
def vecTy (e r : BitVec 3) : Nat :=
  if e.toNat < 7 then e.toNat
  else match r.toNat with
    | 0 => 8 | 1 => 9 | 2 => 10 | 3 => 11 | 4 => 12 | 5 => 13 | 6 => 14 | _ => tyN64
/-- The rounding mode: SW.RM for code 7, and for integer elements (R68, R274). -/
def VIn.mode (v : VIn) (e r : BitVec 3) : Nat := if e = 7 ∨ r = 7 then v.rm else r.toNat
/-- FMT.VSAT saturates results of the 8-bit floating types (R265). -/
def VIn.sat (v : VIn) (c : Nat) : Bool := v.vsat && (c == 4 || c == 5 || c == 6)
/-- Elements of a type in a register (R249). -/
def VIn.count (v : VIn) (c : Nat) : Nat := v.w / tyW c
/-- The elements of va. -/
def VIn.as (v : VIn) (c : Nat) : List Nat := elems v.a (tyW c) (v.count c)
/-- The elements of vb. -/
def VIn.bs (v : VIn) (c : Nat) : List Nat := elems v.b (tyW c) (v.count c)
/-- The elements of old vd. -/
def VIn.ds (v : VIn) (c : Nat) : List Nat := elems v.d (tyW c) (v.count c)
/-- The flags of all elements together. -/
def joinFlags (l : List FRes) : Flags := l.foldl (fun f r => f ||| r.fl) 0
/-- Elements of width w into a register image. -/
def lanes (w : Nat) (l : List FRes) : VRes := { val := packElems w (l.map (·.bits)), fl := joinFlags l }
/-- Elements without flags. -/
def plainLanes (w : Nat) (l : List Nat) : VRes := { val := packElems w l }

/-! ### Element-wise operations (R267, R268, R277) -/

/-- One element of a floating operation of two operands. -/
def VIn.fop (v : VIn) (c m : Nat) (f : FVal → FVal → Ex) (a b : Nat) : FRes :=
  roundEx c m (v.sat c) v.ftz (f (decodeF c a v.ftz) (decodeF c b v.ftz))
/-- A floating or integer operation, element by element. -/
def VIn.arith (v : VIn) (e r : BitVec 3) (f : FVal → FVal → Ex) (g : Int → Int → Int) : VRes :=
  let c := vecTy e r
  let m := v.mode e r
  lanes (tyW c) (List.zipWith (fun a b =>
    if c ≤ 6 then v.fop c m f a b else { bits := encodeInt c (g (decodeInt c a) (decodeInt c b)), fl := 0 }) (v.as c) (v.bs c))
/-- VADD. -/
def evalVadd (e r : BitVec 3) (v : VIn) : VRes := v.arith e r (addF (v.mode e r)) (· + ·)
/-- VSUB. -/
def evalVsub (e r : BitVec 3) (v : VIn) : VRes := v.arith e r (fun a b => addF (v.mode e r) a (negF b)) (· - ·)
/-- VMUL. -/
def evalVmul (e r : BitVec 3) (v : VIn) : VRes := v.arith e r mulF (· * ·)
/-- The smaller or larger of two elements (R162, R267). -/
def VIn.pick (v : VIn) (c : Nat) (mx : Bool) (a b : Nat) : FRes :=
  if c ≤ 6 then minMaxF c mx v.ftz a b
  else { bits := if (decodeInt c a < decodeInt c b) == mx then b else a, fl := 0 }
/-- VMIN. -/
def evalVmin (e r : BitVec 3) (v : VIn) : VRes :=
  let c := vecTy e r
  lanes (tyW c) (List.zipWith (v.pick c false) (v.as c) (v.bs c))
/-- VMAX. -/
def evalVmax (e r : BitVec 3) (v : VIn) : VRes :=
  let c := vecTy e r
  lanes (tyW c) (List.zipWith (v.pick c true) (v.as c) (v.bs c))
/-- A floating element with its sign bit changed: the D8 codes 0x00 and 0x80 stay (R267). -/
def signTo (c x : Nat) (f : Bool → Bool) : Nat :=
  let h := 2 ^ (tyW c - 1)
  if c = 6 && x % h = 0 then x else x % h + if f (x / h % 2 == 1) then h else 0
/-- VABS. -/
def evalVabs (e r : BitVec 3) (v : VIn) : VRes :=
  let c := vecTy e r
  plainLanes (tyW c) ((v.as c).map (fun a => if c ≤ 6 then signTo c a (fun _ => false) else encodeInt c (decodeInt c a).natAbs))
/-- VNEG. -/
def evalVneg (e r : BitVec 3) (v : VIn) : VRes :=
  let c := vecTy e r
  plainLanes (tyW c) ((v.as c).map (fun a => if c ≤ 6 then signTo c a (fun n => !n) else encodeInt c (-decodeInt c a)))
/-- A floating or integer operation of three operands. -/
def VIn.arith3 (v : VIn) (e r : BitVec 3) (f : FVal → FVal → FVal → Ex) (g : Int → Int → Int → Int) : VRes :=
  let c := vecTy e r
  let m := v.mode e r
  lanes (tyW c) (List.zipWith (fun d (p : Nat × Nat) =>
    if c ≤ 6 then
      roundEx c m (v.sat c) v.ftz (f (decodeF c d v.ftz) (decodeF c p.1 v.ftz) (decodeF c p.2 v.ftz))
    else { bits := encodeInt c (g (decodeInt c d) (decodeInt c p.1) (decodeInt c p.2)), fl := 0 })
    (v.ds c) ((v.as c).zip (v.bs c)))
/-- VFMA. -/
def evalVfma (e r : BitVec 3) (v : VIn) : VRes := v.arith3 e r (fmaF (v.mode e r)) (fun d a b => d + a * b)
/-- VFMS. -/
def evalVfms (e r : BitVec 3) (v : VIn) : VRes :=
  v.arith3 e r (fun d a b => fmaF (v.mode e r) d (negF a) b) (fun d a b => d - a * b)

/-! ### Bits and shifts (R269) -/

/-- VAND. -/
def evalVand (_e _r : BitVec 3) (v : VIn) : VRes := { val := v.a &&& v.b }
/-- VOR. -/
def evalVor (_e _r : BitVec 3) (v : VIn) : VRes := { val := v.a ||| v.b }
/-- VXOR. -/
def evalVxor (_e _r : BitVec 3) (v : VIn) : VRes := { val := v.a ^^^ v.b }
/-- VSHL. -/
def evalVshl (e r : BitVec 3) (v : VIn) : VRes :=
  let c := vecTy e r
  plainLanes (tyW c) (List.zipWith (fun a b => a * 2 ^ (b % tyW c)) (v.as c) (v.bs c))
/-- VSHR. -/
def evalVshr (e r : BitVec 3) (v : VIn) : VRes :=
  let c := vecTy e r
  plainLanes (tyW c) (List.zipWith (fun a b => encodeInt c (decodeInt c a / (2 ^ (b % tyW c) : Nat))) (v.as c) (v.bs c))

/-! ### Compares and selection (R270) -/

/-- An integer compare, conditions 0 to 5 in the order of R164. -/
def cmpInt (fc : Nat) (a b : Int) : Bool :=
  match fc with
  | 0 => a == b
  | 1 => a != b
  | 2 => a < b
  | 3 => a ≤ b
  | 4 => b < a
  | _ => b ≤ a
/-- VCMP. -/
def evalVcmp (e r k : BitVec 3) (v : VIn) : VRes :=
  let c := vecTy e r
  lanes (tyW c) (List.zipWith (fun a b =>
    let (t, f) := if c ≤ 6 then cmpF k.toNat (decodeF c a v.ftz) (decodeF c b v.ftz)
      else (cmpInt k.toNat (decodeInt c a) (decodeInt c b), 0)
    { bits := if t then 2 ^ tyW c - 1 else 0, fl := f }) (v.as c) (v.bs c))
/-- VSEL. -/
def evalVsel (_e _r : BitVec 3) (v : VIn) : VRes := { val := (v.a &&& v.d) ||| (v.b &&& ((2 ^ v.w - 1) ^^^ v.d % 2 ^ v.w)) }

/-! ### Movement (R271) -/

/-- VBCAST. -/
def evalVbcast (e r : BitVec 3) (v : VIn) : VRes :=
  let c := vecTy e r
  plainLanes (tyW c) (List.replicate (v.count c) v.x.toNat)
/-- VEXT: the word for gd. -/
def evalVext (e r : BitVec 3) (v : VIn) : VRes :=
  let c := vecTy e r
  let k := v.x.toNat
  let a := elem v.a (tyW c) k
  { val := if v.count c ≤ k then 0 else if isSigned c then wrapInt 64 (signedOf (tyW c) a) else a }
/-- VPERM. -/
def evalVperm (e r : BitVec 3) (v : VIn) : VRes :=
  let c := vecTy e r
  plainLanes (tyW c) ((v.bs c).map (fun b => elem v.a (tyW c) (b % v.count c)))

/-! ### Reductions (R272) -/

/-- The pairwise reduction: the second half is folded onto the first until one element is left. -/
def pairwise (f : Nat → Nat → FRes) : Nat → List Nat → Flags → FRes
  | 0, l, fl => { bits := l.headD 0, fl := fl }
  | k + 1, l, fl =>
    if l.length ≤ 1 then { bits := l.headD 0, fl := fl }
    else
      let h := List.zipWith f (l.take (l.length / 2)) (l.drop (l.length / 2))
      pairwise f k (h.map (·.bits)) (fl ||| joinFlags h)
/-- The reduction of va into element 0. -/
def VIn.reduce (v : VIn) (c : Nat) (f : Nat → Nat → FRes) : VRes :=
  let r := pairwise f 10 (v.as c) 0
  { val := r.bits % 2 ^ tyW c, fl := r.fl }
/-- VRED.ADD. -/
def evalVredAdd (e r : BitVec 3) (v : VIn) : VRes :=
  let c := vecTy e r
  v.reduce c (fun a b =>
    if c ≤ 6 then v.fop c (v.mode e r) (addF (v.mode e r)) a b
    else { bits := (a + b) % 2 ^ tyW c, fl := 0 })
/-- VRED.MIN. -/
def evalVredMin (e r : BitVec 3) (v : VIn) : VRes := v.reduce (vecTy e r) (v.pick (vecTy e r) false)
/-- VRED.MAX. -/
def evalVredMax (e r : BitVec 3) (v : VIn) : VRes := v.reduce (vecTy e r) (v.pick (vecTy e r) true)

/-! ### Distances (R273) -/

/-- The exact sum of exact values, with their flags. -/
def sumEx (mode : Nat) : List Ex → Ex
  | [] => (.fin false 0 1, 0)
  | x :: l => l.foldl (fun s y => let (r, f) := addF mode s.1 y.1; (r, f ||| s.2 ||| y.2)) x
/-- The type of the result: FP64 for FP64 elements, else FP32. -/
def dotTy (c : Nat) : Nat := if c = 1 then 1 else 0
/-- NaN operands give NaN with the flags of R121, whatever else there is. -/
def nanFirst (l : List FVal) (k : Ex) : Ex :=
  if l.any (·.isNaN) then (.nan false, flagIf (l.any (·.signals)) fNV) else k
/-- The value of a cosine: an infinite operand and a zero vector are invalid. -/
def cosEx (mode frac : Nat) (x y : List FVal) : Ex :=
  let inf (a : FVal) : Bool := match a with | .inf _ => true | _ => false
  let sq (l : List FVal) : FVal := (sumEx mode (l.map (fun a => mulF a a))).1
  match (sumEx mode (List.zipWith mulF x y)).1, sq x, sq y with
  | .fin s n d, .fin _ an ad, .fin _ bn bd =>
    if (x ++ y).any inf || an = 0 || bn = 0 then invalid
    else if n = 0 then (.fin s 0 1, 0)
    else
      let q := sqrtQ frac (n * n * (ad * bd)) (d * d * (an * bn))
      (.fin s q.1 q.2, 0)
  | _, _, _ => invalid
/-- A distance rounded once into element 0. -/
def VIn.dist (v : VIn) (e r : BitVec 3) (x : Ex) : VRes :=
  let c := dotTy (vecTy e r)
  let f := roundEx c (v.mode e r) false v.ftz x
  { val := f.bits, fl := f.fl }
/-- The values of va. -/
def VIn.fa (v : VIn) (c : Nat) : List FVal := (v.as c).map (fun a => decodeF c a v.ftz)
/-- The values of vb. -/
def VIn.fb (v : VIn) (c : Nat) : List FVal := (v.bs c).map (fun a => decodeF c a v.ftz)
/-- An integer sum over the elements, modulo 2^64. -/
def VIn.isum (v : VIn) (c : Nat) (f : Int → Int → Int) : VRes :=
  { val := wrapInt 64 ((List.zipWith (fun a b => f (decodeInt c a) (decodeInt c b)) (v.as c) (v.bs c)).foldl (· + ·) 0) }
/-- VDOT.IP. -/
def evalVdotIp (e r : BitVec 3) (v : VIn) : VRes :=
  let c := vecTy e r
  if c ≤ 6 then
    v.dist e r (nanFirst (v.fa c ++ v.fb c) (sumEx (v.mode e r) (List.zipWith mulF (v.fa c) (v.fb c))))
  else v.isum c (· * ·)
/-- VDOT.COS. -/
def evalVdotCos (e r : BitVec 3) (v : VIn) : VRes :=
  let c := vecTy e r
  v.dist e r (nanFirst (v.fa c ++ v.fb c) (cosEx (v.mode e r) (ffmt (dotTy c)).frac (v.fa c) (v.fb c)))
/-- VDOT.COSN: old vd element 0, in the result format, is the reciprocal of the product of the norms. -/
def evalVdotCosn (e r : BitVec 3) (v : VIn) : VRes :=
  let c := vecTy e r
  let n := decodeF (dotTy c) (elem v.d (tyW (dotTy c)) 0) v.ftz
  let s := sumEx (v.mode e r) (List.zipWith mulF (v.fa c) (v.fb c))
  let p := mulF s.1 n
  v.dist e r (nanFirst (n :: v.fa c ++ v.fb c) (p.1, p.2 ||| s.2))
/-- VDOT.L2. -/
def evalVdotL2 (e r : BitVec 3) (v : VIn) : VRes :=
  let c := vecTy e r
  if c ≤ 6 then
    v.dist e r (nanFirst (v.fa c ++ v.fb c) (sumEx (v.mode e r) (List.zipWith (fun a b =>
      let (x, f) := addF (v.mode e r) a (negF b)
      let (y, g) := mulF x x
      (y, f ||| g)) (v.fa c) (v.fb c))))
  else v.isum c (fun a b => (a - b) * (a - b))

/-! ### Formats (R274) -/

/-- VCVT: x is the destination type, y the source type. -/
def evalVcvt (x : RegNo) (r : BitVec 3) (sat : Bool) (y : RegNo) (v : VIn) : VRes :=
  lanes (tyW x.toNat) ((v.as y.toNat).map (convert y.toNat x.toNat (v.mode 0 r) sat v.ftz))
/-- VPACK: y is the destination type. -/
def evalVpack (e r : BitVec 3) (sat : Bool) (y : RegNo) (v : VIn) : VRes :=
  let c := vecTy e r
  lanes (tyW y.toNat) ((v.as c ++ v.bs c).map (convert c y.toNat (v.mode e r) sat v.ftz))
/-- VUNPACK: y is the source type. -/
def evalVunpack (half : Bool) (r e : BitVec 3) (y : RegNo) (v : VIn) : VRes :=
  let c := vecTy e r
  let n := v.count c
  lanes (tyW c) ((((v.as y.toNat).drop (if half then n else 0)).take n).map (convert y.toNat c (v.mode e r) false v.ftz))
/-- One element times a block scale of E8M0 code k. -/
def scaleElem (c m : Nat) (sat flush : Bool) (a k : Nat) : FRes :=
  if k = 255 then { bits := canonNaN c, fl := fNV }
  else roundEx c m sat flush (mulF (decodeF c a flush) (scaled false 1 ((k : Int) - 127)))
/-- VSCALE: y is the type. -/
def evalVscale (r : BitVec 3) (y : RegNo) (v : VIn) : VRes :=
  let c := y.toNat
  lanes (tyW c) (((v.as c).zipIdx).map (fun p => scaleElem c (v.mode 0 r) (v.sat c) v.ftz p.1 (elem v.b 8 (p.2 / 32))))

/-! ### Special functions (R275 to R277) -/

/-- A special function, element by element. -/
def VIn.special (v : VIn) (e r : BitVec 3) (f : FVal → Ex) : VRes :=
  let c := vecTy e r
  lanes (tyW c) ((v.as c).map (fun a => roundSpecial c (v.mode e r) v.ftz (f (decodeF c a v.ftz))))
/-- VRCP. -/
def evalVrcp (e r : BitVec 3) (v : VIn) : VRes := v.special e r rcpF
/-- VRSQ. -/
def evalVrsq (e r : BitVec 3) (v : VIn) : VRes := v.special e r (rsqF (ffmt (vecTy e r)).frac)
/-- Whether bits are subnormal. -/
def isSubnormal (c x : Nat) : Bool :=
  let m := x % 2 ^ (tyW c - 1)
  m != 0 && m < 2 ^ (ffmt c).frac
/-- VEXP2; R276 gives 1 and NX for a subnormal that is not flushed. -/
def evalVexp2 (e r : BitVec 3) (v : VIn) : VRes :=
  let c := vecTy e r
  lanes (tyW c) ((v.as c).map (fun a =>
    if isSubnormal c a && !v.ftz then { bits := (ffmt c).bias * 2 ^ (ffmt c).frac, fl := fNX }
    else roundSpecial c (v.mode e r) v.ftz (exp2Ex (decodeF c a v.ftz))))
/-- VLOG2. -/
def evalVlog2 (e r : BitVec 3) (v : VIn) : VRes := v.special e r log2Ex
/-- The first two rows of R277: an infinite approximation of a zero, or a zero one of an infinity. -/
def passes (y x : FVal) : Bool :=
  match y, x with
  | .inf _, .fin _ n _ => n == 0
  | .fin _ n _, .inf _ => n == 0
  | _, _ => false
/-- A Newton step, element by element: y from va, x from vb. -/
def VIn.newton (v : VIn) (e r : BitVec 3) (f : FVal → FVal → Ex) : VRes :=
  let c := vecTy e r
  lanes (tyW c) (List.zipWith (fun a b =>
    let y := decodeF c a v.ftz
    let x := decodeF c b v.ftz
    if passes y x then { bits := flushBits c a v.ftz, fl := 0 }
    else roundEx c (v.mode e r) false v.ftz (nanFirst [y, x] (f y x))) (v.as c) (v.bs c))
/-- An operation after another, with the flags of both. -/
def bindEx (x : Ex) (f : FVal → Ex) : Ex := let (r, g) := f x.1; (r, g ||| x.2)
/-- VRCPN: y × (2 − x × y). -/
def evalVrcpn (e r : BitVec 3) (v : VIn) : VRes :=
  v.newton e r (fun y x =>
    bindEx (mulF x y) (fun p => bindEx (addF (v.mode e r) (.fin false 2 1) (negF p)) (mulF y)))
/-- VRSQN: y × (3 − x × y²) / 2. -/
def evalVrsqn (e r : BitVec 3) (v : VIn) : VRes :=
  v.newton e r (fun y x =>
    bindEx (mulF y y) (fun q => bindEx (mulF x q) (fun p =>
      bindEx (addF (v.mode e r) (.fin false 3 1) (negF p)) (fun t => bindEx (mulF y t) (mulF (.fin false 1 2))))))

/-! ### The instruction's operands and its result -/

/-- The operand fields of a vector arithmetic instruction. -/
structure VForm where
  long : Bool
  d : RegNo
  a : RegNo
  b : RegNo := 0
  sb : Bool := false
  turns : Nat := 1
  deriving DecidableEq, Repr

/-- Turns of the special functions (R144, R265). -/
def specialTurns (e : BitVec 3) : Nat := if e = 1 then 2 else 1
/-- The fields of each vector arithmetic instruction. -/
def vecForm (i : Instr) : VForm :=
  match i with
  | .vadd l d a b _ _ sb | .vsub l d a b _ _ sb | .vmul l d a b _ _ sb | .vmin l d a b _ _ sb | .vmax l d a b _ _ sb
  | .vfma l d a b _ _ sb | .vfms l d a b _ _ sb | .vand l d a b _ _ sb | .vor l d a b _ _ sb | .vxor l d a b _ _ sb
  | .vshl l d a b _ _ sb | .vshr l d a b _ _ sb | .vsel l d a b _ _ sb | .vperm l d a b _ _ sb =>
    { long := l, d := d, a := a, b := b, sb := sb }
  | .vcmp l d a b _ _ sb _ => { long := l, d := d, a := a, b := b, sb := sb }
  | .vdotIp l d a b _ _ sb | .vdotCos l d a b _ _ sb | .vdotCosn l d a b _ _ sb | .vdotL2 l d a b _ _ sb =>
    { long := l, d := d, a := a, b := b, sb := sb, turns := 2 }
  | .vrcpn l d a b _ e sb | .vrsqn l d a b _ e sb => { long := l, d := d, a := a, b := b, sb := sb, turns := specialTurns e }
  | .vrcp l d a _ e | .vrsq l d a _ e | .vexp2 l d a _ e | .vlog2 l d a _ e =>
    { long := l, d := d, a := a, turns := specialTurns e }
  | .vredAdd l d a _ _ | .vredMin l d a _ _ | .vredMax l d a _ _ => { long := l, d := d, a := a, turns := 2 }
  | .vabs l d a _ _ | .vneg l d a _ _ => { long := l, d := d, a := a }
  | .vbcast l d _ _ _ => { long := l, d := d, a := 0 }
  | .vext l _ a _ _ _ => { long := l, d := 0, a := a }
  | .vcvt l d a _ _ _ _ => { long := l, d := d, a := a }
  | .vpack l d a b _ _ _ _ => { long := l, d := d, a := a, b := b }
  | .vunpack l d a _ _ _ _ => { long := l, d := d, a := a }
  | .vscale l d a b _ _ => { long := l, d := d, a := a, b := b }
  | _ => { long := false, d := 0, a := 0 }
/-- The result of a vector arithmetic instruction. -/
def vecEval (i : Instr) (v : VIn) : VRes :=
  match i with
  | .vadd _ _ _ _ r e _ => evalVadd e r v
  | .vsub _ _ _ _ r e _ => evalVsub e r v
  | .vmul _ _ _ _ r e _ => evalVmul e r v
  | .vmin _ _ _ _ r e _ => evalVmin e r v
  | .vmax _ _ _ _ r e _ => evalVmax e r v
  | .vabs _ _ _ r e => evalVabs e r v
  | .vneg _ _ _ r e => evalVneg e r v
  | .vfma _ _ _ _ r e _ => evalVfma e r v
  | .vfms _ _ _ _ r e _ => evalVfms e r v
  | .vand _ _ _ _ r e _ => evalVand e r v
  | .vor _ _ _ _ r e _ => evalVor e r v
  | .vxor _ _ _ _ r e _ => evalVxor e r v
  | .vshl _ _ _ _ r e _ => evalVshl e r v
  | .vshr _ _ _ _ r e _ => evalVshr e r v
  | .vcmp _ _ _ _ r e _ k => evalVcmp e r k v
  | .vsel _ _ _ _ r e _ => evalVsel e r v
  | .vbcast _ _ _ r e => evalVbcast e r v
  | .vext _ _ _ _ r e => evalVext e r v
  | .vperm _ _ _ _ r e _ => evalVperm e r v
  | .vredAdd _ _ _ r e => evalVredAdd e r v
  | .vredMin _ _ _ r e => evalVredMin e r v
  | .vredMax _ _ _ r e => evalVredMax e r v
  | .vdotIp _ _ _ _ r e _ => evalVdotIp e r v
  | .vdotCos _ _ _ _ r e _ => evalVdotCos e r v
  | .vdotCosn _ _ _ _ r e _ => evalVdotCosn e r v
  | .vdotL2 _ _ _ _ r e _ => evalVdotL2 e r v
  | .vcvt _ _ _ x r sat y => evalVcvt x r sat y v
  | .vpack _ _ _ _ r e sat y => evalVpack e r sat y v
  | .vunpack _ _ _ half r e y => evalVunpack half r e y v
  | .vscale _ _ _ _ r y => evalVscale r y v
  | .vrcp _ _ _ r e => evalVrcp e r v
  | .vrcpn _ _ _ _ r e _ => evalVrcpn e r v
  | .vrsq _ _ _ r e => evalVrsq e r v
  | .vrsqn _ _ _ _ r e _ => evalVrsqn e r v
  | .vexp2 _ _ _ r e => evalVexp2 e r v
  | .vlog2 _ _ _ r e => evalVlog2 e r v
  | _ => { val := 0 }

end Sys2Proof.Machine
end

