-- ==== Sys2Proof/Machine/Bank.lean ====
section
/-! DEFINITION. The bank engine (R278 to R291): issue, installation, execution over the range, completion. -/

namespace Sys2Proof.Machine

open Sys2Proof

/-! ### The descriptor (R279, R280) -/

/-- Types that a bank command accepts; exps: BEXPS. -/
def bankType (exps : Bool) (c : Nat) : Bool := if exps then c == 0 || c == 2 else c ≤ 3 || c == 10 || c == 11
/-- Bytes of an element. -/
def bankSize (c : Nat) : Nat := tyW c / 8
/-- The range is read only (BSUM, BEXPS). -/
def bankReads (i : Instr) : Bool := match i with | .bexps .. | .bsum .. => true | _ => false
/-- BEXPS. -/
def bankExps (i : Instr) : Bool := match i with | .bexps .. => true | _ => false
/-- The command has a source. -/
def bankSrc (i : Instr) : Bool := match i with | .badd .. | .baxpy .. | .bmax .. => true | _ => false
/-- AUXA may be other than 0: the whole of it, or its low half (R283). -/
def bankAux (i : Instr) (rescale : Bool) (v : Nat) : Bool :=
  match i with
  | .baxpy .. | .bscale .. | .bfill .. => true
  | .bexps .. => if rescale then v == 0 else v < 2 ^ 32
  | _ => v == 0
/-- DST, SRC, AUXA, RES, LEN, TYPE, BFLG and FLAGOUT of a descriptor. -/
structure BankDesc where
  dst : Word
  src : Word
  aux : Nat
  res : Word
  len : Nat
  ty : Nat
  rescale : Bool
  flagout : Word
  deriving DecidableEq, Repr
/-- Reads a descriptor. -/
def bankDesc (bs : List Byte) : BankDesc :=
  { dst := wd (bfield bs 0 8), src := wd (bfield bs 8 8), aux := bfield bs 0x10 8, res := wd (bfield bs 0x18 8)
    len := bfield bs 0x20 4, ty := bfield bs 0x24 1, rescale := bfield bs 0x25 1 % 2 == 1, flagout := wd (bfield bs 0x28 8) }

/-! ### Issue (R285) -/

/-- A translation that the C slot makes once; it takes the trap with the address (R285). -/
def State.oncePa (s : State) (key : Nat) (va : Word) (need : Need) (k : State → Nat → State) : State :=
  s.once key (fun s k => s.withPa va need k) k
/-- Queues a bank command. One for another tile is numbered among the strand's posted operations now, and is sent when the
engine accepts it (R83, R88, R286). -/
def State.queueBank (s : State) (op : Instr) (p : BitVec 2) (f : Cmd → Cmd) (ex : Nat) : State :=
  if ex != s.here && !s.postRoom s.x.me.party s.here then s.park (.acks 4)
  else s.issueCmd .bank op p (fun c => { f c with exTile := ex }) (fun s =>
    match s.cmds.getLast? with
    | some c =>
      if ex = c.tile then s.adv
      else
        let (k, s) := s.numberPost (.strand c.sid) c.tile ex c.pasture 1 (.bank c.id) 0
        { s with waiting := s.waiting ++ [k] }.adv
    | none => s.adv)
/-- Issue of a bank command (R285). The range is kept physically; a range that R278 does not allow, or that is empty, holds no
word: hi is then lo, and num tells that the range is allowed. -/
def bankOp (op : Instr) (a b : RegNo) (p : BitVec 2) (s : State) : Out :=
  .next (s.withDesc (s.g a) (s.g b) 64 64 false (fun s bs ctr =>
    let d := bankDesc bs
    let need := if bankReads op then needR else needW
    s.oncePa 3 d.dst need (fun s pa =>
      let spad : Bool := nfield pa 45 11 == s.devnum.toNat && nfield pa 42 3 == 1
      if !spad then s.trapC cProt d.dst
      else
        let lo := localOf pa
        let n := d.len * bankSize d.ty
        let queue (s : State) (hi : Nat) (ok : Bool) : State :=
          s.queueBank op p (fun c => { c with
            ctr := ctr, blk := bs, lo := lo, hi := if ok then hi else lo, num := if ok then 1 else 0 }) (tileOf lo)
        if 1 ≤ d.len && d.len ≤ 65536 && bankType (bankExps op) d.ty then
          s.oncePa 4 (d.dst + wd (n - 1)) need (fun s last =>
            queue s (lo + n) (last == pa + n - 1 && lo % bankSize d.ty == 0 && lo / 2 ^ 17 == (lo + n - 1) / 2 ^ 17))
        else queue s lo (bankType (bankExps op) d.ty && lo % bankSize d.ty == 0))))
/-- BADD (R280). -/
def execBadd (a b : RegNo) (p : BitVec 2) (s : State) : Out := bankOp (.badd a b p) a b p s
/-- BAXPY (R280). -/
def execBaxpy (a b : RegNo) (p : BitVec 2) (s : State) : Out := bankOp (.baxpy a b p) a b p s
/-- BSCALE (R280). -/
def execBscale (a b : RegNo) (p : BitVec 2) (s : State) : Out := bankOp (.bscale a b p) a b p s
/-- BMAX (R280). -/
def execBmax (a b : RegNo) (p : BitVec 2) (s : State) : Out := bankOp (.bmax a b p) a b p s
/-- BEXPS (R283). -/
def execBexps (a b : RegNo) (p : BitVec 2) (s : State) : Out := bankOp (.bexps a b p) a b p s
/-- BSUM (R282). -/
def execBsum (a b : RegNo) (p : BitVec 2) (s : State) : Out := bankOp (.bsum a b p) a b p s
/-- BFILL (R280). -/
def execBfill (a b : RegNo) (p : BitVec 2) (s : State) : Out := bankOp (.bfill a b p) a b p s

/-! ### Acceptance and installation (R286) -/

/-- The bank of a command: its tile and bank number together. -/
def Cmd.bankOf (c : Cmd) : Nat := c.lo / 2 ^ 17
/-- The installed commands of a bank. -/
def State.installed (s : State) (bank : Nat) : List Cmd :=
  s.cmds.filter (fun c => c.eng == .bank && c.st == .held && c.bankOf == bank)
/-- A command is installed: its place in the order of the bank is given. Once the table is full, BTFULL may count (R291; log 7). -/
def State.install (s : State) (c : Cmd) : State :=
  let (o, s) := s.fresh
  let s := s.updCmd c.id (fun c => { c with st := .held, ord := o })
  if (s.installed c.bankOf).length < 4 then s else s.bump c.exTile 0x230 1
/-- The bank engine accepts the head of a queue: a local command is installed, a remote one is sent as the posted operation that
it was numbered as; none where it must wait. -/
def State.acceptBank (s : State) (c : Cmd) : Option State :=
  if c.exTile = c.tile then
    if (s.installed c.bankOf).length < 4 then some ((s.install c).bump c.tile 0x200 1) else none
  else
    (s.waiting.find? (fun k => k.body == .post (.bank c.id))).map (fun k =>
      ({ s.updCmd c.id (fun c => { c with st := .sent }) with waiting := ldel (·.id == k.id) s.waiting }).launch k)
/-- BANK_INSTALL (R82, R100, R286): remote command inp.k, the first of its bank in the arrival buffer, is installed, and its
installation acknowledgement is sent. -/
def execBankInstall (s : State) : Out :=
  match s.cmd s.inp.k with
  | some c =>
    let first := least (fun a b => a.ord < b.ord)
      (s.cmds.filter (fun d => d.eng == .bank && d.st == .arrived && d.bankOf == c.bankOf))
    if !first.any (·.id == c.id) || 4 ≤ (s.installed c.bankOf).length then .next s
    else
      let s := ((s.install c).bump c.exTile 0x208 1).bump c.exTile (0x100 + 56) 1
      match s.unacked.find? (fun k => k.body == .post (.bank c.id)) with
      | some k =>
        let k := { k with dst := c.exTile }
        .next ((s.passSeq k).ackTo k (.ack k.id))
      | none => .next s
  | none => .next s

/-! ### Execution (R281 to R283, R287, R288) -/

/-- A malformed descriptor (R285), but for what needs translations. -/
def bankBad (c : Cmd) (d : BankDesc) : Bool :=
  let flg := bfield c.blk 0x25 1
  !recZero c.blk 0x26 2 || !recZero c.blk 0x30 16 || 2 ≤ flg || (flg != 0 && !bankExps c.op)
    || (d.src != 0 && !bankSrc c.op) || !bankAux c.op d.rescale d.aux || (d.res != 0 && !bankReads c.op)
    || !bankType (bankExps c.op) d.ty || 65536 < d.len || c.num = 0
    || (bankSrc c.op && d.src.toNat % bankSize d.ty != 0) || (bankReads c.op && d.res.toNat % 8 != 0)
    || d.flagout.toNat % 8 != 0
/-- The parts of a command's SRC range within units of 64 KiB, which no page divides: address, offset, bytes. -/
def bankSpans (d : BankDesc) : List (Word × Nat × Nat) :=
  let n := d.len * bankSize d.ty
  let u := 2 ^ 16
  let first := u - d.src.toNat % u
  if n = 0 then []
  else (d.src, 0, min n first) :: (List.range (ceilDiv (n - first) u)).map (fun i =>
    (d.src + wd (first + i * u), first + i * u, min u (n - first - i * u)))
/-- Where the parts of the SRC range lie, each with its offset and bytes; a part without a translation faults element by
element. -/
def Run.bankSrcAt (r : Run) (c : Cmd) (d : BankDesc) : List (Option Nat × Nat × Nat) × Run :=
  if !bankSrc c.op then ([], r)
  else (bankSpans d).foldl (fun (a : List (Option Nat × Nat × Nat) × Run) sp =>
    let (x, r) := (a.2.begin 1 a.1.length).once false (fun s _ _ =>
      match s.xlateAt c.pasture c.exTile sp.1 needNone with
      | none => s.engMiss c sp.1
      | some (.inr e) => (some (.fault e), s)
      | some (.inl pa) => (some (.val pa), s))
    (a.1 ++ [((match x with | .inl pa => some pa | .inr _ => none), sp.2.1, sp.2.2)], r)) ([], r)
/-- A SRC range that overlaps the range otherwise than by being it (R281); from and to: the range. A range of which one part lies in
place on the range and another part has no translation is not the range: the model takes it as malformed, where the spec does not say
whether it is that or a fault of those elements under R288 (DESIGN CHOICE, log 82). -/
def bankOverlap (from_ to_ : Nat) (l : List (Option Nat × Nat × Nat)) : Bool :=
  l.any (fun p => p.1.any (fun pa => from_ < pa + p.2.2 && pa < to_)) && !l.all (fun p => p.1 == some (from_ + p.2.1))
/-- The rights that RES needs: BSUM writes it, BEXPS reads and writes it. -/
def bankResNeed (i : Instr) : Need := if bankExps i then needRW else needW
/-- A RES that is not homed on the executing tile or overlaps the range (R285), whatever its rights; a RES without a translation, or
without the rights, is a fault at the end. -/
def Run.bankResBad (r : Run) (c : Cmd) (d : BankDesc) : Bool × Run :=
  if !bankReads c.op then (false, r)
  else
    let (x, r) := (r.begin 2 0).once false (fun s _ _ =>
      match s.xlateAt c.pasture c.exTile d.res needNone with
      | none => s.engMiss c d.res
      | some (.inr e) => (some (.fault e), s)
      | some (.inl pa) => (some (.val pa), s))
    ((match x with
      | .inl pa => r.s.homeOf pa != .tile c.exTile || (c.lo < c.hi && c.lo < localOf pa + 8 && localOf pa < c.hi)
      | .inr _ => false), r)
/-- The new value of a range element. -/
def bankElem (c : Cmd) (d : BankDesc) (x y : Nat) : FRes :=
  let t := d.ty
  let w := tyW t
  let m := c.mode
  let z := c.mftz
  let a := decodeF 1 d.aux z
  let f (e : Ex) : FRes := roundEx t m c.msat z e
  let i (v : Int) : FRes := { bits := encodeInt t v, fl := 0 }
  let ai := decodeInt t (d.aux % 2 ^ w)
  match c.op with
  | .badd .. => if t ≤ 3 then f (addF m (decodeF t x z) (decodeF t y z)) else i (decodeInt t x + decodeInt t y)
  | .baxpy .. =>
    if t ≤ 3 then f (fmaF m (decodeF t x z) a (decodeF t y z)) else i (ai * decodeInt t y + decodeInt t x)
  | .bscale .. => if t ≤ 3 then f (mulF a (decodeF t x z)) else i (ai * decodeInt t x)
  | .bmax .. => if t ≤ 3 then minMaxF t true z x y else i (max (decodeInt t x) (decodeInt t y))
  | _ => { bits := d.aux % 2 ^ w, fl := 0 }
/-- What a pass over a bank command's elements gathers. -/
structure BankRun where
  r : Run
  fl : Flags := 0
  err : Option Nat := none          -- the cause of the first faulting element
  xs : List Nat := []               -- elements read by BSUM and BEXPS, last first
  deriving DecidableEq, Repr
/-- A faulting element. -/
def BankRun.fault (b : BankRun) (r : Run) (e : Nat) : BankRun := { b with r := r, err := b.err <|> some e }
/-- Element i of the range (R288): its source, then the element itself, read or replaced. A source outside this device's DRAM and
scratchpad is PROT. An element that is replaced notes its flags. -/
def BankRun.element (b : BankRun) (c : Cmd) (d : BankDesc) (i : Nat) : BankRun :=
  let z := bankSize d.ty
  let key := c.lo + i * z
  let r := b.r.begin 3 i
  let src : (Nat ⊕ Nat) × Run :=
    if bankSrc c.op then
      let va := d.src + wd (i * z)
      r.at_ c false va needR (fun s pa k old =>
        match s.homeOf pa with
        | .tile _ => s.engRead c va pa z k old
        | _ => (some (.fault cProt), s))
    else (.inl 0, r)
  match src with
  | (.inr e, r) => b.fault r e
  | (.inl y, r) =>
    let (x, r) := r.once false (fun s _ _ =>
      if s.badAt key z then (some (.fault cMemerr), s.engineErr c.pasture c.exTile c.sid (d.dst + wd (i * z)))
      else
        let s := s.correct key z
        let x := s.rd key z
        if bankReads c.op then (some (.val x), s)
        else
          let v := bankElem c d x y
          (some (.val v.fl.toNat), s.st key z v.bits))
    match x with
    | .inr e => b.fault r e
    | .inl v =>
      let r := r.effect (fun s => s.bump c.exTile 0x220 1)
      if bankReads c.op then { b with r := r, xs := v :: b.xs }
      else { b with r := r, fl := b.fl ||| BitVec.ofNat 5 v }
/-- The word that BSUM writes (R282). -/
def bankSum (c : Cmd) (d : BankDesc) (xs : List Nat) : FRes :=
  let t := d.ty
  if 4 ≤ t then { bits := wrapInt 64 ((xs.map (decodeInt t)).foldl (· + ·) 0), fl := 0 }
  else
    let vs := xs.map (fun x => decodeF t x c.mftz)
    let (v, f) := nanFirst vs (sumEx c.mode (vs.map (fun v => (v, (0 : Flags)))))
    let v := if v.isZero then FVal.fin (!vs.isEmpty && (c.mode == 3 || vs.all (·.neg))) 0 1 else v
    roundEx (dotTy t) c.mode c.msat c.mftz (v, f)
/-- E(v) of R283, of the FP32 value that an exact difference rounds to. -/
def bankExp (c : Cmd) (x : Ex) : FRes :=
  let v := roundEx 0 0 c.msat c.mftz x
  let r := evalVexp2 0 0 { w := 32, a := v.bits, ftz := c.mftz }
  { bits := r.val, fl := r.fl ||| v.fl }
/-- The record that BEXPS leaves (R283), from the record before it and the elements as FP32 bits. -/
def bankExps32 (c : Cmd) (d : BankDesc) (old : Nat) (xs : List Nat) : FRes :=
  let nan := canonNaN 0
  let ninf := 0xFF800000
  let m0 := if d.rescale then old % 2 ^ 32 else ninf
  let s0 := if d.rescale then old / 2 ^ 32 else 0
  let xs := xs.map (fun x => flushBits 0 x c.mftz)
  let val (b : Nat) : FVal := decodeF 0 b false
  let m := if d.rescale then xs.foldl (fun m x => (minMaxF 0 true false m x).bits) m0 else d.aux % 2 ^ 32
  if (m0 :: s0 :: d.aux % 2 ^ 32 :: xs).any (fun b => (val b).isNaN) then { bits := nan + nan * 2 ^ 32, fl := fNV }
  else if val m = .inf true then { bits := ninf + s0 * 2 ^ 32, fl := 0 }
  else if val m = .inf false then { bits := 0x7F800000 + nan * 2 ^ 32, fl := fNV }
  else
    let diff (x : Nat) : FRes := bankExp c (addF 0 (val x) (negF (val m)))
    let ts := xs.map diff
    let r : FRes := if val m0 = .inf true then { bits := 0, fl := 0 } else diff m0
    let sum := sumEx c.mode (mulF (val s0) (val r.bits) :: ts.map (fun t => (val t.bits, (0 : Flags))))
    let v := roundEx 0 c.mode c.msat c.mftz sum
    { bits := m + v.bits * 2 ^ 32, fl := v.fl ||| r.fl ||| joinFlags ts }
/-- The result word of BSUM or BEXPS is written as one update, unless an element faulted (R283, R288). -/
def BankRun.result (b : BankRun) (c : Cmd) (d : BankDesc) : BankRun :=
  if !bankReads c.op || b.err.isSome then b
  else
    let (x, r) := (b.r.begin 4 0).at_ c false d.res (bankResNeed c.op) (fun s pa _ _ =>
      let key := localOf pa
      if bankExps c.op && d.rescale && s.badAt key 8 then
        (some (.fault cMemerr), s.engineErr c.pasture c.exTile c.sid d.res)
      else
        let v := if bankExps c.op then
            bankExps32 c d (s.rd key 8) (b.xs.reverse.map (fun x => if d.ty = 2 then x * 2 ^ 16 else x))
          else bankSum c d b.xs.reverse
        (some (.val v.fl.toNat), s.st key 8 v.bits))
    match x with
    | .inr e => b.fault r e
    | .inl fl => { b with r := r, fl := b.fl ||| BitVec.ofNat 5 fl }
/-- The entry of a command is removed: it has performed every access to its range (R287). -/
def Run.leaveBank (r : Run) (c : Cmd) : Run := { r with s := r.s.updCmd c.id (fun c => { c with st := .ran }) }
/-- A pass over a command at its bank: the checks, the elements, the entry's removal, the result word, and the completion. -/
def State.runBank (s : State) (c : Cmd) : State :=
  let d := bankDesc c.blk
  let base := s.devnum.toNat * 2 ^ 45
  let (l, r) := (s.run c).bankSrcAt c d
  let (res, r) := r.bankResBad c d
  if bankBad c d then (s.run c |>.leaveBank c).complete c 0 0 (some 0x40)
  else if r.pend then r.save c
  else if bankOverlap (base + c.lo) (base + c.hi) l || res then (r.leaveBank c).complete c 0 0 (some 0x40)
  else
    let b := (List.range d.len).foldl (fun b i => b.element c d i) { r := r : BankRun }
    if b.r.pend then b.r.save c
    else
      let b := BankRun.result { b with r := if c.st == .held then b.r.leaveBank c else b.r } c d
      b.r.complete c d.flagout b.fl b.err
/-- BANK_COMMAND_EXEC (R287): bank command inp.k goes on, once its gate is clear (R30): an installed one in its turn, the first of
its bank; or one whose entry is removed already. -/
def execBankCommandExec (s : State) : Out :=
  match s.cmd s.inp.k with
  | some c =>
    let first := least (fun a b => a.ord < b.ord) (s.installed c.bankOf)
    let turn : Bool := (c.st == .held && first.any (·.id == c.id)) || c.st == .ran
    if c.eng == .bank && turn && s.gateOpen c && !(s.tl c.exTile).failed then .next (s.runBank c) else .next s
  | none => .next s

end Sys2Proof.Machine
end

