-- ==== Sys2Proof/Machine/Control.lean ====
section
/-! DEFINITION. Control registers, time, traps, following, branches, compare-skip and addresses (R50, R57 to R59, R145 to
R153, R166 to R173, R420, R433). -/

namespace Sys2Proof.Machine

open Sys2Proof

/-! ### Control registers -/

/-- The value of a control register 0x00 to 0x13 of a context, as it stood before the bundle (R50, R53, R170). -/
def Strand.csr (st : Strand) (n : Nat) : Option Word :=
  match n with
  | 0x00 => some st.pcByte
  | 0x01 => some st.swRead
  | 0x02 => some st.vt
  | 0x03 => some st.fmt
  | 0x04 => some (zx st.sca)
  | 0x05 => some (zx st.scb)
  | 0x06 => some (if st.isCtl then 0 else zx st.budget)
  | 0x07 => some (if st.isCtl then 0 else zx st.deadline)
  | 0x08 => some (if st.isCtl then 0 else zx st.grp)
  | 0x09 => some (if st.isCtl then 0 else st.sid)
  | 0x0A => some (wd st.tile)
  | 0x10 => some st.utv
  | 0x11 => some st.utc
  | 0x12 => some st.utpc
  | 0x13 => some st.utval
  | _ => none
/-- SV_STAT (R420). -/
def Sv.stat (v : Sv) (p c : Nat) : Word := wd (p * 256 + c * 2 + if v.inh then 1 else 0)
/-- The value of a supervisor register of controller core c of paddock p (R420). -/
def State.svCsr (s : State) (p c n : Nat) : Option Word :=
  let v := (s.ctl p c).sv
  match n with
  | 0x80 => some v.vec
  | 0x81 => some v.epc
  | 0x82 => some v.cause
  | 0x83 => some v.sid
  | 0x84 => some v.spc
  | 0x85 => some v.val
  | 0x86 => some (zx v.past)
  | 0x87 => some (zx v.asp)
  | 0x88 => some (v.stat p c)
  | 0x89 => some (zx s.devnum)
  | 0x8A => some (wd (min 256 (s.pad p).svq.length))
  | _ => none
/-- CSRR (R50, R170, R420). The spec names no value of HOME on a controller core: a free value (log 15). -/
def execCsrr (d : RegNo) (c : BitVec 8) (s : State) : Out :=
  let n := c.toNat
  match s.x.me.place with
  | .ctl p k =>
    if n = 0x0A then
      let (v, s) := s.takeFree
      .next (s.wg d v).adv
    else match (if 0x80 ≤ n then s.svCsr p k n else s.x.src.csr n) with
      | some v => .next (s.wg d v).adv
      | none => .next s.illegalC
  | _ =>
    if 0x80 ≤ n then .next s.privC
    else match s.x.src.csr n with
      | some v => .next (s.wg d v).adv
      | none => .next s.illegalC

/-- FMT as a write or a launch leaves it: MRND 5 or 6 becomes 0, reserved bits read 0 (R9, R124). -/
def fmtOf (v : Word) : Word :=
  let f := nfield v.toNat 10 22 * 2 ^ 10
  if nfield f 13 3 = 5 ∨ nfield f 13 3 = 6 then wd (f - nfield f 13 3 * 2 ^ 13) else wd f
/-- A write of SW: FTZ, RM, TE and FLAGS, with the flags that the A slot raised ORed in afterwards (R51, R53, R170). -/
def Strand.writeSw (st : Strand) (v : Word) (f : Flags) : Strand :=
  { st with sw := setField st.sw 0 14 v.toNat ||| zx f }
/-- A write of a control register 0x00 to 0x13; read-only registers ignore it (R9, R50, R170). -/
def Strand.csrPut (st : Strand) (n : Nat) (v : Word) (f : Flags) : Option Strand :=
  match n with
  | 0x00 | 0x06 | 0x07 | 0x08 | 0x09 | 0x0A => some st
  | 0x01 => some (st.writeSw v f)
  | 0x02 => some { st with vt := v }
  | 0x03 => some { st with fmt := fmtOf v }
  | 0x04 => some { st with sca := v.setWidth 32 }
  | 0x05 => some { st with scb := v.setWidth 32 }
  | 0x10 => some { st with utv := setField v 0 3 0 }
  | 0x11 => some { st with utc := wd (v.toNat % 2 ^ 10) }
  | 0x12 => some { st with utpc := v }
  | 0x13 => some { st with utval := v }
  | _ => none
/-- A write of a supervisor register (R419, R420). -/
def Sv.put (k : Sv) (n : Nat) (v : Word) : Option Sv :=
  match n with
  | 0x80 => some { k with vec := setField v 0 3 0 }
  | 0x81 => some { k with epc := setField v 0 3 0 }
  | 0x82 => some { k with cause := wd (nfield v.toNat 16 2 * 2 ^ 16 + v.toNat % 2 ^ 9) }
  | 0x83 => some { k with sid := v }
  | 0x84 => some { k with spc := v }
  | 0x85 => some { k with val := v }
  | 0x86 => some { k with past := v.setWidth 8 }
  | 0x87 => some { k with asp := if v.toNat % 256 < 56 then v.setWidth 8 else 0xFF, tlb := [] }
  | 0x88 | 0x89 | 0x8A => some k
  | _ => none
/-- CSRW (R50, R170, R420). -/
def execCsrw (a : RegNo) (c : BitVec 8) (s : State) : Out :=
  let n := c.toNat
  let v := s.g a
  if 0x80 ≤ n && !s.x.me.isCtl then .next s.privC
  else if n = 0x01 && 5 ≤ nfield v.toNat 10 3 then .next s.privC
  else if 0x80 ≤ n then
    match s.sv.put n v with
    | some k => .next (s.updSv (fun _ => k)).adv
    | none => .next s.illegalC
  else match s.x.me.csrPut n v s.x.aflags with
    | some st => .next (s.upd (fun _ => st)).adv
    | none => .next s.illegalC

/-- TIME (R171): pasture time; the device time base on a controller core (R418). -/
def execTime (d : RegNo) (s : State) : Out :=
  let t := if s.x.me.isCtl then s.tileTime s.here else s.pasTime s.x.me.pasture s.here
  .next (s.wg d (wd t)).adv

/-! ### Traps -/

/-- C-slot NOP (R62). -/
def execNopC (s : State) : Out := .next s.adv
/-- TRAP (R172). -/
def execTrap (i : BitVec 8) (s : State) : Out := .next (s.trapC cTrap (zx i))
/-- URET (R151). The checks of UTPC escalate, because INTRAP is still 1. -/
def execUret (s : State) : Out :=
  let t := s.x.me.utpc
  if !s.x.me.inTrap then .next s.illegalC
  else if t.toNat % 8 != 0 then .next (s.trapC cAlign t)
  else if nfield t.toNat 56 8 != 0 then .next (s.trapC cXlate t)
  else .next (s.upd Strand.uret)
/-- UDECLINE (R152): the declined trap goes to the supervisor as the strand took it; PC stays at the bundle. -/
def execUdecline (s : State) : Out :=
  let st := s.x.me
  if !st.inTrap then .next s.illegalC
  else
    let s := s.escalate (nfield st.utc.toNat 0 8) st.utpc st.utval (wbit st.utc 8)
    .next { s with x := { s.x with trap := some { cause := 0, val := st.utval } } }
/-- SRET (R433). -/
def execSret (s : State) : Out :=
  if !s.x.me.isCtl then .next s.privC
  else if !s.sv.inh then .next s.illegalC
  else .next s.sret

/-! ### Following (R145 to R147) -/

/-- The strand in slot n of the issuing strand's core, if R145 lets the issuing strand follow it. -/
def State.leaderAt (s : State) (n : Nat) : Option Strand :=
  if n ≤ 13 && n != s.x.me.slotNo && !s.x.me.inTrap then
    (s.inSlotAt s.here s.x.me.core n).filter (fun l => !l.following && !l.inTrap)
  else none
/-- FOLLOW (R145). A strand that leads leaves its followers alone from then on (R146). -/
def execFollow (a : RegNo) (s : State) : Out :=
  if s.x.me.hslot then .next s.illegalC
  else match s.leaderAt (s.g a).toNat with
    | none => .next s.adv
    | some l =>
      let s := (s.dropFollowers s.x.me.sid).adv
      let (n, s) := s.fresh
      .next (s.upd (fun st =>
        { (st.swSet 22 true) with follow := some { leader := l.sid }, wait := some .follow, parkedAt := n }))
/-- LEAVE (R147). -/
def execLeave (s : State) : Out :=
  if s.x.me.following then .next (s.upd Strand.leave).adv
  else .next (s.dropFollowers s.x.me.sid).adv
/-- FOLLOW_TIMEOUT (R145): the strand inp.sid has waited at p for 1,024 bundles of its leader, and leaves. -/
def execFollowTimeout (s : State) : Out :=
  match s.strandOf s.inp.sid with
  | some st =>
    match st.follow with
    | some f =>
      if !f.joined && 1024 ≤ f.seen then .next (s.onStrand st.sid Strand.leave) else .next s
    | none => .next s
  | none => .next s

/-! ### Branches and compare-skip -/

/-- A branch by a signed bundle offset, modulo 2^53 (R57). -/
def State.branch {n : Nat} (s : State) (o : BitVec n) : State := s.upd (fun st => st.jump (st.pc + o.signExtend 53))
/-- A jump to a byte address: ALIGN before XLATE (R57). -/
def State.jumpTo (s : State) (t : Word) (k : State → State) : State :=
  if t.toNat % 8 != 0 then s.trapC cAlign t
  else if nfield t.toNat 56 8 != 0 then s.trapC cXlate t
  else (k s).upd (fun st => st.jump (BitVec.ofNat 53 (t.toNat / 8)))
/-- The link: the byte address of the next bundle (R169). -/
def State.link (s : State) (d : RegNo) : State := s.wg d s.x.me.linkByte
/-- BR (R169). -/
def execBr (o : BitVec 25) (s : State) : Out := .next (s.branch o)
/-- CALL (R169): links into g15. -/
def execCall (o : BitVec 25) (s : State) : Out := .next ((s.link 15).branch o)
/-- BRC (R169). -/
def execBrc (a b : RegNo) (c : BitVec 3) (o : BitVec 14) (s : State) : Out :=
  if cond c (s.g a) (s.g b) then .next (s.branch o) else .next s.adv
/-- Long BR (R169). -/
def execBrLong (o : W32) (s : State) : Out := .next (s.branch o)
/-- CALLL (R169): links into g15. -/
def execCalll (o : W32) (s : State) : Out := .next ((s.link 15).branch o)
/-- BRL (R169): links into g[rd]. -/
def execBrl (d a : RegNo) (i : BitVec 17) (s : State) : Out := .next (s.jumpTo (s.g a + sx i) (fun s => s.link d))
/-- JR (R169). -/
def execJr (a : RegNo) (s : State) : Out := .next (s.jumpTo (s.g a) id)
/-- RET (R169). -/
def execRet (s : State) : Out := .next (s.jumpTo (s.g 15) id)
/-- Keeps or annuls the next k bundles (R59). -/
def State.skip (s : State) (k : BitVec 2) (keep : Bool) : State :=
  if keep then s.adv else s.upd (fun st => st.jump (st.pc + 1 + k.setWidth 53))
/-- CMPS (R59). -/
def execCmps (a b : RegNo) (c : BitVec 3) (k : BitVec 2) (s : State) : Out := .next (s.skip k (cond c (s.g a) (s.g b)))
/-- CMPSI (R59). -/
def execCmpsi (a : RegNo) (c : BitVec 3) (k : BitVec 2) (i : BitVec 12) (s : State) : Out :=
  .next (s.skip k (cond c (s.g a) (sx i)))

/-! ### Addresses -/

/-- LEA (R166). -/
def execLea (d a : RegNo) (i : BitVec 17) (s : State) : Out := .next (s.wg d (s.g a + sx i)).adv
/-- Long LEA (R166). -/
def execLeaLong (d a : RegNo) (i : W32) (s : State) : Out := .next (s.wg d (s.g a + sx i)).adv
/-- What HOMEOF returns for a domain physical address (R167). -/
def State.homeInfo (s : State) (pa : Nat) : Word :=
  wd (nfield pa 29 27 + if nfield pa 45 11 = s.devnum.toNat then 2 ^ 27 else 0)
/-- HOMEOF (R167). -/
def execHomeof (d a : RegNo) (s : State) : Out := .next (s.withPa (s.g a) needNone (fun s pa => (s.wg d (s.homeInfo pa)).adv))

end Sys2Proof.Machine
end

