-- ==== Sys2Proof/Machine/Copy.lean ====
section
/-! DEFINITION. The copy engine (R292 to R306): shape records, CPY, CPYS and the permits of stream rings, CPYSTAT. -/

namespace Sys2Proof.Machine

open Sys2Proof

/-! ### Shape records (R292 to R295) -/

/-- A dimension: extent, source stride, destination stride. -/
structure Dim where
  ext : Nat
  sstr : Int
  dstr : Int
  deriving DecidableEq, Repr
/-- A shape record. -/
structure Shape where
  src : Word
  dst : Word
  flagout : Word
  st : Nat
  dt : Nat
  rank : Nat
  rnd : Nat
  sat : Bool
  scl : Bool
  dims : List Dim
  deriving DecidableEq, Repr
/-- Dimension d of a record. -/
def shapeDim (bs : List Byte) (d : Nat) : Dim :=
  { ext := bfield bs (0x30 + 24 * d) 4, sstr := bfieldS bs (0x38 + 24 * d) 8, dstr := bfieldS bs (0x40 + 24 * d) 8 }
/-- Reads a shape record with the issue's FMT: type 0xFF takes AFMT or OFMT (R124, R292). -/
def shapeOf (c : Cmd) : Shape :=
  let bs := c.blk
  let flg := bfield bs 0x23 1
  let ty (off lo : Nat) : Nat := if bfield bs off 1 = 0xFF then nfield c.fmt.toNat lo 4 else bfield bs off 1
  { src := wd (bfield bs 0 8), dst := wd (bfield bs 8 8), flagout := wd (bfield bs 0x18 8), st := ty 0x20 28, dt := ty 0x21 20
    rank := bfield bs 0x22 1, rnd := flg % 8, sat := flg / 8 % 2 == 1, scl := flg / 16 % 2 == 1
    dims := (List.range (min 6 (bfield bs 0x22 1))).map (shapeDim bs) }
/-- The number of elements. -/
def Shape.total (h : Shape) : Nat := (h.dims.map (·.ext)).foldl (· * ·) 1
/-- A type that can be copied. -/
def copyTy (c : Nat) : Bool := c ≤ 15 && c != 7
/-- The type pairs of R294. -/
def Shape.typesOk (h : Shape) : Bool :=
  copyTy h.st && copyTy h.dt && (h.st == h.dt || (h.st != 15 && h.dt != 15)) && (!h.scl || (h.st != h.dt && h.st ≤ 6))
/-- A malformed record (R292, R295). -/
def shapeBad (c : Cmd) (stream : Bool) : Bool :=
  let bs := c.blk
  let h := shapeOf c
  (stream && h.dst != 0) || (!stream && !recZero bs 0x10 8) || 32 ≤ bfield bs 0x23 1 || !recZero bs 0x24 12
    || h.rank = 0 || 6 < h.rank || h.rnd = 5 || h.rnd = 6 || !h.typesOk || 2 ^ 40 < h.total || h.flagout.toNat % 8 != 0
    || (List.range 6).any (fun d => !recZero bs (0x34 + 24 * d) 4 || (h.rank ≤ d && !recZero bs (0x30 + 24 * d) 24)
        || (stream && !recZero bs (0x40 + 24 * d) 8))
/-- The offset of element e in a set of strides: dimension 0 runs fastest (R293). -/
def offsetOf (stride : Dim → Int) : List Dim → Nat → Int
  | [], _ => 0
  | d :: r, e => stride d * (e % d.ext : Nat) + offsetOf stride r (e / d.ext)
/-- Bytes of an element (R294). -/
def copySize (c : Nat) : Nat := tyW c / 8
/-- conv(x) (R294). -/
def Shape.conv (h : Shape) (c : Cmd) (x : Nat) : FRes :=
  let mode := if h.rnd = 7 then c.mode else h.rnd
  let sat := h.sat || c.msat
  if h.st = h.dt then { bits := x, fl := 0 }
  else if h.scl then
    let p := mulF (decodeF h.st x c.mftz) (decodeF 0 c.sca.toNat false)
    if isFloat h.dt then roundEx h.dt mode sat c.mftz p
    else let r := floatToInt h.dt mode p.1; { r with fl := r.fl ||| p.2 }
  else convert h.st h.dt mode sat c.mftz x

/-! ### Issue (R296, R298) -/

/-- CPY (R296). -/
def execCpy (a b : RegNo) (p : BitVec 2) (s : State) : Out :=
  .next (s.withDesc (s.g a) (s.g b) 64 192 true (fun s bs ctr =>
    s.issueCmd .copy (.cpy a b p) p (fun c => { c with blk := bs, ctr := ctr }) State.adv))
/-- Stream n of the issuing strand's core. -/
def State.stream (s : State) (t core n : Nat) : Stream := tget (s.tl t).streams (4 * core + n) {}
/-- Whether a stream is bound to the issuing strand (R260). -/
def State.myStream (s : State) (n : Nat) : Bool := (s.stream s.here s.x.me.core n).owner == some s.x.me.sid
/-- CPYS (R298). -/
def execCpys (d a : RegNo) (p : BitVec 2) (s : State) : Out :=
  let n := d.toNat % 4
  if !s.myStream n then .next s.illegalC
  else .next (s.withBlock (s.g a) 64 192 (fun s bs => s.withCounter (wd (bfield bs 0x10 8)) true (fun s ctr =>
    s.issueCmd .copy (.cpys d a p) p (fun c => { c with blk := bs, ctr := ctr, num := n }) State.adv)))

/-! ### Running a copy (R297) -/

/-- Whether a command is a CPYS. -/
def Cmd.isCpys (c : Cmd) : Bool := match c.op with | .cpys .. => true | _ => false
/-- Commands held in a tile's window (R302). -/
def State.copyHeld (s : State) (t : Nat) : Nat :=
  (s.cmds.filter (fun c => c.eng == .copy && c.tile == t && c.accepted)).length
/-- A record that the engine finds malformed (R295), a type that is not accepted among the reasons (R442). -/
def State.copyBad (s : State) (c : Cmd) : Bool :=
  shapeBad c c.isCpys || !s.typeOn (shapeOf c).st || !s.typeOn (shapeOf c).dt
/-- The copy engine accepts a command (R302). A malformed record is found now (R295): its command performs nothing, and completes in
its turn, for its completion is a posted release (R303). -/
def State.acceptCopy (s : State) (c : Cmd) : Option State :=
  if 32 ≤ s.copyHeld c.tile then none
  else
    let (o, s) := s.fresh
    some (s.updCmd c.id (fun c => { c with st := .held, ord := o, err := if s.copyBad c then some 0x40 else none }))
/-- Reads and converts element e (R293, R294, R297). -/
def Run.copyRead (r : Run) (c : Cmd) (h : Shape) (e : Nat) : (FRes ⊕ Nat) × Run :=
  let n := copySize h.st
  let sa := addInt h.src (offsetOf Dim.sstr h.dims e)
  let (x, r) := if sa.toNat % n != 0 then r.once false (fun s _ _ => (some (.fault cAlign), s)) else r.read c sa n
  (match x with
   | .inr e => .inr e
   | .inl v => .inl (h.conv c v), r)
/-- Elements moved, and elements converted between unequal types. -/
def Run.countElem (r : Run) (c : Cmd) (h : Shape) : Run :=
  r.effect (fun s =>
    let s := s.bump c.tile 0x310 1
    if h.st = h.dt then s else s.bump c.tile 0x318 1)
/-- What a pass over a copy gathers. -/
structure CopyRun where
  r : Run
  fl : Flags := 0
  err : Option Nat := none
  out : List Byte := []
  deriving DecidableEq, Repr
/-- One element of a CPY. -/
def CopyRun.element (b : CopyRun) (c : Cmd) (h : Shape) (e : Nat) : CopyRun :=
  match (b.r.begin 3 e).copyRead c h e with
  | (.inr x, r) => { b with r := r, err := b.err <|> some x }
  | (.inl v, r) =>
    let n := copySize h.dt
    let da := addInt h.dst (offsetOf Dim.dstr h.dims e)
    if da.toNat % n != 0 then { b with r := r, err := b.err <|> some cAlign }
    else match r.write c da n v.bits with
      | (some x, r) => { b with r := r, err := b.err <|> some x }
      | (none, r) => { b with r := r.countElem c h, fl := b.fl ||| v.fl }
/-- The elements from e on. -/
def CopyRun.walk (b : CopyRun) (c : Cmd) (h : Shape) (e : Nat) : Nat → CopyRun
  | 0 => b
  | n + 1 => (b.element c h e).walk c h (e + 1) n
/-- A CPYS that waits on its stream's own order (R300). -/
def State.behindFiller (s : State) (c : Cmd) : Bool :=
  c.isCpys && s.cmds.any (fun d => d.eng == .copy && d.isCpys && d.tile == c.tile && d.core == c.core && d.num == c.num
    && d.st == .held && d.ord < c.ord)
/-- A copy command may go on: it is accepted, its gate is clear (R30), and it has its turn to start (R28). -/
def State.copyTurn (s : State) (c : Cmd) : Bool :=
  c.eng == .copy && c.st == .held && s.gateOpen c && s.mayStart c s.behindFiller && !(s.tl c.tile).failed
/-- A pass over a CPY. -/
def State.runCopy (s : State) (c : Cmd) : State :=
  let h := shapeOf c
  let b := CopyRun.walk { r := s.run c } c h 0 h.total
  if s.copyBad c then s.finishCmd c (some 0x40) else b.r.complete c h.flagout b.fl b.err
/-- CPY_EXEC (R297): command inp.k goes on. -/
def execCpyExec (s : State) : Out :=
  match s.cmd s.inp.k with
  | some c => if s.copyTurn c && !c.isCpys then .next (s.runCopy c) else .next s
  | none => .next s

/-! ### Streams (R299 to R301) -/

/-- Bytes of an operand. -/
def Stream.size (m : Stream) : Nat := if m.long then 256 else 32
/-- Slots of a ring. -/
def Stream.slots (m : Stream) : Nat := m.len / m.size
/-- The physical address of a slot. -/
def Stream.slotPa (m : Stream) (k : Nat) : Nat := m.buf.getD (k % m.slots * m.size / 256) 0 + k % m.slots * m.size % 256
/-- Changes a stream. -/
def State.updStream (s : State) (t core n : Nat) (f : Stream → Stream) : State :=
  s.updTl t (fun x => { x with streams := tset x.streams (4 * core + n) (f (tget x.streams (4 * core + n) {})) })
/-- The ring that a CPYS fills. That of a killed strand has none any more: it takes as many permits, and each returns as its operand is
discarded. -/
def State.ringOf (s : State) (c : Cmd) : Stream :=
  if c.orphan then { len := c.lo, long := c.hi == 256 } else s.stream c.tile c.core c.num
/-- The CPYS commands of a stream that have been accepted, the first of which fills the ring (R300). -/
def State.fillers (s : State) (t core n : Nat) : List Cmd :=
  s.cmds.filter (fun c => c.eng == .copy && c.isCpys && c.tile == t && c.core == core && c.num == n && c.st == .held)
/-- Operands of a CPYS in all. -/
def Shape.operands (h : Shape) (m : Stream) : Nat := ceilDiv (h.total * copySize h.dt) m.size
/-- One element of an operand: its bytes, zeros where it faults (R299). -/
def CopyRun.take (b : CopyRun) (c : Cmd) (h : Shape) (e : Nat) : CopyRun :=
  let n := copySize h.dt
  match (b.r.begin 3 e).copyRead c h e with
  | (.inr x, r) => { b with r := r, err := b.err <|> some x, out := b.out ++ leBytes n 0 }
  | (.inl v, r) => { b with r := r.countElem c h, fl := b.fl ||| v.fl, out := b.out ++ leBytes n v.bits }
/-- The elements of operand k of a command. -/
def operandElems (h : Shape) (m : Stream) (k : Nat) : List Nat :=
  let n := copySize h.dt
  let e := k * m.size / n
  (List.range (min (m.size / n) (h.total - e))).map (e + ·)
/-- The first command of the ring that a command names. -/
def State.mayFill (s : State) (c : Cmd) : Bool :=
  c.isCpys && s.copyTurn c && !s.behindFiller c && (c.orphan || (s.stream c.tile c.core c.num).owner == some c.sid)
/-- The bytes of an operand go into its slot, word by word. -/
def Run.writeSlot (r : Run) (c : Cmd) (pa k : Nat) (bytes : List Byte) : Run :=
  ((r.begin 4 k).parts (bytes.length / 8) (fun r i => r.once true (fun s key old =>
    s.engWrite c 0 (pa + 8 * i) 8 (leNat ((bytes.drop (8 * i)).take 8)) key old))).2
/-- The operands of a CPYS from k on, as far as permits go (R299): the elements of each are fetched, or are zeros where the
permits were reclaimed (R301); an operand that is whole goes into its slot in its turn, and is there for pops. -/
def CopyRun.fill (b : CopyRun) (c : Cmd) (h : Shape) (k : Nat) : Nat → CopyRun
  | 0 => b
  | n + 1 =>
    let m := b.r.s.ringOf c
    if h.operands m ≤ k then b
    else
      let before := b.r.pend
      let b := { b with r := { b.r with pend := false }, out := [] }
      let b := if c.lost then b else (operandElems h m k).foldl (fun b e => b.take c h e) b
      let bytes := b.out ++ leBytes (m.size - b.out.length) 0
      let b := if b.r.pend || before || c.orphan then b else { b with r := b.r.writeSlot c (m.slotPa (m.rd + m.ready)) k bytes }
      if b.r.pend || before then CopyRun.fill { b with r := { b.r with pend := true } } c h (k + 1) n
      else
        let s := if c.orphan then b.r.s
          else (b.r.s.bump c.tile 0x320 1).updStream c.tile c.core c.num (fun m => { m with ready := m.ready + 1 })
        let s := s.updCmd c.id (fun c => { c with pos := k + 1, fl := b.fl, err := b.err })
        CopyRun.fill { b with r := { b.r with s := s } } c h (k + 1) n
/-- The operands of a CPYS whose fetching has begun and that are not in the ring: its permits (R299). -/
def State.permitsHeld (s : State) (c : Cmd) : Nat :=
  let h := shapeOf c
  let m := s.ringOf c
  ((List.range (m.slots - m.ready)).filter (fun i =>
    (operandElems h m (c.pos + i)).any (fun e => (tfind c.log (3 * 2 ^ 60 + e * 2 ^ 16)).isSome))).length
/-- A pass over a CPYS: it completes once its last operand is in the ring. While an operand waits and every permit is taken, CPYPERMW
may count (R305; log 7). -/
def State.fillStream (s : State) (c : Cmd) : State :=
  let h := shapeOf c
  let m := s.ringOf c
  let b := CopyRun.fill { r := s.run c, fl := c.fl, err := c.err } c h c.pos (m.slots - m.ready)
  let s := b.r.save c
  match s.cmd c.id with
  | some c =>
    if h.operands m ≤ c.pos then s.finishWith c h.flagout c.fl c.err
    else
      let held := s.permitsHeld c
      if m.slots ≤ (s.ringOf c).ready + held && c.pos + held < h.operands m then s.bump c.tile 0x328 1 else s
  | none => s
/-- CPYS_OPERAND (R299): with permits, command inp.k goes on with its operands; a malformed one completes (R295). -/
def execCpysOperand (s : State) : Out :=
  match s.cmd s.inp.k with
  | some c =>
    if c.isCpys && s.copyTurn c && s.copyBad c then .next (s.finishCmd c (some 0x40))
    else if s.mayFill c then .next (s.fillStream c) else .next s
  | none => .next s
/-- PERMIT_RECLAIM (R301): a fetch of command inp.k has had no reply within the reclaim interval. The permits of a CPYS are
reclaimed, once, and its remaining operands will be zeros; a CPY skips the element. -/
def execPermitReclaim (s : State) : Out :=
  match s.cmd s.inp.k with
  | some c =>
    let late := s.unanswered c (s.pas c.pasture).pcb.reclaim
    if c.eng != .copy || c.st != .held || c.lost || late.isEmpty then .next s
    else if c.isCpys then
      .next ((s.bump c.tile 0x330 (s.permitsHeld c)).updCmd c.id (fun c => { c with lost := true, err := c.err <|> some cHomeLost }))
    else .next (late.foldl (fun s k => s.fillLog c.id k (.fault cHomeLost)) s)
  | none => .next s
/-- The first cause among the elements of a command that has not completed (R300). -/
def Cmd.firstErr (c : Cmd) : Option Nat :=
  c.err <|> c.log.findSome? (fun x => match x.2 with | .fault e => some e | _ => none)
/-- A stream is unbound (R254, R262, R300): operands are discarded, permits return, and every CPYS of it ends with UNBOUND, or
with the first fault it had met. -/
def State.unbind (s : State) (t core n : Nat) : State :=
  let own := s.cmds.filter (fun c => c.eng == .copy && c.isCpys && c.tile == t && c.core == core && c.num == n
    && (c.st == .held || c.st == .queued))
  let s := own.foldl (fun s c =>
    s.finishWith c (if c.st == .held then (shapeOf c).flagout else 0) c.fl (some (c.firstErr.getD 0x42))) s
  s.updStream t core n (fun _ => {})
/-- Every stream of a core that is bound to a strand is unbound. -/
def State.unbindAll (s : State) (st : Strand) : State :=
  (List.range 4).foldl (fun s n =>
    if (s.stream st.tile st.core n).owner == some st.sid then s.unbind st.tile st.core n else s) s

/-- The streams of a killed strand are unbound and their operands discarded, but its CPYS commands run to completion: their operands
go nowhere (R98, R254, R304; log 83). -/
def State.orphanAll (s : State) (st : Strand) : State :=
  (List.range 4).foldl (fun s n =>
    let m := s.stream st.tile st.core n
    if m.owner != some st.sid then s
    else
      let mine (c : Cmd) : Bool := c.eng == .copy && c.isCpys && c.tile == st.tile && c.core == st.core && c.num == n && !c.orphan
      ({ s with cmds := s.cmds.map (fun c =>
          if mine c then { c with orphan := true, num := n + 4, lo := m.len, hi := m.size } else c) }).updStream st.tile st.core n
        (fun _ => {})) s

/-! ### CPYSTAT (R306) -/

/-- The value of a selector; none for one that is not defined. -/
def State.cpyStat (s : State) (n : Nat) : Option Nat :=
  let t := s.here
  let mine (k : Nat) (f : Stream → Nat) : Nat := if s.myStream k then f (s.stream t s.x.me.core k) else 0
  if n ≤ 6 then some (s.ctrRead t (0x300 + 8 * n))
  else if n = 8 then some (s.copyHeld t)
  else if 12 ≤ n && n ≤ 15 then some (mine (n - 12) (·.ready))
  else if 16 ≤ n && n ≤ 19 then some (mine (n - 16) (fun m =>
      m.slots - m.ready - ((s.fillers t s.x.me.core (n - 16)).map s.permitsHeld).foldl (· + ·) 0))
  else none
/-- CPYSTAT (R306). -/
def execCpystat (d : RegNo) (n : BitVec 7) (s : State) : Out :=
  match s.cpyStat n.toNat with
  | some v => .next ({ s with free := s.free + 1 }.wg d (wd v)).adv
  | none => .next s.illegalC

end Sys2Proof.Machine
end

