-- ==== Sys2Proof/Machine/Slots.lean ====
section
/-! DEFINITION. Slots, the fold and the order of candidates (R134, R135, R139, R183, R223, R225, R227 to R230, R395). -/

namespace Sys2Proof.Machine

open Sys2Proof

/-! ### Context images -/

/-- ROUTE (R137). -/
def Strand.route (st : Strand) : Nat :=
  nfield st.utv.toNat 30 26 * 2 ^ 38 + st.migwin % 2 ^ 10 * 2 ^ 28 + st.migcnt % 2 ^ 6 * 2 ^ 22
    + st.slice.depth % 2 ^ 5 * 2 ^ 16 + st.slice.cls % 2 ^ 3 * 2 ^ 13 + st.tile
/-- The 192 bytes of a context packet (R136). -/
def Strand.packetImage (st : Strand) : List Byte :=
  leBytes 8 st.sid.toNat ++ leBytes 8 st.route ++ ((List.range 15).flatMap (fun i => leBytes 8 (st.g.toList.getD (i + 1) 0).toNat))
    ++ leBytes 8 st.pc.toNat ++ leBytes 8 st.sw.toNat ++ leBytes 8 st.vt.toNat ++ leBytes 4 st.fmt.toNat ++ leBytes 4 st.sca.toNat
    ++ leBytes 4 st.scb.toNat ++ leBytes 4 (nfield st.utv.toNat 3 27) ++ leBytes 5 st.deadline.toNat ++ leBytes 3 st.budget.toNat
    ++ leBytes 4 st.grp.toNat ++ leBytes 4 0
/-- The 256 bytes of a fold entry (R138). -/
def Strand.foldImage (st : Strand) : List Byte :=
  st.packetImage ++ leBytes 8 st.utc.toNat ++ leBytes 8 st.utpc.toNat ++ leBytes 8 st.utval.toNat ++ List.replicate 40 0

/-! ### Slots and the fold -/

/-- A slot is occupied, or kept for a context in flight (R230). -/
def State.slotBusy (s : State) (t c n : Nat) : Bool :=
  (s.inSlotAt t c n).isSome || (s.tl t).departing.any (fun e => e.2 == some (c, n))
/-- Strands in slots 0 to 13 of a core. -/
def State.activeOn (s : State) (t c : Nat) : Nat := ((List.range 14).filter (s.slotBusy t c)).length
/-- A free slot among slots 0 to 13 of the core with the fewest active strands, lower core first (R225); the lowest one. -/
def State.freeSlot (s : State) (t : Nat) : Option (Nat × Nat) :=
  let cores := (List.range 4).filter (fun c => s.activeOn t c < 14)
  match least (fun a b => s.activeOn t a < s.activeOn t b) cores with
  | none => none
  | some c => ((List.range 14).find? (fun n => !s.slotBusy t c n)).map (fun n => (c, n))
/-- Fold entries in use on a tile: folded strands, and contexts in flight that are not kept in a slot (R182, R230). -/
def State.foldUsed (s : State) (t : Nat) : Nat :=
  (s.strands.filter (fun st => st.place == .fold t)).length + ((s.tl t).departing.filter (·.2.isNone)).length
/-- The fold has an entry free: 256 in SRAM and FOLDQ in DRAM (R230). -/
def State.foldRoom (s : State) (t : Nat) : Bool :=
  s.foldUsed t < 256 + (s.pasOfTile t).elim 0 (fun p => (s.pas p).pcb.foldq)
/-- A strand kept in its slot (R139), or whose slot is kept while its context travels (R230). -/
def Strand.kept (st : Strand) : Bool :=
  st.vlive || st.lmode || (match st.wait with | some (.latch _) => true | some .longUnit => true | some .away => true | _ => false)
/-- Where the next context of a tile's fold stands: an entry in SRAM while one of the 256 is free, else the first free one of the
fold region in DRAM. Contexts in flight keep their entries (R182). -/
def State.foldEntry (s : State) (t : Nat) : Option Nat :=
  let l := s.strands.filter (fun st => st.place == .fold t)
  let left := (s.tl t).leftAt
  let away := (s.tl t).departing.filter (fun d => d.2.isNone && !left.any (·.1 == d.1))
  if (l.filter (·.foldAt.isNone)).length + away.length < 256 then none
  else (List.range (l.length + left.length + 1)).find? (fun k => !l.any (fun st => st.foldAt == some k) && !left.any (·.2 == k))
/-- A context enters the fold of a tile; one in the fold region has its 256 bytes there (R138, R230; log 67). -/
def State.intoFold (s : State) (st : Strand) (t : Nat) : Strand × State :=
  let st := { st with place := .fold t, foldAt := s.foldEntry t }
  let base := (s.tl t).foldbase.toNat
  match st.foldAt with
  | some k => (st, if s.ownDram t base then s.poke (localOf base + 256 * k) st.foldImage else s)
  | none => (st, s)
/-- A strand leaves its slot for the fold; as a follower or a leader it leaves (R145, R146), and it keeps every wait (R229). -/
def State.toFold (s : State) (st : Strand) : State :=
  let s := s.dropFollowers st.sid
  match s.strandOf st.sid with
  | some st => let (st, s) := s.intoFold st.leave st.tile; s.onStrand st.sid (fun _ => st)
  | none => s
/-- A strand is placed in a slot: the occupancy number rises and the wake latch is cleared (R395, R412). -/
def State.putInSlot (s : State) (st : Strand) (t c n : Nat) : State :=
  let o := tget (s.tl t).occ (16 * c + n) 0 + 1
  let s := if n < 14 then
    s.updTl t (fun x => { x with occ := tset x.occ (16 * c + n) o, latch := x.latch.filter (· != 16 * c + n) }) else s
  let st := { st with place := .slot t c n, foldAt := none }
  if s.strands.any (·.sid == st.sid) then s.onStrand st.sid (fun _ => st) else { s with strands := s.strands ++ [st] }
/-- FOLDFULL (R215). -/
def ctrFoldFull : Nat := 0x100 + 8 * 15

/-! ### The order of candidates (R223) -/

/-- The order in which a tile takes candidates: class 0 first, then the earlier ED, the lower class, the earlier acceptance. Of two
accepted at one time, on which the spec is silent, the lower acceptance number goes first (DESIGN CHOICE, log 20). -/
def Slice.before (a b : Slice) : Bool :=
  let z (x : Slice) : Nat := if x.cls = 0 then 0 else 1
  if z a != z b then z a < z b
  else if a.ed != b.ed then a.ed < b.ed
  else if a.cls != b.cls then a.cls < b.cls
  else if a.accept != b.accept then a.accept < b.accept
  else a.order < b.order
/-- The time that a DEADLINE names, given at pasture time s: within 2^39 ns of it (R223). -/
def deadlineTime (d : BitVec 40) (s : Nat) : Int :=
  let c : Int := s / 2 ^ 40 * 2 ^ 40 + d.toNat
  if c + 2 ^ 39 < s then c + 2 ^ 40
  else if s + 2 ^ 39 ≤ c then c - 2 ^ 40 else c
/-- The effective deadline (R223). -/
def effective (d : BitVec 40) (given accept age : Nat) : Int := if d = 0 then accept + age else deadlineTime d given
/-- A waiting strand can go on: what it waits for has come (R229). -/
def State.resumable (s : State) (st : Strand) : Bool :=
  match st.wait with
  | none => true
  | some (.acks n) =>
    if n < 4 then s.drainedOf st (BitVec.ofNat 2 n) else if n = 4 then s.postRoom st.party st.tile else s.mayLeave st
  | some .queue | some .seq | some .stream | some .bank | some .mxidle => true
  | some (.fpop n _) => (s.cmd n).any (·.st == .ran)
  | _ => false
/-- A slice may bind: the increment of its join counter is acknowledged (R237). -/
def State.bindable (s : State) (l : Slice) : Bool := l.after.all (fun n => !s.unacked.any (·.id == n))
/-- The candidates for a tile's slots: its ready queue, and the ready strands of its fold. -/
def State.candidates (s : State) (t : Nat) : List (Slice × Option Word) :=
  ((s.tl t).readyQ.filter s.bindable).map (fun l => (l, none))
    ++ (s.strands.filter (fun st => st.place == .fold t && st.stop.isNone && s.resumable st)).map
      (fun st => (st.slice, some st.sid))
/-- The first candidate (R223). -/
def State.firstCand (s : State) (t : Nat) (p : Slice → Bool) : Option (Slice × Option Word) :=
  least (fun a b => a.1.before b.1) ((s.candidates t).filter (fun c => p c.1))

/-! ### Making room -/

/-- Strands in slots 0 to 13 of a tile. -/
def State.slotted (s : State) (t : Nat) : List Strand :=
  s.strands.filter (fun st => match st.place with | .slot t' _ n => t' == t && n < 14 | _ => false)
/-- The longest-parked strand that may be moved (R139, R182, R183). -/
def State.longestParked (s : State) (t : Nat) : Option Strand :=
  least (fun a b => a.parkedAt < b.parkedAt)
    ((s.slotted t).filter (fun st => st.wait.isSome && !st.kept && !st.arrived && st.stop.isNone))
/-- The victim of a pre-emption: the latest ED among strands of class 1 or above; a tie goes to the latest bound (R227). -/
def State.victim (s : State) (t : Nat) : Option Strand :=
  least (fun a b => b.slice.ed < a.slice.ed || (a.slice.ed == b.slice.ed && b.bound < a.bound))
    ((s.slotted t).filter (fun st => st.slice.cls != 0 && !st.kept && !st.arrived && st.stop.isNone))
/-- Moves a strand of a slot to the fold for another party, and answers with the slot; none, and counted, where the fold is
full (R230). -/
def State.vacate (s : State) (t : Nat) (st : Strand) : State × Option (Nat × Nat) :=
  if s.foldRoom t then (s.toFold st, some (st.core, st.slotNo)) else (s.bump t ctrFoldFull 1, none)

/-! ### Binding (R134, R135) -/

/-- A strand identifier (R134). -/
def sidOf (gen pasture origin index : Nat) : Word :=
  wd (gen % 2 ^ 16 * 2 ^ 48 + pasture * 2 ^ 42 + origin * 2 ^ 25 + index)
/-- ORIGIN of an identifier. -/
def originOf (sid : Word) : Nat := nfield sid.toNat 25 13
/-- The INDEX that a binding uses (R134): any that no living strand of the tile uses; the schedule names it (log 2). -/
def State.indexFree (s : State) (t i : Nat) : Bool :=
  i < 65536 && !s.strands.any (fun st => originOf st.sid == t && nfield st.sid.toNat 0 16 == i)
/-- The identifier of a new strand: GEN rises by 1 at each reuse of the pair. -/
def State.newSid (s : State) (p t i : Nat) : Word × State :=
  let g := match tfind (s.tl t).gens i with | some g => (g + 1) % 2 ^ 16 | none => 0
  (sidOf g p t i, s.updTl t (fun x => { x with gens := tset x.gens i g }))
/-- The state of a strand that a slice binds as (R135, R231, R232). -/
def newStrand (l : Slice) (sid : Word) (p t order : Nat) : Strand :=
  { sid := sid, pasture := p, place := .fold t
    g := (Vector.replicate 16 (0 : Word)).set 1 l.arg
    pc := BitVec.ofNat 53 (l.entry.toNat / 8)
    fmt := zx l.fmt, sca := l.sca, scb := l.scb
    budget := l.budget, deadline := l.deadline, grp := l.grp
    slice := l, bound := order }
/-- A slice binds in a slot: a firing of R246; its pool entry is freed (R220). -/
def State.bindSlice (s : State) (p t c n i : Nat) (l : Slice) : State :=
  let (sid, s) := s.newSid p t i
  let (o, s) := s.fresh
  let s := s.updPas p (fun q => { q with fires := q.fires + 1, pool := q.pool - 1 })
  s.putInSlot (newStrand l sid p t o) t c n
/-- A folded strand, or the head of the arrival queue, takes a slot. -/
def State.bindStrand (s : State) (sid : Word) (t c n : Nat) : State :=
  match s.strandOf sid with
  | none => s
  | some st =>
    let (o, s) := s.fresh
    s.putInSlot { st with bound := o } t c n
/-- A candidate takes a slot; a slice leaves the ready queue, and the first overflow slice for the tile takes its entry
(R222). -/
def State.bindCand (s : State) (p t c n i : Nat) (x : Slice × Option Word) : State :=
  match x.2 with
  | some sid => s.bindStrand sid t c n
  | none =>
    let s := s.updTl t (fun y => { y with readyQ := ldel (· == x.1) y.readyQ })
    let s := match least Slice.before ((s.pas p).overflow.filter (·.home == t)) with
      | some l =>
        (s.updPas p (fun q => { q with overflow := ldel (· == l) q.overflow })).updTl t
          (fun y => { y with readyQ := y.readyQ ++ [l] })
      | none => s
    s.bindSlice p t c n i x.1

end Sys2Proof.Machine
end

