-- ==== Sys2Proof/Machine/Migration.lean ====
section
/-! DEFINITION. Migration between tiles (R182 to R188), page walks (R174, R177), and the first half of a pinned read
(R190). -/

namespace Sys2Proof.Machine

open Sys2Proof

/-- A strand outside the latch may go on: it is not stopped and its pasture is RUNNING. -/
def State.moves (s : State) (st : Strand) : Bool := st.stop.isNone && (s.pas st.pasture).st == .running && s.hasPas st.pasture
/-- A strand whose wait of R87 is over reports its first failed posted operation, or goes on (R193). -/
def State.reportOr (s : State) (k : State → State) : State :=
  match s.x.me.fail with
  | some (c, a) => (s.upd (fun st => { st with fail := none, wait := none })).trapFail c a
  | none => k s

/-- A strand that has been stopped resumes, if nothing stops it any more: a DEADLINE that CTXST gave it takes effect in ED (R223,
R431), and an MWAIT whose latch was set meanwhile returns (R416). -/
def State.resumed (s : State) (sid : Word) : State :=
  match s.strandOf sid with
  | none => s
  | some st =>
    if !s.moves st then s
    else
      let now := s.pasTime st.pasture st.tile
      let age := (s.pas st.pasture).pcb.age
      let n := 16 * st.core + st.slotNo
      let s := if st.edDue then s.onStrand sid (fun st =>
        { st with edDue := false, slice := { st.slice with ed := effective st.deadline now st.slice.accept age } }) else s
      match st.wait with
      | some (.latch d) =>
        if st.inSlot && (s.tl st.tile).latch.contains n then
          (s.updTl st.tile (fun x => { x with latch := x.latch.filter (· != n) })).onStrand sid (fun st => (st.setG d 1).advance)
        else s
      | _ => s

/-! ### The turns of a bundle (R144, R188, R231, R246), which a walk's fault charges too -/

/-- Charges n turns: BUDGET, the migration window, or the handler's turns (R144, R188, R231, R410). -/
def Strand.charge (st : Strand) (n migw : Nat) : Strand :=
  if st.isCtl then st
  else
    let wrap := migw ≤ st.migwin + n
    { st with
      budget := if st.hslot then st.budget else BitVec.ofNat 24 (st.budget.toNat - n)
      hturns := if st.hslot then st.hturns + n else st.hturns
      migwin := if wrap then st.migwin + n - migw else st.migwin + n
      migcnt := if wrap then 0 else st.migcnt }
/-- Charges the issuing agent. -/
def State.charge (s : State) (n : Nat) : State :=
  let w := (s.pas s.x.me.pasture).pcb.migw
  s.upd (fun st => st.charge n w)

/-- What a leader's issue of the bundle at p does to a follower of its stream (R145, R146): it joins at p, or counts, or
buffers the bundle, and leaves if it is more than 16 behind or its next bundle is another, or if 1,024 bundles have gone by without p. -/
def Strand.hear (st : Strand) (leader : Word) (p : BitVec 53) : Strand :=
  match st.follow with
  | some f =>
    if f.leader != leader then st
    else if !f.joined then
      if st.pc = p then
        { st with follow := some { f with joined := true, stream := [p] }
                  wait := if st.wait == some .follow then none else st.wait }
      else if 1024 ≤ f.seen + 1 then st.leave
      else { st with follow := some { f with seen := f.seen + 1 } }
    else
      let q := f.stream ++ [p]
      if 16 < q.length || (f.stream.isEmpty && st.pend.isNone && st.pc != p) then st.leave
      else { st with follow := some { f with stream := q } }
  | none => st
/-- A bundle issued is counted for mode B (R246). -/
def State.countBundle (s : State) : State :=
  if s.x.me.isCtl then s else s.updPas s.x.me.pasture (fun q => { q with bundles := q.bundles + 1 })
/-- The issue of a bundle is counted, heard by followers, and taken from the strand's own stream. -/
def State.countIssue (s : State) : State :=
  let st := s.x.me
  let s := s.countBundle
  let s := if st.isCtl then s else { s with strands := s.strands.map (fun f => f.hear st.sid st.pc) }
  s.upd (fun st =>
    match st.follow with
    | some f => if f.joined then { st with follow := some { f with stream := f.stream.drop 1 } } else st
    | none => st)
/-! ### Departure and arrival -/

/-- The source sends a context (R136, R182): it leaves the slot for the fold, or keeps the slot where the fold is full
(R230). -/
def State.sendContext (s : State) (st : Strand) (dest : Nat) : State :=
  let src := st.tile
  let q := (s.pas st.pasture).pcb
  let full : Bool := st.inSlot && !s.foldRoom src
  let s := if full then s.bump src ctrFoldFull 1 else s
  let stamp := s.pasTime st.pasture src
  let s := s.dropFollowers st.sid
  let (kept, s) := if st.inSlot && !full then s.intoFold st.leave src else (st, s)
  let s := match kept.foldAt with
    | some k => s.updTl src (fun x => { x with leftAt := x.leftAt ++ [(st.sid, k)] })
    | none => s
  let s := s.onStrand st.sid (fun st =>
    { st.leave with
      foldAt := none
      place := if full then st.place else .transit src
      wait := if full then some .away else none
      cOnly := true, arrived := true
      migcnt := min q.mign (st.migcnt + 1) })
  let s := (s.updTl src (fun x => { x with
    departing := x.departing ++ [(st.sid, if full then some (st.core, st.slotNo) else none)] })).bump src (0x100 + 16) 1
  s.send (.strand st.sid) src dest st.pasture (if st.slice.cls = 0 then 0 else 1) (.context st.sid stamp)
/-- MIGRATION_DEPART (R87, R182): strand inp.sid has its acknowledgements, and its context leaves. One that is pinned by now
(R181, R431) makes its access as a pinned strand instead. -/
def execMigrationDepart (s : State) : Out :=
  match s.strandOf s.inp.sid with
  | some st =>
    match st.wait with
    | some (.depart dest) =>
      if !s.mayLeave st || !s.moves st then .next s
      else if st.pinned then .next (s.onStrand st.sid (fun st => { st with wait := none }))
      else match st.fail with
        | some _ => .next (s.asStrand st.sid (fun s => s.reportOr id))
        | none => .next (s.sendContext st dest)
    | _ => .next s
  | none => .next s
/-- The source's copy of a context is no longer needed, or is used again. -/
def State.endDeparture (s : State) (t : Nat) (sid : Word) : State :=
  s.updTl t (fun x => { x with departing := ldel (·.1 == sid) x.departing, leftAt := x.leftAt.filter (·.1 != sid) })
/-- The strand's turn comes again at its source: in the slot kept for it, or in its entry of the fold (R185); of a source that has
been retired meanwhile, in the fold of its replacement. -/
def State.resumeAtSource (s : State) (t : Nat) (sid : Word) : State :=
  let kept := ((s.tl t).departing.find? (·.1 == sid)).bind (·.2)
  let left := ((s.tl t).leftAt.find? (·.1 == sid)).map (·.2)
  let s := s.endDeparture t sid
  match s.strandOf sid with
  | none => s
  | some st =>
    let u := (s.pas st.pasture).forward t
    let st := { st with wait := none }
    if u = t then
      s.onStrand sid (fun _ => match kept with
        | some (c, n) => { st with place := .slot t c n }
        | none => { st with place := .fold t, foldAt := left })
    else
      let (st, s) := s.intoFold st u
      s.onStrand sid (fun _ => st)
/-- An accepted context: threshold (R188), the time base (R171), HOME and the arrival queue (R183). UTC, UTPC, UTVAL and
UTV[63:56] are not carried (R139). -/
def State.arriveContext (s : State) (k : Packet) (t : Nat) (sid : Word) (stamp : Nat) : State :=
  let n := (s.pas k.pasture).pcb.mign
  let crossed : Bool := (s.strandOf sid).any (fun st => n ≤ st.migcnt)
  let s := ((s.accept { k with dst := t }).receive k.pasture t stamp).onStrand sid (fun st =>
    let st := { st with
      place := .arrival t, wait := none
      utc := 0, utpc := 0, utval := 0, utv := wd (st.utv.toNat % 2 ^ 56) }
    if crossed then (st.swSet 18 true).swSet 19 true else st)
  let s := (s.updTl t (fun x => { x with arrivals := x.arrivals ++ [sid] })).bump t (0x100 + 24) 1
  let s := if crossed then s.bump t (0x100 + 40) 1 else s
  s.reply k.party t k.src k.pasture k.cls (.contextAck sid)
/-- CONTEXT_ARRIVAL (R183 to R185): context packet inp.k reaches its home and is accepted or refused; where the home has
failed, its strand resumes at its source. -/
def execContextArrival (s : State) : Out :=
  match s.packet s.inp.k with
  | some k =>
    match k.body with
    | .context sid stamp =>
      let t := s.target k
      if (s.tl t).failed then .next ((s.accept { k with dst := t }).resumeAtSource k.src sid)
      else if 32 ≤ (s.tl t).arrivals.length then
        .next (((s.take k).bump t (0x100 + 32) 1).reply k.party t k.src k.pasture k.cls (.contextRefused sid stamp))
      else .next (s.arriveContext k t sid stamp)
    | _ => .next s
  | none => .next s
/-- ARRIVAL_ACK (R182): packet inp.k frees the source's fold entry, or the slot it kept. -/
def execArrivalAck (s : State) : Out :=
  match s.packet s.inp.k with
  | some k =>
    match k.body with
    | .contextAck sid => .next ((s.accept k).endDeparture k.dst sid)
    | _ => .next s
  | none => .next s
/-- MIGRATION_RETRY (R184): after its delay the refused migration of packet inp.k is sent again, with the same stamp, and counted
as a retransmission (R417). A refusal is not a migration, and BUDGET is not charged. -/
def execMigrationRetry (s : State) : Out :=
  match s.packet s.inp.k with
  | some k =>
    match k.body with
    | .contextRefused sid stamp =>
      let (n, s) := ((s.accept k).onStrand sid (fun st => { st with retries := st.retries + 1 })).fresh
      let cls := if (s.strandOf sid).any (·.slice.cls == 0) then 0 else 1
      let c : Packet := { id := n, party := k.party, src := k.dst, dst := (s.pas k.pasture).forward k.src, pasture := k.pasture,
                          cls := cls, want := cls, body := .context sid stamp }
      .next ((s.bump k.dst (0x1000 + 56) 1).journey c)
    | _ => .next s
  | none => .next s

/-- The head of the arrival queue takes a slot; its first issue performs only the C slot (R182). -/
def State.bindArrival (s : State) (t c n : Nat) : State :=
  match (s.tl t).arrivals with
  | [] => s
  | sid :: r => (((s.updTl t (fun x => { x with arrivals := r })).onStrand sid (fun st => { st with retries := 0 })).bindStrand
      sid t c n)
/-- The head of the arrival queue takes a free slot, or that of the longest-parked strand (R183). -/
def State.tryArrival (s : State) (t : Nat) : State :=
  if (s.tl t).arrivals.isEmpty then s
  else match s.freeSlot t with
    | some (c, n) => s.bindArrival t c n
    | none =>
      match s.longestParked t with
      | none => s
      | some v =>
        match s.vacate t v with
        | (s, some (c, n)) => s.bindArrival t c n
        | (s, none) => s
/-- ARRIVAL_BIND (R183): the head of the arrival queue of tile inp.k takes a slot, unless a class-0 slice waits for it. -/
def execArrivalBind (s : State) : Out :=
  let t := s.inp.k
  let ok : Bool := (s.pasOfTile t).any (fun p => (s.pas p).st == .running)
  if !ok || (s.firstCand t (·.cls == 0)).isSome then .next s else .next (s.tryArrival t)

/-! ### Page walks (R174, R177) -/

/-- Whether the walk of a page, which found entry e or none, serves an address. -/
def walkServes (page : Word) (e : Option TlbEntry) (va : Word) : Bool :=
  match e with
  | some e => va.toNat / 2 ^ e.bits * 2 ^ e.bits == e.base
  | none => walkPage va == page
/-- The strands of a tile that a walk serves. -/
def State.walkers (s : State) (t : Nat) (page : Word) (e : Option TlbEntry) : List Strand :=
  s.strands.filter (fun st => st.tile == t && match st.wait with | some (.walk va) => walkServes page e va | _ => false)
/-- What a walk does to the accesses of a command that wait for it: they are made again, or fail (R177). -/
def Cmd.walked (c : Cmd) (page : Word) (e : Option TlbEntry) (cause : Nat) : Cmd :=
  let serves (a : Acc) : Bool := match a with | .walk va => walkServes page e va | _ => false
  { c with log := match e with
      | some _ => c.log.filter (fun x => !serves x.2)
      | none => c.log.map (fun x => if serves x.2 then (x.1, .fault cause) else x) }
/-- The addresses whose misses a tile's strands, commands and other units wait for. -/
def State.misses (s : State) (t : Nat) : List Word :=
  (s.strands.filter (·.tile == t)).filterMap (fun st => match st.wait with | some (.walk va) => some va | _ => none)
    ++ (s.cmds.filter (·.base == t)).flatMap (fun c => c.log.filterMap (fun x => match x.2 with | .walk va => some va | _ => none))
    ++ (s.tl t).unitWalks.filterMap (fun u => if u.2.isNone then some u.1 else none)
/-- A walk has ended: the next one of the miss queue starts, and misses that waited for a place in the queue take it. -/
def State.nextWalk (s : State) (p t : Nat) (page : Word) : State :=
  let ws := ldel (· == page) (s.tl t).walks
  let s := (if 16 < (s.tl t).walks.length then s.bump t 0x108 1 else s).updTl t (fun x => { x with
    walks := ws, walkRuns := x.walkRuns.filter (·.page != page) })
  (s.misses t).foldl (fun s va => (s.askWalk p t va).getD s) s
/-- What a walk does to the misses of a tile's other units: they are over, or its fault is kept for each. -/
def unitsWalked (l : List (Word × Option Nat)) (page : Word) (r : Walk) : List (Word × Option Nat) :=
  match r with
  | .ok e => l.filter (fun u => !walkServes page (some e) u.1)
  | .fault c => l.map (fun u => if u.1 == page && u.2.isNone then (u.1, some c) else u)
/-- A read of a walk of tile t at a level, as a pinned fetch (R177, R190): on the tile itself at once, unless an installed bank command
holds the word (R287), whose wait is counted once; elsewhere by a packet. -/
def State.walkRead (s : State) (p t lvl ea : Nat) (w : Walking) : Walking × State :=
  let h := tileOf ea
  let put (w : Walking) (a : Acc) : Walking := { w with log := tset w.log lvl a }
  if h != t then
    let (n, s) := s.fresh
    (put { w with id := n } (.out s.now), s.send (.walk t n) t h p 1 (.fetch 0 w.page ea (.load 8 false 0)) lvl)
  else if s.bankHeld ea 8 then (put w .held, if tfind w.log lvl == some .held then s else s.bumpHeld ea)
  else if s.badAt ea 8 then (put w (.fault cMemerr), s.bump h (0x100 + 96) 1)
  else (put w (.val (s.rd ea 8)), (s.bump h (0x100 + 48) 1).correct ea 8)
/-- A walk goes on from one table down the remaining levels (R177): n is how many reads it may make now. It answers with its end, if
it comes to it, and with what it has read. -/
def State.walkPass (s : State) (p t : Nat) (w : Walking) (n lvl table : Nat) : List (Nat × Nat) → Option Walk × Walking × State
  | [] => (some (.fault cXlate), w, s)
  | (lo, k) :: rest =>
    if !s.tableOk (paddockOf t) table then (some (.fault cXlate), w, s)
    else
      let ea := localOf table + 8 * nfield w.page.toNat lo k
      let made : Bool := match tfind w.log lvl with | none | some .held => false | _ => true
      let (w, s) := if made || n = 0 then (w, s) else s.walkRead p t lvl ea w
      match tfind w.log lvl with
      | some (.val e) =>
        (match s.walkEntry p w.page.toNat lo e with
         | .inl r => (some r, w, s)
         | .inr table => s.walkPass p t w (if made then n else n - 1) (lvl + 1) table rest)
      | some (.fault c) => (some (.fault c), w, s)
      | _ => (none, w, s)
/-- A bundle that had not issued issues as it traps, and is charged one turn (R144, R148; log 23). -/
def State.chargeUnissued (s : State) : State :=
  if s.x.me.pend.isSome && !s.x.me.arrived then s else (s.charge 1).countIssue
/-- The end of a walk (R174, R177). Strands that waited for it issue their bundles or C slots again, or take its fault with their own
addresses. Commands make their accesses again, or skip them. -/
def State.endWalk (s : State) (p t : Nat) (page : Word) (r : Walk) : State :=
  let cmds (s : State) (e : Option TlbEntry) (c : Nat) : State :=
    { s with cmds := s.cmds.map (fun k => if k.base == t then k.walked page e c else k) }
  let s := s.updTl t (fun x => { x with unitWalks := unitsWalked x.unitWalks page r })
  match r with
  | .ok e =>
    let ws := s.walkers t page (some e)
    let s := s.updTl t (fun x => { x with tlb := tlbAdd 1024 x.tlb e })
    let s := ws.foldl (fun s st => s.onStrand st.sid (fun st => { st with wait := none })) s
    (cmds s (some e) 0).nextWalk p t page
  | .fault c =>
    let ws := s.walkers t page none
    let s := ws.foldl (fun s st =>
      match st.wait with
      | some (.walk va) => s.asStrand st.sid (fun s => (s.chargeUnissued.upd (fun st => { st with wait := none })).trapC c va)
      | _ => s) s
    let s := if c = cMemerr then s.cmds.foldl (fun s k =>
        if k.base == t then k.log.foldl (fun s x =>
          match x.2 with
          | .walk va => if walkServes page none va then s.errEvent p t k.sid va else s
          | _ => s) s
        else s) s else s
    (cmds s none c).nextWalk p t page
/-- WALK_COMPLETE (R174, R177): the walk of page inp.val at tile inp.k goes on, with inp.l of its reads or, for 0, with all that it can
make now, and ends once it has come to a leaf or a fault. -/
def execWalkComplete (s : State) : Out :=
  let t := s.inp.k
  let page := s.inp.val
  match s.pasOfTile t with
  | none => .next s
  | some p =>
    if !((s.tl t).walks.take 16).contains page || (s.tl t).failed then .next s
    else
      let w := ((s.tl t).walkRuns.find? (·.page == page)).getD { page := page, id := 0 }
      let n := if s.inp.l = 0 then walkLevels.length else s.inp.l
      match s.walkPass p t w n 0 ((s.pas p).rootOf (paddockOf t)) walkLevels with
      | (some r, _, s) => .next (s.endWalk p t page r)
      | (none, w, s) => .next (s.updTl t (fun x => { x with walkRuns := x.walkRuns.filter (·.page != page) ++ [w] }))
/-- The answer to a read of a walk whose packet is out. -/
def Walking.fill (w : Walking) (n lvl : Nat) (a : Acc) : Walking :=
  if w.id = n && (match tfind w.log lvl with | some (.out _) => true | _ => false) then { w with log := tset w.log lvl a } else w

/-! ### Pinned reads (R181, R190) -/

/-- A read of a walk, which is the walker's and no access of the party that waits (R177). -/
def Req.ofWalk : Req → Bool
  | .block _ key => 2 ^ 20 ≤ key
  | _ => false
/-- The read of a pinned fetch leaves, once R87 and R29 are met (R190); a failed posted operation is reported first, by a bundle that
has not issued as it would by its issue (R144). -/
def State.sendFetch (s : State) : State :=
  match s.x.me.wait with
  | some (.fetch addr pa r) =>
    let go (s : State) : State :=
      let st := s.x.me
      (s.upd (fun st => { st with wait := some (.reply addr pa r) })).send st.party s.here (destOf s.myPasture (s.homeOf pa))
        s.myPasture 1 (.fetch st.sid addr (localOf pa) r)
    if r.ofWalk then go s
    else if !s.mayLeave s.x.me then s
    else if r == .code && s.x.me.fail.isSome then s.chargeUnissued.reportOr go
    else s.reportOr go
  | _ => s
/-- PINNED_FETCH_SEND (R87, R190): the read of strand inp.sid leaves; with inp.m = 1, that of controller core inp.l of
paddock inp.k. -/
def execPinnedFetchSend (s : State) : Out :=
  if s.inp.m = 1 then .next (s.asCtl s.inp.k s.inp.l State.sendFetch)
  else match s.strandOf s.inp.sid with
    | some st => if s.moves st then .next (s.asStrand st.sid State.sendFetch) else .next s
    | none => .next s
/-- What a home reads for a pinned fetch of one unit, and the state after an atomic performed there (R202, R203). -/
def State.performReq (s : State) (key : Nat) (r : Req) : Nat × State :=
  match r with
  | .load n _ _ => (s.rd key n, s.correct key n)
  | .amor op n b _ => (s.rd key n, s.amoAt op key n b.toNat)
  | .cas n old new _ => (s.rd key n, s.casAt key n old.toNat new.toNat)
  | .record => (0, s)
  | _ => (s.rd key 8, s.correct key 8)
/-- The bytes that a request touches. -/
def Req.bytes : Req → Nat
  | .load n _ _ => n
  | .vload _ => 32
  | .amor _ n _ _ => n
  | .cas n _ _ _ => n
  | .poll _ _ => 8
  | .packet _ _ => 64
  | .wload _ _ => 256
  | .block n _ => n
  | .code => 8
  | .record => 0
/-- A fetch of the copy engine, whose missing reply is the reclaim interval's business (R301). -/
def State.copyFetch (s : State) (k : Packet) : Bool :=
  match k.party with
  | .cmd n => (s.cmd n).any (·.eng == .copy)
  | _ => false
/-- What a home does with a pinned fetch: the value, or what of it is read so far; a wide one word by word (R81, R287). One that waits
behind a bank entry is counted once (R291). -/
def State.serveFetch (s : State) (k : Packet) (key : Nat) (r : Req) : (Nat ⊕ Tbl Nat) × State :=
  let n := r.bytes / 8
  if r.bytes ≤ 8 then
    if !s.bankParty k && s.bankHeld key r.bytes then (.inr [], if k.held then s else s.bumpHeld key)
    else let (v, s) := s.performReq key r; (.inl v, s)
  else
    let (log, s') := s.doWords key n k.log (s.inp.vals.map BitVec.toNat) none
    if allWords n log then (.inl (wordsVal n log), s')
    else (.inr log, if s.bankHeld key r.bytes && !k.held then s'.bumpHeld key else s')
/-- The words of a long load that are in error at their home, as a mask (R259). -/
def State.badMask (s : State) (key : Nat) (r : Req) : Nat :=
  match r with
  | .wload _ _ => ((List.range 32).filter (fun i => s.badAt (key + 8 * i) 8)).foldl (fun m i => m + 2 ^ i) 0
  | _ => 0
/-- The request as its reply names it. -/
def Req.marked (r : Req) (bad : Nat) : Req := match r with | .wload c _ => .wload c bad | r => r
/-- A pinned fetch or round trip of another device at local address inp.val of this one (R452): for inp.l = 0 a read of inp.k bytes,
of which inp.vals picks the words, for 1 an AMOR of inp.k bytes with operation inp.sid and operand inp.vals, for 2 a CAS with the two
values inp.vals. An installed bank command holds its words (R287); its data, or its error, leave the device. -/
def State.inboundFetch (s : State) : State :=
  let a := s.inp.val.toNat
  let t := tileOf a
  let n := s.inp.k
  let v (i : Nat) : Word := s.inp.vals.getD i 0
  if !ownMemory a || !s.feat2.getLsbD 7 || (s.tl t).failed || n = 0 || 256 < n || a % n != 0 then s
  else if s.badAt a n then s.bump t (0x100 + 96) 1
  else if s.inp.l = 0 && n % 8 = 0 then s.inboundWords t n (0x100 + 48) none
  else if s.bankHeld a n then (if s.inp.ro then s else s.bumpHeld a)
  else
    let s := s.bump t (0x100 + 48) 1
    if s.inp.l = 0 then s.correct a n
    else if s.inp.l = 1 then (s.performReq a (.amor (s.inp.sid.setWidth 4) n (v 0) 0)).2
    else if s.inp.l = 2 then (s.performReq a (.cas n (v 0) (v 1) 0)).2
    else s
/-- PINNED_FETCH_REQUEST (R190, R214): request inp.k reaches its home, which performs it and replies. Another device's data
are inp.wide; with inp.m = 1 that device reports cause inp.l. With inp.m = 2 it is a request of another device (R452). -/
def execPinnedFetchRequest (s : State) : Out :=
  if s.inp.m = 2 then .next s.inboundFetch
  else match s.packet s.inp.k with
  | some k =>
    match k.body with
    | .fetch sid addr key r =>
      let t := s.target k
      let answer (s : State) (r : Req) (v : Nat) (c : Option Nat) : Out :=
        .next ((s.accept { k with dst := t }).reply k.party t k.src k.pasture k.cls (.data sid r (BitVec.ofNat 2048 v) c addr) k.key)
      let part (s : State) (log : Tbl Nat) : Out := .next (s.keepPart k log (s.bankHeld key r.bytes))
      if k.dst < 16384 then
        if (s.tl t).failed then (if s.copyFetch k then .next s else answer s r 0 (some cHomeLost))
        else if r.bytes != 256 && s.badAt key r.bytes then answer (s.bump t (0x100 + 96) 1) r 0 (some cMemerr)
        else match s.serveFetch k key r with
          | (.inl v, s) =>
            let s := s.bump t (0x100 + 48) 1
            let bad := s.badMask key r
            answer (if bad = 0 then s else s.engineErr k.pasture t sid addr) (r.marked bad) v none
          | (.inr log, s) => part s log
      else if k.dst < 32768 then
        match s.serveFetch k key r with
        | (.inl v, s) => answer s r v none
        | (.inr log, s) => part s log
      else if !s.reaches k.dst then .next s
      else if s.inp.m = 1 then answer s r 0 (some s.inp.l)
      else answer s r (s.inp.wide.toNat % 2 ^ (8 * r.bytes)) none
    | _ => .next s
  | none => .next s

end Sys2Proof.Machine
end

