-- ==== Sys2Proof/Machine/Dispatcher.lean ====
section
/-! DEFINITION. The dispatcher (R216 to R242): slice packets, acceptance and placement, SPAWN, groups, JOIN, YIELD, DLSET,
SLICEINFO, the binding of slices, watch timers and the traps of BUDGET; and the replies of pinned reads. -/

namespace Sys2Proof.Machine

open Sys2Proof

/-! ### Slice packets (R216, R217) -/

/-- NGRP of a packet. -/
def packetNgrp (bs : List Byte) : Nat := nfield (bfield bs 0x38 2) 9 3
/-- The first NGRP group numbers of a packet. -/
def packetGroups (bs : List Byte) : List Nat := (List.range (packetNgrp bs)).map (fun i => bfield bs (0x2C + i) 1)
/-- A malformed packet (R217). -/
def packetBad (bs : List Byte) : Bool :=
  nfield (bfield bs 0x38 2) 12 4 != 0 || !recZero bs 0x3A 6 || bfield bs 0 8 % 8 != 0 || nfield (bfield bs 0 8) 56 8 != 0
    || bfield bs 0x18 8 % 8 != 0 || 4 < packetNgrp bs || (packetGroups bs).any (· == 255) || !(packetGroups bs).Nodup
/-- The slice of a well-formed packet, accepted at a pasture time for a given depth (R216, R217, R223). -/
def packetSlice (bs : List Byte) (b : Pcb) (depth accept order : Nat) : Slice :=
  let d := bfield bs 0x30 8
  let deadline : BitVec 40 := BitVec.ofNat 40 d
  let n := packetNgrp bs
  { entry := wd (bfield bs 0 8), arg := wd (bfield bs 8 8), affinity := wd (bfield bs 0x10 8), join := wd (bfield bs 0x18 8)
    fmt := (fmtOf (wd (bfield bs 0x20 4))).setWidth 32, sca := BitVec.ofNat 32 (bfield bs 0x24 4), scb := BitVec.ofNat 32 (bfield bs 0x28 4)
    grp := BitVec.ofNat 32 (leNat ((List.range 4).map (fun i => if i < n then (BitVec.ofNat 8 (bfield bs (0x2C + i) 1)) else 0xFF)))
    deadline := deadline
    budget := BitVec.ofNat 24 (if d / 2 ^ 40 % 2 ^ 24 = 0 then b.dbud else d / 2 ^ 40)
    near := nfield (bfield bs 0x38 2) 8 1 == 1, ngrp := n, depth := depth, cls := nfield (bfield bs 0x38 2) 0 3
    accept := accept, ed := effective deadline accept accept b.age, order := order }

/-! ### Acceptance and placement (R219 to R222, R234) -/

/-- The home of a translated address must be a tile of this device; otherwise PROT. -/
def State.tileHome (s : State) (pa : Nat) : Nat ⊕ Nat :=
  match s.homeOf pa with
  | .tile t => .inl t
  | _ => .inr cProt
/-- The tile of AFFINITY, from its translation as HOMEOF makes it (R221). -/
def State.affinityOf (s : State) (r : Nat ⊕ Nat) : Nat ⊕ Nat :=
  match r with
  | .inr c => .inr c
  | .inl pa => s.tileHome pa
/-- The local address of a JOIN counter, from its translation with R and W: it must lie in this device's DRAM or scratchpad
(R221). -/
def State.joinOf (s : State) (r : Nat ⊕ Nat) : Nat ⊕ Nat :=
  match r with
  | .inr c => .inr c
  | .inl pa => match s.tileHome pa with | .inl _ => .inl (localOf pa) | .inr c => .inr c
/-- Whether a class is open (R219); none is in a DRAINED pasture (R425). -/
def Pasture.isOpen (q : Pasture) (c : Nat) : Bool := q.opened.getLsbD c && q.st != .drained
/-- A slice becomes a member of its groups (R234). -/
def Pasture.joinGroups (q : Pasture) (gs : List Nat) : Pasture :=
  { q with groups := gs.foldl (fun g n => let e := tget g n {}; tset g n { e with members := e.members + 1 }) q.groups }
/-- A slice is accepted into its class queue: a pool entry, its groups (R220, R234). -/
def State.acceptSlice (s : State) (p : Nat) (gs : List Nat) (l : Slice) : State :=
  s.updPas p (fun q => { (q.joinGroups gs) with pool := q.pool + 1, classQ := q.classQ ++ [l] })
/-- The logical distance of two tiles of a pasture. -/
def Pasture.logicalDist (q : Pasture) (a b : Nat) : Nat :=
  match q.logical a, q.logical b with
  | some (r, c), some (r', c') => ((r : Int) - r').natAbs + ((c : Int) - c').natAbs
  | _, _ => tileDist a b
/-- The tile for which a slice is placed (R221). -/
def State.placeTile (s : State) (p : Nat) (l : Slice) : Nat :=
  if !l.near || (s.freeSlot l.home).isSome then l.home
  else
    let q := s.pas p
    (least (fun a b => q.logicalDist l.home a < q.logicalDist l.home b || (q.logicalDist l.home a == q.logicalDist l.home b && a < b))
      ((paddockTiles (paddockOf l.home)).filter (fun t => (s.freeSlot t).isSome && !(s.tl t).failed && !q.retired.contains t))).getD l.home
/-- A slice enters a tile's ready queue, or the overflow store where the queue is full (R222). -/
def State.enqueue (s : State) (p t : Nat) (l : Slice) : State :=
  let l := { l with home := t }
  if (s.tl t).readyQ.length < 64 then s.updTl t (fun x => { x with readyQ := x.readyQ ++ [l] })
  else s.updPas p (fun q => { q with overflow := q.overflow ++ [l] })

/-! ### SPAWN and SPAWNW (R237) -/

/-- A child is accepted: its join counter rises by 1, at once on the issuing tile and elsewhere by a posted operation, which is
acknowledged before the child binds (R237). -/
def State.spawnAccept (s : State) (d : RegNo) (h : Nat) (join : Option Nat) (bs : List Byte) : State :=
  let st := s.x.me
  let p := st.pasture
  let addr := wd (bfield bs 0x18 8)
  let accept (s : State) (after : Option Nat) : State :=
    let (n, s) := s.fresh
    let l := packetSlice bs (s.pas p).pcb (st.slice.depth + 1) (s.pasTime p s.here) n
    ((s.acceptSlice p (packetGroups bs) { l with home := h, after := after }).wg d 1).adv
  match join with
  | none => accept s none
  | some key =>
    if tileOf key = s.here then
      s.withLocal (s.devnum.toNat * 2 ^ 45 + key) 8 (fun s =>
        if s.badAt key 8 then s.memErr addr key
        else
          let s := s.correct key 8
          accept (s.st key 8 (wd (s.rd key 8) + 1).toNat) none)
    else s.leaving addr (fun s => s.postOp (tileOf key) 1 (.amo 0 key 8 1 addr) (fun s =>
      accept s (s.unacked.getLast?.map (·.id))))
/-- The loop of R237: depth, class, pool, in that order. -/
def State.spawnTry (s : State) (d : RegNo) (wait : Bool) (h : Nat) (join : Option Nat) (bs : List Byte) : State :=
  let q := s.pas s.x.me.pasture
  if q.pcb.depth < s.x.me.slice.depth + 1 then (s.wg d 2).adv
  else if !q.isOpen (nfield (bfield bs 0x38 2) 0 3) then (s.wg d 3).adv
  else if q.pcb.pool ≤ q.pool then
    if wait then s.parkWith (.pool d bs) id else (s.wg d 0).adv
  else s.spawnAccept d h join bs
/-- SPAWN once its packet has been read (R237): the translations of AFFINITY and JOIN are made once. -/
def State.spawnFrom (s : State) (d : RegNo) (wait : Bool) (addr : Word) (bs : List Byte) : State :=
  let aff := wd (bfield bs 0x10 8)
  let join := wd (bfield bs 0x18 8)
  if packetBad bs then s.trapC cProt addr
  else s.once 3 (fun s k => s.withXlate aff needNone (fun s r =>
      match s.affinityOf r with | .inl h => k s h | .inr c => s.trapC c aff)) (fun s h =>
    if join = 0 then s.spawnTry d wait h none bs
    else s.once 4 (fun s k => s.withXlate join needRW (fun s r =>
        match s.joinOf r with | .inl key => k s key | .inr c => s.trapC c join))
      (fun s key => s.spawnTry d wait h (some key) bs))
/-- SPAWN and SPAWNW: ALIGN, the release at D, then the packet, read once, locally or by pinned fetch. -/
def spawnOp (d a : RegNo) (wait : Bool) (s : State) : State :=
  let p := s.g a
  let read (s : State) (k : State → Nat → State) : State := s.withFence 2 (fun s => s.withPa p needR (fun s pa =>
    let far (s : State) : State := s.leaving p (fun s => s.park (.fetch p pa (.packet d wait)))
    match s.homeOf pa with
    | .tile t =>
      if s.isHere t then s.readEach recordPlace (recWords p pa 64) k else far s
    | _ => far s))
  if p.toNat % 64 != 0 then s.trapC cAlign p
  else s.once 1 read (fun s v => s.spawnFrom d wait p (leBytes 64 v))
/-- SPAWN (R237). -/
def execSpawn (d a : RegNo) (s : State) : Out := .next (spawnOp d a false s)
/-- SPAWNW (R237). -/
def execSpawnw (d a : RegNo) (s : State) : Out := .next (spawnOp d a true s)
/-- SPAWNW_POOL_RETRY (R237): a pool entry is free, and the loop of strand inp.sid's SPAWNW is tried again. -/
def execSpawnwPoolRetry (s : State) : Out :=
  match s.strandOf s.inp.sid with
  | some st =>
    match st.wait with
    | some (.pool d bs) =>
      if (s.pas st.pasture).pool < (s.pas st.pasture).pcb.pool && s.moves st then
        .next (s.asStrand st.sid (fun s =>
          (s.upd (fun st => { st with wait := none })).spawnTry d true ((s.noted 3).getD 0) (s.noted 4) bs))
      else .next s
    | _ => .next s
  | none => .next s

/-! ### JOIN, DLSET, SLICEINFO, YIELD (R218, R239 to R242) -/

/-- JOIN (R239). -/
def execJoin (a : RegNo) (s : State) : Out :=
  let ea := s.g a
  .next (s.withAligned ea 8 needR (fun s pa => s.waitOp ea pa true 0))
/-- DLSET (R241). -/
def execDlset (a : RegNo) (s : State) : Out :=
  let d : BitVec 40 := (s.g a).setWidth 40
  let now := s.pasTime s.x.me.pasture s.here
  let age := (s.pas s.x.me.pasture).pcb.age
  .next (s.upd (fun st =>
    { st with deadline := d, slice := { st.slice with ed := effective d now st.slice.accept age } })).adv
/-- Where the C slot notes that the slice record has come, or the cause for which it has not. -/
def recordKey : Nat := 105
/-- The slice record stands at the strand's origin tile (R218): from another tile it is read by pinned fetch, once. The record's bits
are no memory: the fetch names the origin tile, and Strand.slice holds what it brings (log 81). The spec names no UTVAL of a fetch
that fails: a free value (log 15). -/
def State.withRecord (s : State) (k : State → State) : State :=
  let h := originOf s.x.me.sid
  if s.x.me.hslot || h == s.here then k s
  else match s.noted recordKey with
    | some 0 => k s
    | some c => s.trapFree c
    | none => s.park (.fetch 0 (s.devnum.toNat * 2 ^ 45 + h * 2 ^ 29) .record)
/-- The value that SLICEINFO reads (R242). -/
def State.sliceInfo (s : State) (n : Nat) : Option Word :=
  let st := s.x.me
  let l := st.slice
  let q := s.pas st.pasture
  let own (v : Nat) : Option Word := some (if st.hslot then 0 else wd v)
  match n with
  | 0 => own l.depth
  | 1 => own l.cls
  | 2 => own (if l.near then 1 else 0)
  | 3 => own l.ngrp
  | 4 => own l.budget.toNat
  | 5 => own l.join.toNat
  | 6 => own l.affinity.toNat
  | 7 => own l.accept
  | 8 => own (wrapInt 64 l.ed)
  | 9 => some (wd q.pcb.depth)
  | 10 => some (wd (q.pcb.pool - q.pool))
  | _ => none
/-- SLICEINFO (R242). -/
def execSliceinfo (d : RegNo) (n : BitVec 8) (s : State) : Out :=
  match s.sliceInfo n.toNat with
  | none => .next s.illegalC
  | some _ => .next (s.withRecord (fun s => (s.wg d ((s.sliceInfo n.toNat).getD 0)).adv))
/-- YIELD (R240): renewal, and the move to the fold unless the strand is kept in its slot or the fold is full. -/
def execYield (s : State) : Out :=
  if s.x.me.hslot then .next s.illegalC
  else .next (s.withRecord (fun s =>
    let t := s.here
    let s := (s.upd (fun st => { st with budget := st.slice.budget, grace := false, watch := 0, fired := false })).adv
    if s.x.me.kept then s
    else if !s.foldRoom t then s.bump t ctrFoldFull 1
    else
      let s := s.dropFollowers s.x.me.sid
      let (st, s) := s.intoFold s.x.me.leave t
      s.upd (fun _ => st)))

/-! ### Groups (R233 to R235) -/

/-- The HOME tile of a group; by default logical (0, 0) (R233). -/
def Pasture.groupHome (q : Pasture) (n : Nat) : Nat :=
  (tget q.groups n {}).home.getD ((q.binding 0 0).getD (corner q.pcb.rootp))
/-- Changes a group. -/
def Pasture.updGroup (q : Pasture) (n : Nat) (f : Group → Group) : Pasture :=
  { q with groups := tset q.groups n (f (tget q.groups n {})) }
/-- The strand's arrival is entered on the list. -/
def Group.arrive (g : Group) (sid : Word) : Group := { g with arrived := g.arrived ++ [sid] }
/-- The phase opens whenever there are arrivals and as many as members (R234): the waiters are woken in arrival order, and one
that waited to arrive again arrives then. -/
def State.openPhase (s : State) (p n : Nat) : Nat → State
  | 0 => s
  | fuel + 1 =>
    let g := tget (s.pas p).groups n {}
    if g.arrived.length = 0 || g.arrived.length < g.members then s
    else
      let s := s.updPas p (fun q => q.updGroup n (fun g => { g with phase := g.phase + 1, arrived := [], waiters := [] }))
      let s := g.waiters.foldl (fun s sid =>
        match (s.strandOf sid).bind (·.wait) with
        | some (.group _ true blocking) =>
          let s := s.updPas p (fun q => q.updGroup n (fun g => g.arrive sid))
          if blocking then
            (s.updPas p (fun q => q.updGroup n (fun g => { g with waiters := g.waiters ++ [sid] }))).onStrand sid
              (fun st => { st with wait := some (.group n false true) })
          else s.onStrand sid Strand.advance
        | some (.group _ false _) => s.onStrand sid Strand.advance
        | _ => s) s
      s.openPhase p n fuel
/-- R234 applied to a group. -/
def State.applyGroup (s : State) (p n : Nat) : State :=
  s.openPhase p n ((tget (s.pas p).groups n {}).waiters.length + 1)
/-- A group access at HOME (R235). -/
def State.groupAccess (s : State) (p n : Nat) (sid : Word) (arrive blocking : Bool) : State :=
  let g := tget (s.pas p).groups n {}
  let listed : Bool := g.arrived.contains sid
  let park (s : State) (again : Bool) : State :=
    (s.updPas p (fun q => q.updGroup n (fun g => { g with waiters := g.waiters ++ [sid] }))).onStrand sid
      (fun st => { st with wait := some (.group n again blocking) })
  if arrive then
    if listed then park s true
    else
      let s := s.updPas p (fun q => q.updGroup n (fun g => g.arrive sid))
      if blocking then (park s false).applyGroup p n
      else (s.onStrand sid Strand.advance).applyGroup p n
  else if listed then park s false
  else s.onStrand sid Strand.advance
/-- Group n is named by the strand's GRP. -/
def Strand.inGroup (st : Strand) (n : Nat) : Bool :=
  n != 255 && (List.range 4).any (fun i => nfield st.grp.toNat (8 * i) 8 == n)
/-- Sends a group access to HOME as a message of class 0; the strand waits for its answer (R235). -/
def State.sendGroup (s : State) (n : Nat) (arrive blocking : Bool) : State :=
  let p := s.x.me.pasture
  let s := s.park (.groupAck n)
  s.send s.x.me.party s.here ((s.pas p).groupHome n) p 0 (.group s.x.me.sid n arrive blocking)
/-- GBAR (R235). -/
def execGbar (n : BitVec 8) (s : State) : Out :=
  if !s.x.me.inGroup n.toNat then .next (s.trapC cProt (zx n))
  else .next (s.withFence 2 (fun s => s.sendGroup n.toNat true true))
/-- GARRIVE (R235). -/
def execGarrive (n : BitVec 8) (s : State) : Out :=
  if !s.x.me.inGroup n.toNat then .next (s.trapC cProt (zx n))
  else .next (s.withFence 2 (fun s => s.sendGroup n.toNat true false))
/-- GWAIT (R235). -/
def execGwait (n : BitVec 8) (s : State) : Out :=
  if !s.x.me.inGroup n.toNat then .next (s.trapC cProt (zx n)) else .next (s.sendGroup n.toNat false true)
/-- GROUP_ACCESS (R235): packet inp.k is applied at the group's HOME tile; that of a strand killed meanwhile does nothing. -/
def execGroupAccess (s : State) : Out :=
  match s.packet s.inp.k with
  | some k =>
    match k.body with
    | .group sid n arrive blocking =>
      if (s.strandOf sid).isNone then .next (s.accept k)
      else .next ((s.accept k).groupAccess k.pasture n sid arrive blocking)
    | _ => .next s
  | none => .next s

/-! ### Binding (R224 to R228) -/

/-- The class that the controllers move next: class 0 first, then weighted round robin (R224). -/
def Pasture.nextClass (q : Pasture) : Option (Nat × List Nat) :=
  let has (c : Nat) : Bool := q.classQ.any (·.cls == c)
  if has 0 then some (0, q.credit)
  else
    let pick (cr : List Nat) : Option Nat := [1, 2, 3, 4, 5, 6, 7].find? (fun c => has c && 0 < cr.getD c 0)
    let spend (cr : List Nat) (c : Nat) : Nat × List Nat := (c, cr.set c (cr.getD c 0 - 1))
    match pick q.credit with
    | some c => some (spend q.credit c)
    | none => (pick q.pcb.weight).map (spend q.pcb.weight)
/-- A candidate takes the slot of a strand that goes to the fold, if the fold has room. -/
def State.bindOver (s : State) (p t i : Nat) (x : Slice × Option Word) (v : Strand) : State :=
  match s.vacate t v with
  | (s, some (c, n)) => s.bindCand p t c n i x
  | (s, none) => s
/-- The longest-parked strand, if its ED is later than a candidate's (R225). -/
def State.parkedFor (s : State) (t : Nat) (x : Slice × Option Word) : Option Strand :=
  (s.longestParked t).filter (fun v => x.1.ed < v.slice.ed)
/-- A class-0 candidate: a free slot; else a victim's slot (R227); else that of the longest-parked strand, if its ED is later
(R225); else, while contexts wait in the arrival queue, that of the longest-parked strand whatever its ED, for the room that is made
for an arrival goes first to a class-0 slice (R183). -/
def State.bindClass0 (s : State) (p t i : Nat) (x : Slice × Option Word) : State :=
  match s.freeSlot t with
  | some (c, n) => s.bindCand p t c n i x
  | none =>
    let room := if (s.tl t).arrivals.isEmpty then none else s.longestParked t
    ((s.victim t) <|> s.parkedFor t x <|> room).elim s (s.bindOver p t i x)
/-- A placed slice reaches its tile: it enters the ready queue, and one of class 0 on a full tile pre-empts at once, with INDEX i.
On a tile that has failed meanwhile it is lost (R439). -/
def State.placeSlice (s : State) (p t i : Nat) (l : Slice) : State :=
  if (s.tl t).failed then s.updPas p (fun q => { q with pool := q.pool - 1 })
  else
    let l := { l with home := t }
    let s := s.enqueue p t l
    if l.cls = 0 && (s.freeSlot t).isNone && (s.pas p).st == .running && s.indexFree t i && (s.tl t).readyQ.contains l
        && s.bindable l then s.bindClass0 p t i (l, none)
    else s
/-- CLASS_QUEUE_MOVE (R221, R222, R224, R227, R388): the controllers of pasture inp.k place the next slice, whose placement crosses
the mesh; or, with inp.l = 1, placement inp.k reaches its tile, with INDEX inp.m for a class-0 slice that pre-empts there. -/
def execClassQueueMove (s : State) : Out :=
  if s.inp.l = 1 then
    match s.packet s.inp.k with
    | some k =>
      match k.body with
      | .slice l => .next ((s.take k).placeSlice k.pasture (s.target k) s.inp.m l)
      | _ => .next s
    | none => .next s
  else
    let p := s.inp.k
    let q := s.pas p
    match q.nextClass with
    | none => .next s
    | some (c, credit) =>
      match q.classQ.find? (·.cls == c) with
      | none => .next s
      | some l =>
        let s := s.updPas p (fun q => { q with credit := credit, classQ := ldel (· == l) q.classQ })
        .next (s.send (.cmd 0) (corner q.pcb.rootp) (s.placeTile p l) p (if c = 0 then 0 else 1) (.slice l))
/-- A candidate of class 1 to 7: a free slot; else the slot of the longest-parked strand, if its ED is later; else that of
the latest-ED victim, if the candidate's ED is earlier by more than MARGIN (R225, R228). -/
def State.bindOther (s : State) (p t i : Nat) (x : Slice × Option Word) : State :=
  match s.freeSlot t with
  | some (c, n) => s.bindCand p t c n i x
  | none =>
    ((s.parkedFor t x) <|> (s.victim t).filter (fun v => x.1.ed + (s.pas p).pcb.margin < v.slice.ed)).elim s
      (s.bindOver p t i x)
/-- SLICE_BIND (R225, R227, R228): tile inp.k gives a slot to the first class-0 candidate, else to the head of the arrival
queue, else to the first candidate; a slice binds with INDEX inp.m (R134). -/
def execSliceBind (s : State) : Out :=
  let t := s.inp.k
  match s.pasOfTile t with
  | none => .next s
  | some p =>
    if (s.pas p).st != .running || (s.tl t).failed || !s.indexFree t s.inp.m then .next s
    else match s.firstCand t (·.cls == 0) with
      | some x => .next (s.bindClass0 p t s.inp.m x)
      | none =>
        if !(s.tl t).arrivals.isEmpty && ((s.freeSlot t).isSome || (s.longestParked t).isSome) then .next (s.tryArrival t)
        else match s.firstCand t (fun _ => true) with
          | some x => .next (s.bindOther p t s.inp.m x)
          | none => .next s

/-! ### Budgets and watch timers (R148, R153, R231, R232, R410) -/

/-- The issuing strand stands in a slot in the issue latch. -/
def State.issuing (s : State) : Bool := s.x.me.inSlot
/-- BUDGET (R148, R149): BUDGET is 0 when a bundle would issue, and not for the second time (R153); handler slots have none (R231).
The spec states no UTVAL: a free value (log 15). -/
def execBudget (s : State) : Out :=
  if s.issuing && !s.x.me.hslot && s.x.me.budget = 0 && !s.x.me.grace then .next (s.trapFree cBudget) else .next s
/-- BUDGET_GRACE_EXPIRY (R153): BUDGET is 0 again within the grace, and the strand escalates. -/
def execBudgetGraceExpiry (s : State) : Out :=
  if s.issuing && !s.x.me.hslot && s.x.me.budget = 0 && s.x.me.grace then
    let (v, s) := s.takeFree
    .next (s.escalate cBudget s.x.me.pcByte v s.x.aDone)
  else .next s
/-- HANDLER_BUDGET (R148, R410): a handler slot has spent 4,096 turns. -/
def execHandlerBudget (s : State) : Out :=
  if s.issuing && s.x.me.hslot && 4096 ≤ s.x.me.hturns then .next (s.trapFree cHandlerBudget) else .next s
/-- WATCH (R232): the watch timer of strand inp.sid reaches its interval, once per run. The record's VAL is not stated: a free
value (log 15). -/
def execWatch (s : State) : Out :=
  match s.strandOf s.inp.sid with
  | none => .next s
  | some st =>
    let w := (s.pas st.pasture).pcb.watch.getD st.slice.cls 0
    if w = 0 || st.watch < w || st.fired || st.hslot || (s.pas st.pasture).st != .running then .next s
    else
      let (v, s) := s.takeFree
      .next ((s.onStrand st.sid (fun st => { st with fired := true })).pastureEvent st.pasture st.tile cWatch st.slice.cls
        st.tile st.sid v)

/-! ### The replies of pinned reads (R190, R205, R237) -/

/-- Bundles that a core's fetch buffer of 1 KiB holds (R180). -/
def fetchDepth : Nat := 128
/-- A bundle comes to the fetch buffer of the issuing strand's core. -/
def State.bufferCode (s : State) (pa v : Nat) : State :=
  let c := s.x.me.core
  s.updTl s.here (fun x => { x with fbuf := tset x.fbuf c (((pa, v) :: tget x.fbuf c []).take fetchDepth) })
/-- The data of a pinned read reach the party in the latch. Those of a block are noted for its C slot, or 2^(8n) more than the cause
that there is in their place, under the key that the wait names by now. -/
def State.takeReply (s : State) (r : Req) (v : Nat) (c : Option Nat) (addr : Word) : State :=
  match s.x.me.wait with
  | some (.reply _ pa w) =>
    let s := s.upd (fun st => { st with wait := none })
    let noted (key v : Nat) : State :=
      s.upd (fun st => { st with pend := st.pend.map (fun p => { p with log := tset p.log (memoKey key) v }) })
    let r : Req := match w with | .block n key => .block n key | _ => r
    match c with
    | some c =>
      (match r with
       | .block n key => noted key (2 ^ (8 * n) + c)
       | .record => noted recordKey c
       | .code => s.chargeUnissued.trapC c addr
       | _ => s.trapC c addr)
    | none =>
      match r with
      | .load n signed d => (s.wg d (if signed then wd (wrapInt 64 (signedOf (8 * n) v)) else wd v)).adv
      | .vload d => (s.wv d (BitVec.ofNat 256 v)).adv
      | .amor _ _ _ d => (s.wg d (wd v)).adv
      | .cas _ _ _ d => (s.wg d (wd v)).adv
      | .poll zero target =>
        if counterHolds zero target v then s.adv
        else if s.x.me.hslot then s.trapFree cHandlerPark
        else s.upd (fun st => { st with wait := some (.poll addr pa zero target) })
      | .packet d wait => (s.note 1 v).spawnFrom d wait addr (leBytes 64 v)
      | .wload _ _ => s
      | .block _ key => noted key v
      | .code => s.bufferCode pa v
      | .record => noted recordKey 0
  | _ => s
/-- Marks in the log of a sequencer's entry beside its 32 words: its packet is out; the words in error, as a mask; its wait
behind a bank entry is counted. -/
def markOut : Nat := 32
/-- The words in error. -/
def markBad : Nat := 33
/-- The wait is counted. -/
def markHeld : Nat := 34
/-- The data of a long load reach the entry of the sequencer that asked for them; all words are in error where the load was not
performed (R259). -/
def State.takeLong (s : State) (t core bad v : Nat) : State :=
  let fill (e : SeqEntry) : SeqEntry :=
    { e with log := tset ((List.range 32).map (fun i => (i, elem v 64 i))) markBad bad }
  let asked (e : SeqEntry) : Bool := (tfind e.log markOut).isSome && Instr.isLongAccess e.item.op
  let take (u : LongUnit) : LongUnit := { u with q := lupd asked fill u.q }
  s.updTl t (fun x => { x with long := tset x.long core (take (tget x.long core {})) })
/-- PINNED_FETCH_REPLY (R31, R190): packet inp.k brings the data of a pinned read of a strand, controller core or command, or its
error. -/
def execPinnedFetchReply (s : State) : Out :=
  match s.packet s.inp.k with
  | some k =>
    match k.body with
    | .data sid r v c addr =>
      let s := s.accept k
      match k.party with
      | .ctl p n => .next (s.asCtl p n (fun s => s.takeReply r v.toNat c addr))
      | .walk t n =>
        let a : Acc := match c with | some e => .fault e | none => .val v.toNat
        .next (s.updTl t (fun x => { x with walkRuns := x.walkRuns.map (fun w => w.fill n k.key a) }))
      | .cmd n =>
        let s := s.fillLog n k.key (match c with | some e => .fault e | none => .val v.toNat)
        .next (if c == some cMemerr then s.errEvent k.pasture (if k.src < 16384 then k.src else k.dst) (s.partySid k.party) addr
               else s)
      | _ =>
        match r with
        | .wload core bad =>
          .next (match c with
            | some c => (if c = cMemerr then s.errEvent k.pasture k.dst sid addr else s).takeLong k.dst core (2 ^ 32 - 1) 0
            | none => s.takeLong k.dst core bad v.toNat)
        | _ => .next (s.asStrand sid (fun s => s.takeReply r v.toNat c addr))
    | _ => .next s
  | none => .next s

end Sys2Proof.Machine
end

