-- ==== Sys2Proof/Machine/Select.lean ====
section
/-! DEFINITION. The select engine (R347 to R361): its four commands at issue and in the engine. -/

namespace Sys2Proof.Machine

open Sys2Proof

/-! ### Records (R351 to R353) -/

/-- A type of keys. -/
def keyTy (c : Nat) : Bool := c ≤ 6 || (8 ≤ c && c ≤ 14)
/-- Bytes of a key. -/
def keySize (c : Nat) : Nat := tyW c / 8
/-- A malformed SELOPEN record. -/
def State.selOpenBad (s : State) (b : List Byte) : Bool :=
  let k := bfield b 0 4
  let n := bfield b 4 1
  let t := bfield b 5 1
  k = 0 || 256 < k || n = 0 || 64 < n || !keyTy t || !s.typeOn t || 4 ≤ bfield b 6 1 || !recZero b 7 25
/-- A malformed SELPUSH record for a context. -/
def selPushBad (x : SelCtx) (b : List Byte) : Bool :=
  let z := keySize x.heldT
  let n := bfield b 0x10 4
  bfield b 0 8 % z != 0 || bfield b 8 8 % z != 0 || 2 ^ 20 < n || (1 ≤ n && 2 ^ 32 ≤ bfield b 0x14 4 + n - 1)
    || !recZero b 0x18 8
/-- A malformed SELEMIT record for a context. -/
def selEmitBad (x : SelCtx) (b : List Byte) : Bool :=
  let form := bfield b 0x12 1
  let z := if form = 0 then 8 else 4
  2 ≤ form || bfield b 0 8 % z != 0 || bfield b 8 8 % z != 0 || bfield b 0x10 2 = 0 || x.heldK < bfield b 0x10 2
    || !recZero b 0x13 13

/-! ### Issue (R355) -/

/-- Queues a select command for a context, which is noted when it is queued. -/
def State.selQueue (s : State) (op : Instr) (i : Nat) (bs : List Byte) (ctr : Option Nat) (f : SelCtx → SelCtx) : State :=
  s.issueCmd .select op 0 (fun c => { c with blk := bs, ctr := ctr, num := i }) (fun s => (s.updSel s.here i f).adv)
/-- Where the C slot notes that a SELOPEN has passed every check: none of its traps can come later (R355). -/
def selOpenKey : Nat := 107
/-- A SELOPEN that has passed its checks takes a context, or waits for one, and is queued. -/
def State.selOpen (s : State) (a : RegNo) (bs : List Byte) : State :=
  let t := s.here
  let sid := s.x.me.sid
  let take (s : State) (i : Nat) : State :=
    (s.updSel t i (fun x => { x with owner := some sid })).queueCmd .select (.selopen a) 0
      (fun c => { c with blk := bs, num := i })
      (fun s => (s.updSel s.here i (fun x => { x with heldK := bfield bs 0 4, heldT := bfield bs 5 1 })).adv)
  match s.selOwned t sid with
  | some i => take s i
  | none =>
    if (s.tl t).selWait.contains sid then s.park .queue
    else match s.selFreeOne t, (s.tl t).selWait with
      | some i, [] => take s i
      | _, _ => ((s.bump t 0xE28 1).updTl t (fun x => { x with selWait := x.selWait ++ [sid] })).park .queue
/-- SELOPEN (R355): one that waits has been checked, and has its record. -/
def execSelopen (a : RegNo) (s : State) : Out :=
  if s.x.me.hslot then .next s.illegalC
  else match s.noted selOpenKey with
    | some v => .next (s.selOpen a (leBytes 32 v))
    | none => .next (s.withBlock (s.g a) 32 32 (fun s bs =>
        if s.selOpenBad bs then s.trapC cProt (s.g a)
        else s.withReport 0 (fun s => (s.note selOpenKey (leNat bs)).selOpen a bs)))
/-- SELCONTEXT_GRANT (R355): the first strand that waits on tile inp.k takes a free context. -/
def execSelcontextGrant (s : State) : Out :=
  let t := s.inp.k
  match (s.tl t).selWait, s.selFreeOne t with
  | sid :: r, some i =>
    .next ((s.updTl t (fun x => { x with selWait := r })).updSel t i (fun x => { x with owner := some sid }))
  | _, _ => .next s
/-- SELPUSH (R355). -/
def execSelpush (a b : RegNo) (s : State) : Out :=
  if s.x.me.hslot then .next s.illegalC
  else match s.selOwned s.here s.x.me.sid with
    | none => .next s.illegalC
    | some i =>
      .next (s.withBlock (s.g a) 32 32 (fun s bs =>
        if selPushBad (s.selCtx s.here i) bs then s.trapC cProt (s.g a)
        else s.withCounter (s.g b) true (fun s ctr => s.selQueue (.selpush a b) i bs ctr id)))
/-- SELEMIT (R355). -/
def execSelemit (a b : RegNo) (s : State) : Out :=
  if s.x.me.hslot then .next s.illegalC
  else match s.selOwned s.here s.x.me.sid with
    | none => .next s.illegalC
    | some i =>
      .next (s.withBlock (s.g a) 32 32 (fun s bs =>
        if selEmitBad (s.selCtx s.here i) bs then s.trapC cProt (s.g a)
        else s.withCounter (s.g b) true (fun s ctr => s.selQueue (.selemit a b) i bs ctr id)))
/-- SELRESET (R355): the context is free for another strand as soon as it is queued (R348). -/
def execSelreset (s : State) : Out :=
  if s.x.me.hslot then .next s.illegalC
  else match s.selOwned s.here s.x.me.sid with
    | none => .next s.illegalC
    | some i => .next (s.selQueue .selreset i [] none (fun x => { x with owner := none }))

/-! ### The engine (R356 to R358) -/

/-- The engine accepts a command unless it holds 8. -/
def State.acceptSelect (s : State) (c : Cmd) : Option State :=
  if 8 ≤ (s.cmds.filter (fun d => d.eng == .select && d.tile == c.tile && d.accepted)).length then none
  else
    let (o, s) := s.fresh
    some (s.updCmd c.id (fun c => { c with st := .held, ord := o }))
/-- A command of the same context that was issued before it is still to complete (R358). -/
def State.selBehind (s : State) (c : Cmd) : Bool :=
  s.cmds.any (fun d => d.selLive && d.tile == c.tile && d.num == c.num && d.id < c.id)
/-- A command may go on: its gate is clear (R30), it comes first in its context, and it has its turn to start (R28). -/
def State.selTurn (s : State) (c : Cmd) : Bool :=
  c.eng == .select && c.st == .held && s.gateOpen c && !(s.tl c.tile).failed && !s.selBehind c && s.mayStart c s.selBehind
/-- A command's work is done. err is what its counter records; note, what an event names where there is no counter. -/
def State.selDone (s : State) (c : Cmd) (err : Option Nat) (note : Option (Nat × Word)) : State :=
  let s := if c.ctr.isSome then s else note.elim s (fun e => s.failEvent c.pasture c.tile e.1 c.sid e.2)
  s.finishCmd c err
/-- Command inp.k, if it may run. -/
def State.selCmd (s : State) (k : Cmd → Out) : Out :=
  match s.cmd s.inp.k with
  | some c => if s.selTurn c then k c else .next s
  | none => .next s
/-- SELOPEN_EXEC (R356). -/
def execSelopenExec (s : State) : Out :=
  s.selCmd (fun c =>
    match c.op with
    | .selopen _ =>
      let f := bfield c.blk 6 1
      let n := bfield c.blk 4 1
      let s1 := s.updSel c.tile c.num (fun x => { x with
        k := bfield c.blk 0 4, c := n, ktype := bfield c.blk 5 1, smallest := f % 2 == 1, row := f / 2 % 2 == 1
        lists := List.replicate n [], err := none })
      .next (s1.selDone c none none)
    | _ => .next s)
/-- SELRESET_EXEC (R356): the lists are discarded. -/
def execSelresetExec (s : State) : Out :=
  s.selCmd (fun c =>
    match c.op with
    | .selreset =>
      let s1 := s.updSel c.tile c.num (fun x => { owner := x.owner, heldK := x.heldK, heldT := x.heldT })
      .next (s1.selDone c none none)
    | _ => .next s)

/-- The value of a key: floating ones exactly, integers as numbers. -/
def keyVal (t k : Nat) : FVal :=
  if isFloat t then decodeF t k false else let v := decodeInt t k; .fin (v < 0) v.natAbs 1
/-- Candidate a ranks before candidate b (R349). -/
def candBefore (x : SelCtx) (a b : Cand) : Bool :=
  let u := keyVal x.ktype a.key
  let v := keyVal x.ktype b.key
  let tie := a.idx < b.idx || (a.idx == b.idx && a.push < b.push)
  if u.isNaN != v.isNaN then v.isNaN
  else if u.isNaN then tie
  else if ltF u v then x.smallest
  else if ltF v u then !x.smallest
  else tie
/-- Offers a candidate to list j (R350). -/
def SelCtx.offer (x : SelCtx) (j : Nat) (a : Cand) : SelCtx :=
  { x with lists := x.lists.set j ((insertBy (candBefore x) a (x.lists.getD j [])).take x.k) }
/-- What a pass over a push or an emission gathers. -/
structure SelRun where
  r : Run
  x : SelCtx
  err : Option (Nat × Word) := none
  deriving DecidableEq, Repr
/-- A key or position is skipped. -/
def SelRun.skip (b : SelRun) (r : Run) (c : Cmd) (e : Nat) (va : Word) : SelRun :=
  { b with r := r.effect (fun s => s.bump c.tile 0xE10 1), err := b.err <|> some (e, va) }
/-- The key for index BASE + i in list j (R352), offered once it is read. -/
def SelRun.key (b : SelRun) (c : Cmd) (i j : Nat) : SelRun :=
  let z := keySize b.x.ktype
  let stride := bfieldS c.blk 8 8
  let base := wd (bfield c.blk 0 8)
  let va := if b.x.row then addInt base (stride * j) + wd (i * z) else addInt base (stride * i) + wd (j * z)
  match (b.r.begin 3 (64 * i + j)).read c va z with
  | (.inr e, r) => b.skip r c e va
  | (.inl v, r) =>
    if r.blocked then { b with r := r }
    else { b with r := r.effect (fun s => s.bump c.tile 0xE08 1)
                  x := b.x.offer j { idx := bfield c.blk 0x14 4 + i, key := v, push := c.ord } }
/-- The keys of index i on, every list of each. -/
def SelRun.keys (b : SelRun) (c : Cmd) (i : Nat) : Nat → SelRun
  | 0 => b
  | n + 1 => ((List.range b.x.c).foldl (fun b j => b.key c i j) b).keys c (i + 1) n
/-- A pass over a SELPUSH: the lists take its keys once every one of them is read or skipped (R350, R357). -/
def State.runPush (s : State) (c : Cmd) : State :=
  let b := SelRun.keys { r := s.run c, x := s.selCtx c.tile c.num } c 0 (bfield c.blk 0x10 4)
  let s := b.r.save c
  if b.r.pend then s
  else
    let keep : Bool := c.ctr.isNone && b.x.err.isNone
    let s := s.updSel c.tile c.num (fun x => { x with lists := b.x.lists, err := if keep then b.err else x.err })
    s.selDone c (b.err.map (·.1)) (if keep then none else b.err)
/-- SELPUSH_EXEC (R356, R357): command inp.k goes on. -/
def execSelpushExec (s : State) : Out :=
  s.selCmd (fun c =>
    match c.op with
    | .selpush .. => .next (s.runPush c)
    | _ => .next s)
/-- Translates a place that is to be written. -/
def Run.placeAt (r : Run) (c : Cmd) (va : Word) : Option Nat × Run :=
  writeErr (r.at_ c false va needW (fun s pa _ _ => (some (.val pa), s)))
/-- Writes a pair, both of whose words must have a place (R353). -/
def Run.writePair (r : Run) (c : Cmd) (va : Word) (idx key : Nat) : Option Nat × Run :=
  let (e, r) := r.placeAt c va
  let (e', r) := r.placeAt c (va + 8)
  match e <|> e' with
  | some e => (some e, r)
  | none =>
    let (e, r) := r.write c va 8 idx
    let (e', r) := r.write c (va + 8) 8 key
    (e <|> e', r)
/-- Position p of list j (R353). -/
def SelRun.position (b : SelRun) (c : Cmd) (j p : Nat) : SelRun :=
  let form := bfield c.blk 0x12 1
  let va := addInt (wd (bfield c.blk 0 8)) (bfieldS c.blk 8 8 * j) + wd (p * if form = 0 then 16 else 4)
  let (idx, key) : Nat × Nat :=
    match (b.x.lists.getD j [])[p]? with
    | some a => (a.idx, a.key)
    | none => (0xFFFFFFFF, 0)
  let r := b.r.begin 3 (256 * j + p)
  let (e, r) := if form = 0 then r.writePair c va idx key else r.write c va 4 idx
  match e with
  | some e => b.skip r c e va
  | none => { b with r := r.effect (fun s => s.bump c.tile 0xE18 1) }
/-- A pass over a SELEMIT: it carries the sticky status and clears it (R357). -/
def State.runEmit (s : State) (c : Cmd) : State :=
  let b := (List.range (s.selCtx c.tile c.num).c).foldl (fun b j =>
    (List.range (bfield c.blk 0x10 2)).foldl (fun b p => b.position c j p) b)
    { r := s.run c, x := s.selCtx c.tile c.num : SelRun }
  let s := b.r.save c
  if b.r.pend then s
  else
    let err := b.x.err <|> b.err
    (s.updSel c.tile c.num (fun x => { x with err := none })).selDone c (err.map (·.1)) err
/-- SELEMIT_EXEC (R356, R357): command inp.k goes on. -/
def execSelemitExec (s : State) : Out :=
  s.selCmd (fun c =>
    match c.op with
    | .selemit .. => .next (s.runEmit c)
    | _ => .next s)

end Sys2Proof.Machine
end

