-- ==== Sys2Proof/Machine/Flock.lean ====
section
/-! DEFINITION. The Flock unit of a tile (R365 to R386): the floor, buckets and spilling, pushes, pops, stealing, entries in
flight, and the Flock instructions. -/

namespace Sys2Proof.Machine

open Sys2Proof

/-! ### Units and settings (R367) -/

/-- A tile's Flock unit. -/
def State.flk (s : State) (t : Nat) : Flock := (s.tl t).flock
/-- Changes it. -/
def State.updFlk (s : State) (t : Nat) (f : Flock → Flock) : State := s.updTl t (fun x => { x with flock := f x.flock })
/-- The control block of the pasture that holds a tile. -/
def State.tilePcb (s : State) (t : Nat) : Pcb := (s.pasOfTile t).elim {} (fun p => (s.pas p).pcb)
/-- Records that the spill region of a tile takes. -/
def State.spillCap (s : State) (t : Nat) : Nat := 127 * (s.tl t).spillblk.getD (s.tilePcb t).spillblk
/-- PRIO of a record's bytes. -/
def recPrio (bs : List Byte) : Nat := bfield bs 0 4
/-- A push. -/
def Cmd.isPush (c : Cmd) : Bool := match c.op with | .fpush _ | .fpushRel _ => true | _ => false
/-- A pop. -/
def Cmd.isPop (c : Cmd) : Bool := match c.op with | .fpop _ _ => true | _ => false

/-! ### The floor (R370) -/

/-- Accepted pushes of a tile whose records are not inserted yet, or not acknowledged. -/
def State.pushing (s : State) (t : Nat) : List Cmd :=
  s.cmds.filter (fun c => c.eng == .flock && c.tile == t && c.isPush && (c.st == .held || c.st == .sent))
/-- A pop that has obtained its record, which waits for the strand (R380). -/
def Cmd.obtained (c : Cmd) : Bool := c.isPop && c.st == .ran
/-- The least of a list of priorities, or 0xFFFF_FFFF. -/
def leastPrio (l : List Nat) : Nat := l.foldl min 0xFFFFFFFF
/-- What a tile contributes: held records, those it has sent, those it gave to a pop that is not registered, and entries in
flight. -/
def State.contribution (s : State) (t : Nat) : Nat :=
  let u := s.flk t
  leastPrio (u.recs.map (·.prio) ++ u.given.map (·.2.prio) ++ u.inflight.map (·.2) ++ (s.pushing t).map (fun c => recPrio c.blk))
/-- F of a tile: the lesser of the last result's FLOOR and its own contribution now, and of the domain's floor (R387). Before a
first result FFLOOR and FSTAT read the contribution. -/
def State.floorAt (s : State) (t : Nat) : Nat :=
  match (s.flk t).tree with
  | none => s.contribution t
  | some r =>
    let f := min r.floor (s.contribution t)
    match (s.pasOfTile t).bind (fun p => (s.pas p).domain) with
    | some d => min f d.floor
    | none => f
/-- F + DELTA: a record is eligible below it (R371). -/
def State.bound (s : State) (t : Nat) : Nat := s.floorAt t + (s.tilePcb t).delta

/-! ### Buckets and spilling (R368, R369) -/

/-- The local order: by bucket, then by first insertion. -/
def recBefore (w : Nat) (a b : FRec) : Bool :=
  a.prio / 2 ^ w < b.prio / 2 ^ w || (a.prio / 2 ^ w == b.prio / 2 ^ w && a.order < b.order)
/-- The order of refilling: lowest priority first. -/
def refillBefore (a b : FRec) : Bool := a.prio < b.prio || (a.prio == b.prio && a.order < b.order)
/-- Records in SRAM. -/
def sramCount (l : List FRec) : Nat := (l.filter (·.sram)).length
/-- The lowest bucket that holds a record. -/
def lowBucket (w : Nat) (l : List FRec) : Nat := (leastPrio (l.map (·.prio))) / 2 ^ w
/-- Whether a record's bucket lies in the window of 64 buckets. -/
def inWindow (w lo : Nat) (r : FRec) : Bool := r.prio / 2 ^ w < lo + 64
/-- The progress of a placement: records so far, spilled and refilled now, room left. -/
structure Placing where
  recs : List FRec := []
  spilled : Nat := 0
  refilled : Nat := 0
  room : Nat := 0
  deriving DecidableEq, Repr
/-- Records of SRAM outside the window are spilled while the spill region has room. -/
def spillOut (w lo cap : Nat) (l : List FRec) : Placing :=
  l.foldl (fun a r =>
    if r.sram && !inWindow w lo r && 0 < a.room then
      { a with recs := a.recs ++ [{ r with sram := false }], spilled := a.spilled + 1, room := a.room - 1 }
    else { a with recs := a.recs ++ [r] }) { room := cap - (l.length - sramCount l) }
/-- Spilled records of the window are refilled while SRAM has room. -/
def refill (w lo : Nat) (a : Placing) : Placing :=
  let back := ((a.recs.filter (fun r => !r.sram && inWindow w lo r)).foldl (fun l r => insertBy refillBefore r l) []).take
    (4096 - sramCount a.recs)
  { a with recs := a.recs.map (fun r => if back.any (·.order == r.order) then { r with sram := true } else r)
           refilled := back.length }
/-- Where a new record is kept. -/
def placeNew (w lo : Nat) (a : Placing) (r : FRec) : Placing :=
  let sram := sramCount a.recs < 4096
  if sram && (inWindow w lo r || a.room = 0) then { a with recs := a.recs ++ [{ r with sram := true }] }
  else { a with recs := a.recs ++ [{ r with sram := false }], spilled := a.spilled + 1 }
/-- Placement after a change of a tile's records, with a new record or none. -/
def State.settle (s : State) (t : Nat) (new : Option FRec) : State :=
  let w := (s.tilePcb t).wshift
  let l := (s.flk t).recs
  let lo := lowBucket w (l ++ new.toList)
  let a := spillOut w lo (s.spillCap t) l
  let a := new.elim a (placeNew w lo a)
  let a := refill w lo a
  ((s.updFlk t (fun u => { u with recs := a.recs })).bump t 0xF28 a.spilled).bump t 0xF30 a.refilled
/-- A unit that holds as many records as it can. -/
def State.flockFull (s : State) (t : Nat) : Bool := 4096 + s.spillCap t ≤ (s.flk t).recs.length
/-- The parked pops of a tile try again (R373). -/
def State.wakePops (s : State) (t : Nat) : State :=
  { s with cmds := s.cmds.map (fun c =>
      if c.eng == .flock && c.tile == t && c.isPop && c.st == .parked then { c with st := .held, asked := [] } else c) }
/-- A record is inserted, with the place in the order that it has. -/
def State.insertRec (s : State) (t : Nat) (r : FRec) : State :=
  (((s.updFlk t (fun u => { u with full := false })).settle t (some r)).bump t 0xF00 1).wakePops t
/-- A record is inserted for the first time. -/
def State.insertNew (s : State) (t prio : Nat) (bytes : List Byte) : State :=
  let (n, s) := s.fresh
  s.insertRec t { prio := prio, bytes := bytes, order := n }
/-- A full unit refuses a record or holds one back: counted, with FLOCK_FULL the first time since it accepted one. -/
def State.flockRefuse (s : State) (p t : Nat) : State :=
  let s' := (s.bump t 0xF38 1).updFlk t (fun u => { u with full := true })
  if (s.flk t).full then s' else s'.post p t 0x31 noCls t 0 (wd t)

/-! ### Entries in flight (R372, R375) -/

/-- The tile that keeps the entry of a strand. -/
def State.entryTile (s : State) (p : Nat) (sid : Word) : Nat := (s.pas p).forward (originOf sid)
/-- Whether a strand has a task in flight. -/
def State.hasEntry (s : State) (p : Nat) (sid : Word) : Bool := (s.flk (s.entryTile p sid)).inflight.any (·.1 == sid)
/-- Removes a strand's entry, if it has one: one done. -/
def State.dropEntry (s : State) (p : Nat) (sid : Word) : State :=
  let o := s.entryTile p sid
  if s.hasEntry p sid then
    (s.updFlk o (fun u => { u with inflight := ldel (·.1 == sid) u.inflight, finished := u.finished + 1 })).bump o 0xF40 1
  else s
/-- Registers a record's priority for a strand, in the place of its entry: one pop. -/
def State.registerEntry (s : State) (p : Nat) (sid : Word) (prio : Nat) : State :=
  let s := s.dropEntry p sid
  s.updFlk (s.entryTile p sid) (fun u => { u with inflight := u.inflight ++ [(sid, prio)], popped := u.popped + 1 })
/-- A record on its way back to the unit that gave it. -/
def Cmd.returns (c : Cmd) : Bool := c.isPush && c.pos != 0 && (c.st == .held || c.st == .sent)
/-- The entry of a strand that is gone, or is about to be, goes once none of its commands waits in a core queue and every record
that it gives back is inserted again (R380, R381). -/
def State.flockReap (s : State) (p : Nat) (sid : Word) : State :=
  if (s.strandOf sid).isNone && !s.cmds.any (fun c => c.sid == sid && (c.st == .queued || c.returns)) then s.dropEntry p sid
  else s
/-- The same for every entry of a pasture. -/
def State.reapAll (s : State) (p : Nat) : State :=
  ((s.pasTiles p).flatMap (fun t => (s.flk t).inflight.map (·.1))).foldl (fun s sid => s.flockReap p sid) s
/-! ### Issue (R379 to R383) -/

/-- FPUSH and FPUSH.REL. -/
def pushOp (op : Instr) (a : RegNo) (rel : Bool) (s : State) : State :=
  let p := s.g a
  s.withBlock p 32 32 (fun s bs =>
    let pr := recPrio bs + if rel then s.x.src.vt.toNat % 2 ^ 32 else 0
    let dptr := wd (bfield bs 8 8)
    if !recZero bs 6 2 || nfield dptr.toNat 56 8 != 0 || 0xFFFFFFFE < pr then s.trapC cProt p
    else s.once 3 (fun s k => s.withPa dptr needNone (fun s pa =>
        match s.homeOf pa with
        | .tile h => k s h
        | _ => s.trapC cProt dptr))
      (fun s h => s.issueCmd .flock op 0 (fun c => { c with blk := recSet bs 0 4 pr, num := h }) State.adv))
/-- FPUSH (R379). -/
def execFpush (a : RegNo) (s : State) : Out := .next (pushOp (.fpush a) a false s)
/-- FPUSH.REL (R379). -/
def execFpushRel (a : RegNo) (s : State) : Out := .next (pushOp (.fpushRel a) a true s)
/-- FPOP (R380). -/
def execFpop (d a : RegNo) (s : State) : Out :=
  let b := s.g a
  if s.x.me.hslot then .next s.illegalC
  else .next (s.once 0 (fun s k => s.withAligned b 32 needW (fun s pa =>
      if s.homeOf pa != .tile s.here then s.trapC cProt b else k s (localOf pa)))
    (fun s key => s.issueCmd .flock (.fpop d a) 0 (fun c => { c with lo := key }) (fun s => s.park (.fpop (s.ids - 1) d))))
/-- FDONE (R381). -/
def execFdone (s : State) : Out :=
  if s.x.me.hslot then .next s.illegalC else .next (s.issueCmd .flock .fdone 0 id State.adv)
/-- FFLOOR (R382). -/
def execFfloor (d : RegNo) (s : State) : Out := .next (s.wg d (wd (s.floorAt s.here))).adv
/-- The value that FSTAT reads (R383): the counts of the last tree result are a free value before there is one (log 15). -/
def State.flockStat (s : State) (n : Nat) : Option Word :=
  let t := s.here
  let u := s.flk t
  let sum (f : TreeRes → Nat) : Option Word := some (match u.tree with | some r => wd (f r) | none => Config.unstated s.free)
  if n < 10 then some (wd (s.ctrRead t (0xF00 + 8 * n)))
  else match n with
    | 16 => some (wd (sramCount u.recs))
    | 17 => some (wd (u.recs.length - sramCount u.recs))
    | 18 => some (wd (s.floorAt t))
    | 19 => sum (·.pushed)
    | 20 => sum (·.popped)
    | 21 => sum (·.finished)
    | 22 => some (boolWord ((s.pasOfTile t).any (fun p => (s.pas p).doneLatch)))
    | _ => none
/-- FSTAT (R383). -/
def execFstat (d : RegNo) (n : BitVec 7) (s : State) : Out :=
  match s.flockStat n.toNat with
  | none => .next s.illegalC
  | some v => .next ({ s with free := s.free + 1 }.wg d v).adv

/-! ### The unit: acceptance and pushes (R369, R375, R379) -/

/-- The unit accepts a command; a push is counted then (R375). -/
def State.acceptFlock (s : State) (c : Cmd) : Option State :=
  let (o, s) := s.fresh
  let s := s.updCmd c.id (fun c => { c with st := .held, ord := o })
  some (if c.isPush then s.updFlk c.tile (fun u => { u with pushed := u.pushed + 1 }) else s)
/-- An earlier push of the strand to the same tile is not inserted yet: pushes of one strand to one tile keep their order
(R379). -/
def State.pushBehind (s : State) (c : Cmd) : Bool :=
  c.isPush && s.cmds.any (fun d => d.isPush && d.sid == c.sid && d.num == c.num && d.id < c.id
    && (d.st == .queued || d.st == .held || d.st == .sent))
/-- A pop of the tile that has parked before is to be served first (R373). -/
def State.popBehind (s : State) (c : Cmd) : Bool :=
  c.isPop && s.cmds.any (fun d => d.eng == .flock && d.isPop && d.tile == c.tile && d.st == .held && d.pos != 0
    && (c.pos = 0 || d.pos < c.pos))
/-- A command that waits in an order of its own. -/
def State.flockBehind (s : State) (c : Cmd) : Bool := s.pushBehind c || s.popBehind c
/-- A command of the unit may go on: its gate is clear (R30), it is first in its own order, and it has its turn to start (R28). -/
def State.flockTurn (s : State) (c : Cmd) : Bool :=
  c.eng == .flock && c.st == .held && s.gateOpen c && !(s.tl c.tile).failed && !s.flockBehind c && s.mayStart c s.flockBehind
/-- A push is performed: inserted here, sent to its tile, or held back while this unit is full. A record that comes back takes its
first place (R380). -/
def State.pushRun (s : State) (c : Cmd) : State :=
  let s := s.start c
  let h := if c.num < 16384 then (s.pas c.pasture).forward c.num else c.num
  let r : FRec := { prio := recPrio c.blk, bytes := c.blk, order := c.pos - 1 }
  if h = c.tile then
    if s.flockFull h then
      (if c.gate then s else (s.flockRefuse c.pasture h).updCmd c.id (fun c => { c with gate := true }))
    else if c.pos != 0 then (s.insertRec h r).finishCmd c none
    else (s.insertNew h r.prio r.bytes).finishCmd c none
  else if s.postRoom (.cmd c.id) c.tile then
    (((s.updCmd c.id (fun c => { c with st := .sent })).bump c.tile 0xF08 1).sendPost (.cmd c.id) c.tile h c.pasture 1
      (.push c.id r))
  else s
/-- A record that was taken for a pop goes back to the unit that gave it, in its first place; counted: as a push of that unit, if it
is one of this device. It comes from the unit of tile src, as a push of that unit does: a full unit holds it back or refuses it (R369),
and from another tile it is a posted operation (R380; log 40). -/
def State.giveBack (s : State) (c : Cmd) (src g : Nat) (r : FRec) (counted : Bool) : State :=
  let (n, s) := s.fresh
  let s := if counted && g < 16384 then s.updFlk g (fun u => { u with pushed := u.pushed + 1 }) else s
  let src := if g < 16384 && (s.tl src).failed then g else src
  let d : Cmd := { id := n, sid := c.sid, pasture := c.pasture, tile := src, core := 0, eng := .flock, exTile := src
                   op := .fpush 0, blk := r.bytes, num := g, pos := r.order + 1, started := true, st := .held }
  ({ s with cmds := s.cmds ++ [d] }).pushRun d
/-- The packets of a pop: requests, registrations and answers. -/
def Packet.ofPop (k : Packet) (n : Nat) : Bool :=
  match k.body with
  | .steal m _ | .stealAnswer m _ _ | .register m _ _ => m == n
  | _ => false
/-- Every packet that has not reached its destination. -/
def State.flying (s : State) : List Packet := s.mesh ++ s.dropped ++ s.resend
/-- Those that a test accepts are taken in wherever they stand (R435). -/
def State.purge (s : State) (f : Packet → Bool) : State :=
  (s.flying.filter f).foldl State.accept
    { s with dropped := s.dropped.filter (fun k => !f k), resend := s.resend.filter (fun k => !f k) }
/-- A pop of a killed strand is discarded, and a record obtained for it goes back; where its entry was registered, that counts as
a push (R380). -/
def State.dropPop (s : State) (c : Cmd) : State :=
  let ks := s.flying.filter (·.ofPop c.id)
  let s := { s.purge (·.ofPop c.id) with cmds := ldel (·.id == c.id) s.cmds }
  let s := s.tiles.foldl (fun s e =>
    match (s.flk e.1).given.find? (·.1 == c.id) with
    | some (_, r) =>
      let src := if e.1 < 16384 then e.1 else c.tile
      (s.updFlk e.1 (fun u => { u with given := ldel (·.1 == c.id) u.given })).giveBack c src e.1 r false
    | none => s) s
  let s := ks.foldl (fun s k =>
    match k.body with
    | .stealAnswer _ g (some r) => s.giveBack c c.tile g r true
    | _ => s) s
  if c.st == .ran then s.giveBack c c.tile c.num { prio := recPrio c.blk, bytes := c.blk, order := c.hi } true else s
/-- What a kill does to a strand's part in the Flock: its pops, then its entry. -/
def State.flockKill (s : State) (p : Nat) (sid : Word) : State :=
  ((s.cmds.filter (fun c => c.sid == sid && c.isPop && c.st != .queued)).foldl State.dropPop
    { s with cmds := s.cmds.filter (fun c => !(c.sid == sid && c.isPop && c.st == .queued)) }).flockReap p sid
/-- FPUSH_EXEC (R379): push inp.k is performed. -/
def execFpushExec (s : State) : Out :=
  match s.cmd s.inp.k with
  | some c => if c.isPush && s.flockTurn c then .next ((s.pushRun c).flockReap c.pasture c.sid) else .next s
  | none => .next s
/-- FLOCK_RECORD_ARRIVAL (R215, R369): pushed record inp.k reaches its unit, which inserts it or, being full, refuses it; one that comes
back to another device has arrived there. -/
def execFlockRecordArrival (s : State) : Out :=
  match s.packet s.inp.k with
  | some k =>
    match k.body with
    | .post (.push _ r) =>
      let t := s.target k
      if 16384 ≤ t then .next (if s.reaches t then s.arrivePost k (fun s => .done s) else s)
      else .next (s.arrivePost { k with dst := t } (fun s =>
        if s.flockFull t then .fullAt (s.flockRefuse k.pasture t)
        else
          let s := s.bump t (0x100 + 56) 1
          .done (if r.order = 0 then s.insertNew t r.prio r.bytes else s.insertRec t r)))
    | _ => .next s
  | none => .next s

/-! ### Pops and stealing (R371, R373, R380) -/

/-- The first record in local order below a limit. -/
def State.firstBelow (s : State) (t limit : Nat) : Option FRec :=
  least (recBefore (s.tilePcb t).wshift) ((s.flk t).recs.filter (·.prio < limit))
/-- A record leaves a unit for a pop; the unit counts it until its entry is registered. -/
def State.takeRec (s : State) (t : Nat) (c : Cmd) (r : FRec) : State :=
  (s.updFlk t (fun u => { u with recs := ldel (·.order == r.order) u.recs, given := u.given ++ [(c.id, r)] })).settle t none
/-- A pop completes with 0 or 1 in its register (R380, R376). -/
def State.popEnd (s : State) (c : Cmd) (v : Word) (f : Strand → Strand) : State :=
  let d : RegNo := match c.op with | .fpop d _ => d | _ => 0
  (s.onStrand c.sid (fun st => f (st.setG d v).advance)).finishCmd c none
/-- The record that a pop has obtained is delivered, once its strand stands in a slot (R380): into the buffer, word by word behind any
bank command (R81, R287), and then with VT and the register. -/
def State.popDeliver (s : State) (c : Cmd) : State :=
  if !(s.strandOf c.sid).any Strand.inSlot then s
  else
    let r := (((s.run c).begin 4 0).parts 4 (fun r i => r.once true (fun s key old =>
      s.engWrite c 0 (s.devnum.toNat * 2 ^ 45 + c.lo + 8 * i) 8 (bfield c.blk (8 * i) 8) key old))).2
    if r.pend then r.save c
    else ((r.save c).bump c.tile 0xF10 1).popEnd c 1 (fun st => { st with vt := wd (recPrio c.blk) })
/-- A pop has obtained a record from a unit. -/
def State.deliverRec (s : State) (c : Cmd) (giver : Nat) (r : FRec) : State :=
  let s := if giver = c.tile then s else s.bump c.tile 0xF18 1
  let c := { c with st := .ran, blk := r.bytes, num := giver, hi := r.order }
  (s.updCmd c.id (fun _ => c)).popDeliver c
/-- The entry of a given record is registered at the origin, and the record goes on to its pop: at once on the giving tile,
otherwise as the answer to its request (R372). -/
def State.registered (s : State) (c : Cmd) (giver : Nat) : State :=
  match (s.flk giver).given.find? (·.1 == c.id) with
  | none => s
  | some (_, r) =>
    let s := s.registerEntry c.pasture c.sid r.prio
    let s := s.updFlk giver (fun u => { u with given := ldel (·.1 == c.id) u.given })
    if giver = c.tile then s.deliverRec c giver r
    else s.reply (.cmd c.id) giver c.tile c.pasture 1 (.stealAnswer c.id giver (some r))
/-- A record is given to a pop and its entry registered, here or at the strand's origin. -/
def State.giveRec (s : State) (giver : Nat) (c : Cmd) (r : FRec) : State :=
  let s := (s.takeRec giver c r).updCmd c.id (fun c => { c with st := .asking })
  let o := s.entryTile c.pasture c.sid
  if o = giver then s.registered c giver
  else s.send (.cmd c.id) giver o c.pasture 1 (.register c.id giver r.prio)
/-- A tile that a pop may ask: its contribution at the last sample lies below the bound. -/
def State.mayAsk (s : State) (c : Cmd) (bound t : Nat) : Bool :=
  t != c.tile && !c.asked.contains t && !(s.tl t).failed && (s.flk t).last < bound
/-- The tile of a paddock that is asked next (R373, stage 1). -/
def State.askIn (s : State) (c : Cmd) (bound paddock : Nat) : Option Nat :=
  least (fun a b => (s.flk a).last < (s.flk b).last) ((paddockTiles paddock).filter (s.mayAsk c bound))
/-- A paddock's minimum at the last sample. -/
def State.paddockMin (s : State) (p : Nat) : Nat := leastPrio ((paddockTiles p).map (fun t => (s.flk t).last))
/-- Whom a pop asks next (R373): a tile of its paddock; one of another paddock, in the order of their minima; or the device
with the lowest floor, as 32,768 + its number. -/
def State.nextAsk (s : State) (c : Cmd) (bound : Nat) : Option Nat :=
  let q := s.pas c.pasture
  let own := paddockOf c.tile
  let others := q.pcb.paddocks.filter (fun p => p != own && (s.askIn c bound p).isSome)
  match s.askIn c bound own with
  | some t => some t
  | none =>
    match least (fun a b => s.paddockMin a < s.paddockMin b) others with
    | some p => s.askIn c bound p
    | none =>
      (least (fun (a b : Nat × Nat) => a.2 < b.2)
        (q.peers.filter (fun e => e.2 < bound && !c.asked.contains (32768 + e.1)))).map (fun e => 32768 + e.1)
/-- A pop parks, in its first place (R373). -/
def State.parkPop (s : State) (c : Cmd) : State :=
  let (n, s) := s.fresh
  (s.bump c.tile 0xF48 1).updCmd c.id (fun c => { c with st := .parked, asked := [], pos := if c.pos = 0 then n else c.pos })
/-- Whether the DONE latch of a pasture is set. -/
def State.doneAt (s : State) (p : Nat) : Bool := (s.pas p).doneLatch
/-- A pop with no eligible record on its tile steals, or completes with 0 while DONE is set, or parks (R373, R376). -/
def State.popSeek (s : State) (c : Cmd) : State :=
  if s.doneAt c.pasture then s.popEnd c 0 id
  else
    let bound := s.bound c.tile
    match s.nextAsk c bound with
    | some g =>
      (s.updCmd c.id (fun c => { c with st := .asking, asked := c.asked ++ [g] })).send (.cmd c.id) c.tile g c.pasture 1
        (.steal c.id bound) (stays := true)
    | none => s.parkPop c
/-- A pop looks for a record: on its tile first (R371); without a tree result it waits for one (R370). -/
def State.popTry (s : State) (c : Cmd) : State :=
  if (s.flk c.tile).tree.isNone then s.parkPop c
  else match s.firstBelow c.tile (s.bound c.tile) with
    | some r => s.giveRec c.tile c r
    | none => s.popSeek c
/-- FPOP_EXEC (R371, R380): pop inp.k takes a record, steals, parks or completes with 0; or the record that it has obtained is
delivered to its strand. -/
def execFpopExec (s : State) : Out :=
  match s.cmd s.inp.k with
  | some c =>
    if c.obtained then .next (s.popDeliver c)
    else if c.isPop && s.flockTurn c then .next ((s.start c).popTry c)
    else .next s
  | none => .next s
/-- A tile's answer to a steal request: its first record below both bounds while it holds STEALMIN of them (R373). -/
def State.answerSteal (s : State) (t bound : Nat) : Option FRec :=
  let limit := min bound (s.bound t)
  if (s.flk t).tree.isNone || (s.tl t).failed
      || ((s.flk t).recs.filter (·.prio < limit)).length < max 1 (s.tilePcb t).stealmin then none
  else s.firstBelow t limit
/-- The pasture of a tile has joined a Flock domain (R387). -/
def State.inDomain (s : State) (t : Nat) : Bool := (s.pasOfTile t).any (fun p => (s.pas p).domain.isSome)
/-- STEAL_REQUEST (R373): request inp.k reaches the tile it asks, which gives a record or answers empty; a retired tile answers of the
records that it still holds (log 74). Another device answers with inp.m: with 1, the record is inp.bytes, eligible below the bound
(R371), and the request to register it comes back. A request of another device's pop
(inp.m = 2, with its bound inp.val) takes a record of tile inp.l of a domain, which that device names by its order from then
on. -/
def execStealRequest (s : State) : Out :=
  if s.inp.m = 2 then
    let t := s.inp.l
    match s.answerSteal t s.inp.val.toNat with
    | some r =>
      if s.inDomain t then
        .next (((s.updFlk t (fun u => { u with
          recs := ldel (·.order == r.order) u.recs, given := u.given ++ [(0, r)] })).settle t none).bump t 0xF20 1)
      else .next s
    | none => .next s
  else match s.packet s.inp.k with
  | some k =>
    match k.body with
    | .steal n bound =>
      let t := k.dst
      if !s.reaches t then .next s else
      let s := s.accept k
      let empty : Out := .next (s.reply k.party t k.src k.pasture k.cls (.stealAnswer n t none))
      match s.cmd n with
      | none => .next s
      | some c =>
        if 16384 ≤ t then
          if s.inp.m = 1 && s.inp.bytes.length = 32 && recPrio s.inp.bytes < bound then
            let r : FRec := { prio := recPrio s.inp.bytes, bytes := s.inp.bytes }
            .next ((s.updFlk t (fun u => { u with given := u.given ++ [(n, r)] })).reply k.party t (s.entryTile c.pasture c.sid)
              k.pasture k.cls (.register n t r.prio))
          else empty
        else match s.answerSteal t bound with
          | some r => .next ((s.bump t 0xF20 1).giveRec t c r)
          | none => empty
    | _ => .next s
  | none => .next s
/-- A record that tile t gave to another device, named by its order. -/
def State.foreignGiven (s : State) (t order : Nat) : Option FRec :=
  ((s.flk t).given.find? (fun e => e.1 = 0 && e.2.order == order)).map (·.2)
/-- It is no longer counted here. -/
def State.foreignGone (s : State) (t order : Nat) : State :=
  s.updFlk t (fun u => { u with given := ldel (fun e => e.1 = 0 && e.2.order == order) u.given })
/-- A pop of another device, as a record that it gives back needs it. -/
def foreignPop (s : State) (t : Nat) : Cmd :=
  { id := 0, sid := 0, pasture := (s.pasOfTile t).getD 0, tile := t, core := 0, eng := .flock, exTile := t, op := .fpop 0 0 }
/-- INFLIGHT_REGISTER (R372): registration inp.k reaches the strand's origin, which counts the pop, and the record goes on to
its pop. Of a record that tile inp.l gave to another device, named by its order inp.val: with inp.m = 2 its origin there has
acknowledged the registration, and it is gone from here; with inp.m = 3 it comes back before that, and with inp.m = 4, its bytes
inp.bytes, after it, which counts as a push (R380). -/
def execInflightRegister (s : State) : Out :=
  let t := s.inp.l
  let order := s.inp.val.toNat
  if s.inp.m = 2 then .next (s.foreignGone t order)
  else if s.inp.m = 3 then
    match s.foreignGiven t order with
    | some r => .next ((s.foreignGone t order).giveBack (foreignPop s t) t t r false)
    | none => .next s
  else if s.inp.m = 4 then
    if s.inDomain t && t < Config.tiles && order != 0 && s.inp.bytes.length = 32 then
      .next (s.giveBack (foreignPop s t) t t { prio := recPrio s.inp.bytes, bytes := s.inp.bytes, order := order } true)
    else .next s
  else match s.packet s.inp.k with
  | some k =>
    match k.body with
    | .register n giver _ =>
      match s.cmd n with
      | some c => .next ((s.accept k).registered c giver)
      | none => .next (s.accept k)
    | _ => .next s
  | none => .next s
/-- STEAL_ANSWER (R373): answer inp.k reaches the thief: its record is delivered, or the pop asks on. -/
def execStealAnswer (s : State) : Out :=
  match s.packet s.inp.k with
  | some k =>
    match k.body with
    | .stealAnswer n giver r =>
      match s.cmd n with
      | none => .next (s.accept k)
      | some c =>
        let s := s.accept k
        match r with
        | some r => .next (s.deliverRec c giver r)
        | none =>
          match s.firstBelow c.tile (s.bound c.tile) with
          | some r => .next (s.giveRec c.tile c r)
          | none => .next (s.popSeek c)
    | _ => .next s
  | none => .next s
/-- FDONE_EXEC (R381): FDONE inp.k removes its strand's entry at the origin. -/
def execFdoneExec (s : State) : Out :=
  match s.cmd s.inp.k with
  | some c =>
    if c.op == .fdone && s.flockTurn c then .next ((s.dropEntry c.pasture c.sid).finishCmd c none) else .next s
  | none => .next s

end Sys2Proof.Machine
end

