-- ==== Sys2Proof/Machine/Tree.lean ====
section
/-! DEFINITION. The pasture-wide trees: gang stop (R36, R434, R435), the min-reduction tree (R34, R35), FLOCK_DONE and the
DONE latch (R376), deadlock mode A (R243, R244), stall mode B (R246), and the samples of a Flock domain (R387). -/

namespace Sys2Proof.Machine

open Sys2Proof

/-! ### Gang stop -/

/-- The state word of a slot in a stop record. -/
def Strand.stopWord (st : Strand) : Nat :=
  (if st.stop.isSome then 3 else if st.wait.isSome then 2 else 1) * 2 ^ 62 + st.pc.toNat
/-- A tile writes its stop record. -/
def State.stopRecord (s : State) (p t : Nat) : State :=
  let slots := s.strands.filterMap (fun st =>
    match st.place with
    | .slot t' c n => if t' = t then some (16 * c + n, st.sid, st.stopWord) else none
    | _ => none)
  let time := s.pasTime p t
  s.updTl t (fun x => { x with tstop := time, stopSlots := slots, stopSent := x.sent, stopRcvd := x.rcvd })
/-- A pasture is stopped through the halt tree: every tile writes its stop record, followers leave their stopped leaders (R145), and
detection is frozen from now on (R425). -/
def State.gangStop (s : State) (p : Nat) : State :=
  let s := (s.pasTiles p).foldl (fun s t => s.stopRecord p t) (s.updPas p (fun q => { q with st := .stopped, stopAt := s.now }))
  { s with strands := s.strands.map (fun st => if st.pasture == p && st.follow.isSome then st.leave else st) }

/-! ### Deadlock mode A -/

/-- Whether a waiting strand counts as parked (R243). Its table names GWAIT and GBAR; a GARRIVE that waits for the phase to arrive again
(R235) counts with them (DESIGN CHOICE, log 82). -/
def State.parkedAlone (s : State) (st : Strand) : Bool :=
  st.stop.isNone && (match st.wait with
    | some (.fullEmpty _) | some (.resv _) | some (.counter _ _ _) | some (.mwait _ _) | some (.latch _) | some (.group _ _ _)
    | some .follow => true
    | some (.fpop c _) => (s.cmd c).any (·.st == .parked) && !s.hasEntry st.pasture st.sid
    | _ => false)
/-- The same, with a follower in its leader's stream that waits for the next bundle of a parked leader. -/
def State.countsParked (s : State) (st : Strand) : Bool :=
  s.parkedAlone st
    || (match st.follow with
        | some f => st.stop.isNone && f.joined && f.stream.isEmpty && st.pend.isNone && st.wait.isNone
            && (s.strandOf f.leader).any s.parkedAlone
        | none => false)
/-- The strands of a pasture. -/
def State.herd (s : State) (p : Nat) : List Strand := s.strands.filter (·.pasture == p)
/-- A strand does not keep mode A from firing: it counts as parked, in slots 0 to 13 or in the fold (R243, R244). -/
def State.idle (s : State) (st : Strand) : Bool :=
  match st.place with
  | .slot _ _ n => n < 14 && s.countsParked st
  | .fold _ => s.parkedAlone st
  | _ => false
/-- The conditions of R244 at a sampling instant. -/
def State.deadlocked (s : State) (p : Nat) : Bool :=
  let q := s.pas p
  let mine (l : List Packet) : Bool := l.any (·.pasture == p)
  (s.herd p).all s.idle && !(s.herd p).isEmpty
    && (s.pasTiles p).all (fun t => (s.tl t).arrivals.isEmpty && (s.tl t).readyQ.isEmpty)
    && q.pool == 0 && q.classQ.isEmpty && q.overflow.isEmpty
    && s.cmds.all (fun c => c.pasture != p || (c.isPop && c.st == .parked))
    && !mine s.unacked && !mine s.mesh && !mine s.dropped && !mine s.resend && !mine s.waiting
    && (tget s.areas p {}).hostwake == 0
/-- A fatal event: the pasture is gang-stopped, and the record and the supervisor event are posted. Their VAL is not stated: a
free value (log 15). -/
def State.fatal (s : State) (p code : Nat) : State :=
  let (v, s) := s.takeFree
  (s.gangStop p).pastureEvent p (corner (s.pas p).pcb.rootp) code noCls noWhere 0 v

/-! ### Samples and results -/

/-- What the tiles of a pasture contribute at one instant. -/
def State.sampleOf (s : State) (p : Nat) : TreeRes :=
  let us := (s.pasTiles p).map s.flk
  { floor := leastPrio ((s.pasTiles p).map s.contribution)
    pushed := (us.foldl (fun n u => n + u.pushed) 0) % 2 ^ 64
    popped := (us.foldl (fun n u => n + u.popped) 0) % 2 ^ 64
    finished := (us.foldl (fun n u => n + u.finished) 0) % 2 ^ 64
    allParked := s.deadlocked p }
/-- The form in which tiles keep a result. -/
def TreeRes.plain (r : TreeRes) : TreeRes := { r with judged := false }
/-- Every tile has received the last result, and it has been judged (R35). -/
def State.sampleDone (s : State) (p : Nat) : Bool :=
  match (s.pas p).sample with
  | none => true
  | some r => r.judged && (s.pasTiles p).all (fun t => (s.flk t).tree == some r.plain)
/-- TREE_SAMPLE (R35, R370): every tile of pasture inp.k is sampled at one instant, from the pasture's creation on, stopped or not;
entries of strands that are gone have been removed by then (R372, R381). -/
def execTreeSample (s : State) : Out :=
  let p := s.inp.k
  if !s.hasPas p || !s.sampleDone p then .next s
  else
    let s := s.reapAll p
    let r := s.sampleOf p
    let s' := (s.pasTiles p).foldl (fun a t => a.updFlk t (fun u => { u with last := s.contribution t })) s
    .next (s'.updPas p (fun q => { q with sample := some r }))
/-- FLOCK_DONE is raised: parked pops complete with 0, the latch is set, and one event is posted (R376). -/
def State.flockDone (s : State) (p pushed : Nat) : State :=
  let pops := s.cmds.filter (fun c => c.pasture == p && c.isPop && c.st == .parked)
  let s := (pops.foldl (fun s c => s.popEnd c 0 id) s).updPas p (fun q => { q with doneLatch := true, lastDone := pushed })
  s.post p (corner (s.pas p).pcb.rootp) 0x30 noCls noWhere 0 (wd pushed)
/-- Whether sums raise FLOCK_DONE (R376). -/
def Pasture.raises (q : Pasture) (r : TreeRes) : Bool :=
  r.pushed == r.popped && r.popped == r.finished && r.pushed != q.lastDone
/-- FLOCK_DONE judged on sums; a pushed sum that differs from that of the last one clears the latch. -/
def State.judgeDone (s : State) (p : Nat) (r : TreeRes) : State :=
  if (s.pas p).raises r then s.flockDone p r.pushed
  else if r.pushed != (s.pas p).lastDone then s.updPas p (fun q => { q with doneLatch := false })
  else s
/-- A result is judged once: FLOCK_DONE, unless the sums of a domain are judged (R387), and then mode A, which is frozen while the
pasture is not RUNNING (R376, R425). -/
def State.judge (s : State) (p : Nat) (r : TreeRes) : State :=
  let q := s.pas p
  let s := s.updPas p (fun q => { q with sample := some { r with judged := true } })
  let raised := q.domain.isNone && q.raises r
  let s := if q.domain.isNone then s.judgeDone p r else s
  if !raised && !q.pcb.modeB && r.allParked && q.st == .running then s.fatal p cDeadlock else s
/-- TREE_RESULT (R35, R373): tile inp.k receives the last result; its parked pops try again. -/
def execTreeResult (s : State) : Out :=
  let t := s.inp.k
  match s.pasOfTile t with
  | none => .next s
  | some p =>
    match (s.pas p).sample with
    | none => .next s
    | some r =>
      let s := if r.judged then s else s.judge p r
      .next ((s.updFlk t (fun u => { u with tree := some r.plain })).wakePops t)
/-- STALL (R246): a window of pasture inp.k ends; with no progress while a strand lives or the pool holds a slice, the pasture is
gang-stopped. -/
def execStall (s : State) : Out :=
  let p := s.inp.k
  let q := s.pas p
  if !s.hasPas p || q.st != .running || !q.pcb.modeB || s.now < q.winStart + q.pcb.mbwin then .next s
  else
    let s' := s.updPas p (fun q => { q with winStart := s.now, fires := 0, bundles := 0, flits := 0 })
    if q.fires = 0 && q.bundles = 0 && q.flits = 0 && (!(s.herd p).isEmpty || q.pool != 0) then .next (s'.fatal p cStall)
    else .next s'
/-- The other devices' samples, five words each: device, floor, pushed, popped, done. -/
def peerSamples : List Word → List (Nat × TreeRes)
  | d :: f :: a :: b :: c :: r =>
    (d.toNat, { floor := f.toNat, pushed := a.toNat, popped := b.toNat, finished := c.toNat }) :: peerSamples r
  | _ => []
/-- Samples of a domain's other devices: each once, none the device's own, at most 2,047 (R387). -/
def State.peersOk (s : State) (l : List (Nat × TreeRes)) : Bool :=
  l.length < 2048 && (l.map (·.1)).Nodup && l.all (fun e => e.1 < 2048 && e.1 != s.devnum.toNat)
/-- FLOCK_DOMAIN_SAMPLE (R387): the devices of the domain that pasture inp.k has joined are sampled; inp.vals are the other
devices' samples, and an empty list leaves the domain. No domain forms without SPAN (R442). -/
def execFlockDomainSample (s : State) : Out :=
  let p := s.inp.k
  let others := peerSamples s.inp.vals
  if !s.hasPas p || (s.committed && !s.feat2.getLsbD 7) || !s.peersOk others then .next s
  else if others.isEmpty then .next (s.updPas p (fun q => { q with domain := none, peers := [] }))
  else
    let own := s.sampleOf p
    let sum (f : TreeRes → Nat) : Nat := (others.foldl (fun n e => n + f e.2) (f own)) % 2 ^ 64
    let r : TreeRes := { floor := leastPrio (own.floor :: others.map (·.2.floor)), pushed := sum (·.pushed)
                         popped := sum (·.popped), finished := sum (·.finished) }
    let s := s.updPas p (fun q => { q with domain := some r, peers := others.map (fun e => (e.1, e.2.floor)) })
    .next (s.judgeDone p r)

end Sys2Proof.Machine
end

