-- ==== Sys2Proof/Machine/Vector.lean ====
section
/-! DEFINITION. Vector instructions at issue (R248 to R263): modes, the short unit, queueing on the long unit's sequencer,
reporting, streams, loads and stores. -/

namespace Sys2Proof.Machine

open Sys2Proof

/-! ### The long unit of a core -/

/-- A core's share of the long unit. -/
def State.unit (s : State) (t core : Nat) : LongUnit := tget (s.tl t).long core {}
/-- Changes it. -/
def State.updUnit (s : State) (t core : Nat) (f : LongUnit → LongUnit) : State :=
  s.updTl t (fun x => { x with long := tset x.long core (f (tget x.long core {})) })
/-- The issuing strand's core's. -/
def State.myUnit (s : State) : LongUnit := s.unit s.here s.x.me.core
/-- Changes it. -/
def State.updMyUnit (s : State) (f : LongUnit → LongUnit) : State := s.updUnit s.here s.x.me.core f
/-- ILLEGAL in the A slot: the value is word 1 (R60). -/
def State.illegalA (s : State) : State := s.trapAt true cIllegal (zx s.x.w1)
/-- The sequencer is empty and every long-vector access is performed (R258). -/
def State.seqIdle (s : State) : Bool := s.myUnit.q.isEmpty && !s.longBusy s.x.me
/-- UTVAL of a deferred exception (R259). -/
def deferredVal (d : Nat × Nat × Word) : Word :=
  wd (d.1 % 16 * 2 ^ 60 + d.2.1 % 16 * 2 ^ 56 + nfield d.2.2.toNat 3 53 * 8)
/-- What a reporting instruction does after its wait (R259): the pending flags go to SW, and a recorded exception is raised. -/
def State.reportLong (s : State) (k : State → State) : State :=
  let u := s.myUnit
  let s := (s.updMyUnit (fun u => { u with pflags := 0, deferred := none })).upd (fun st => st.orFlags u.pflags)
  let s := { s with x := { s.x with aflags := s.x.aflags ||| u.pflags } }
  match u.deferred with
  | some d => s.trapC cVectorDeferred (deferredVal d)
  | none => k s
/-- The wait and the report of VSYNC for a strand in long mode; nothing in short mode (R250, R258). -/
def State.withSync (s : State) (k : State → State) : State :=
  if !s.x.me.lmode then k s else if !s.seqIdle then s.park .seq else s.reportLong k

/-! ### Operands of a vector instruction -/

/-- A general-register operand of a vector instruction: VBCAST's and VEXT's (R256, R271). -/
def State.vecScalar (s : State) (i : Instr) : Word :=
  match i with
  | .vbcast _ _ a _ _ => s.g a
  | .vext _ _ _ b _ _ => s.g b
  | _ => 0
/-- The oldest operand of a stream: its physical address and bytes (R261). -/
def State.streamHead (s : State) (t core n : Nat) : Nat × List Byte :=
  let m := s.stream t core n
  (m.slotPa m.rd, s.rdBytes (localOf (m.slotPa m.rd)) m.size)
/-- An operand is popped: its permit returns (R299). -/
def State.popStream (s : State) (t core n : Nat) : State :=
  s.updStream t core n (fun m => { m with ready := m.ready - 1, rd := (m.rd + 1) % m.slots })

/-! ### The short unit (R250, R252, R261, R265) -/

/-- A short vector instruction with its operand vb. -/
def State.shortVec (s : State) (i : Instr) (b : Nat) : State :=
  let f := vecForm i
  let s := s.takes f.turns
  let r := vecEval i { w := 256, a := (s.vr f.a).toNat, b := b, d := (s.vr f.d).toNat, x := s.vecScalar i, rm := s.x.src.rm
                       ftz := s.ftz, vsat := wbit s.x.src.fmt 10 }
  s.withFlags r.fl (fun s =>
    let s := match i with
      | .vext _ g _ _ _ _ => s.wg g (wd r.val)
      | _ => s.wv f.d (BitVec.ofNat 256 r.val)
    if f.sb then s.popStream s.here s.x.me.core (f.b.toNat % 4) else s)
/-- A stream operand: bound to the strand with the instruction's width, else ILLEGAL; k receives the stream's number. -/
def State.withStream (s : State) (f : VForm) (k : State → Nat → State) : State :=
  let n := f.b.toNat % 4
  if !s.myStream n || (s.stream s.here s.x.me.core n).long != f.long then s.illegalA else k s n
/-- A short-class instruction. -/
def State.shortOp (s : State) (i : Instr) : State :=
  let f := vecForm i
  if s.x.me.lmode then s.illegalA
  else if !f.sb then s.shortVec i (s.vr f.b).toNat
  else s.withStream f (fun s n =>
    let m := s.stream s.here s.x.me.core n
    if m.ready = 0 then s.stall .stream
    else
      let (pa, bs) := s.streamHead s.here s.x.me.core n
      if s.bankHolds (localOf pa) 32 then
        (if s.bankHeld (localOf pa) 32 then
          (if s.x.src.wait == some .bank then s else s.bumpHeld (localOf pa)).stall .bank else s.stall .queue)
      else if s.badAt (localOf pa) 32 then
        (s.bump s.here (0x100 + 96) 1).trapAt true cMemerr (m.base + wd (m.rd * m.size))
      else (s.correct (localOf pa) 32).shortVec i (leNat bs))

/-! ### Queueing on the sequencer (R250, R255, R256) -/

/-- Whether an instruction is a long-class A-slot instruction that takes an entry. -/
def longArith (i : Instr) : Bool := match i with | .vext .. => false | _ => (vecForm i).long
/-- The A slot of the bundle in the latch holds an instruction that takes an entry. -/
def State.aQueues (s : State) : Option Instr :=
  if s.x.w0.toNat < 2147483648 then
    match decodeA s.x.w1.toNat with
    | .ok a => if longArith a then some a else none
    | .error _ => none
  else none
/-- The A slot of the bundle in the latch holds a long-class instruction, VEXT among them (R257). -/
def State.aLong (s : State) : Option Instr :=
  if s.x.w0.toNat < 2147483648 then
    match decodeA s.x.w1.toNat with
    | .ok a => if (vecForm a).long then some a else none
    | .error _ => none
  else none
/-- Entries that a C-slot instruction needs: its own, and before the A slot is performed the A slot's (R255). -/
def State.needEntries (s : State) : Nat := if s.aQueues.isSome && !s.x.aDone then 2 else 1
/-- A queued instruction with what it takes from the strand. -/
def State.seqItem (s : State) (i : Instr) (scalar : Word) (pas : List Nat) : SeqItem :=
  { op := i, scalar := scalar, pas := pas, sw := s.x.src.sw, vsat := wbit s.x.src.fmt 10, bundle := s.x.me.pcByte }
/-- Appends an entry. -/
def State.pushSeq (s : State) (e : SeqEntry) : State :=
  s.updMyUnit (fun u => { u with
    q := u.q ++ [{ e with idx := u.next }], next := (u.next + 1) % 16, hist := (e.item :: u.hist).take 16 })
/-- A long-class arithmetic instruction. -/
def State.longOp (s : State) (i : Instr) : State :=
  let f := vecForm i
  if !s.x.me.lmode then s.illegalA
  else
    let queue (s : State) : State :=
      if 16 ≤ s.myUnit.q.length then s.stall .seq
      else s.pushSeq { idx := 0, item := s.seqItem i (s.vecScalar i) [] }
    if f.sb then s.withStream f (fun s _ => queue s) else queue s
/-- A vector arithmetic instruction of either class. -/
def vecOp (i : Instr) (s : State) : Out := .next (if (vecForm i).long then s.longOp i else s.shortOp i)
/-- A pair's C-slot entry executes with the entry before it (R255), which a C slot that waits keeps from running (SeqEntry.mateDue). -/
def State.pairs (s : State) : Bool := s.x.aDone && (!s.x.me.cOnly || s.x.me.pend.isSome) && s.aQueues.isSome

/-! ### Element-wise operations, bits, compares, movement (R267 to R271) -/

/-- VADD (R267). -/
def execVadd (cl : Bool) (d a b : RegNo) (r e : BitVec 3) (sb : Bool) (s : State) : Out := vecOp (.vadd cl d a b r e sb) s
/-- VSUB (R267). -/
def execVsub (cl : Bool) (d a b : RegNo) (r e : BitVec 3) (sb : Bool) (s : State) : Out := vecOp (.vsub cl d a b r e sb) s
/-- VMUL (R267). -/
def execVmul (cl : Bool) (d a b : RegNo) (r e : BitVec 3) (sb : Bool) (s : State) : Out := vecOp (.vmul cl d a b r e sb) s
/-- VMIN (R267). -/
def execVmin (cl : Bool) (d a b : RegNo) (r e : BitVec 3) (sb : Bool) (s : State) : Out := vecOp (.vmin cl d a b r e sb) s
/-- VMAX (R267). -/
def execVmax (cl : Bool) (d a b : RegNo) (r e : BitVec 3) (sb : Bool) (s : State) : Out := vecOp (.vmax cl d a b r e sb) s
/-- VABS (R267). -/
def execVabs (cl : Bool) (d a : RegNo) (r e : BitVec 3) (s : State) : Out := vecOp (.vabs cl d a r e) s
/-- VNEG (R267). -/
def execVneg (cl : Bool) (d a : RegNo) (r e : BitVec 3) (s : State) : Out := vecOp (.vneg cl d a r e) s
/-- VFMA (R268). -/
def execVfma (cl : Bool) (d a b : RegNo) (r e : BitVec 3) (sb : Bool) (s : State) : Out := vecOp (.vfma cl d a b r e sb) s
/-- VFMS (R268). -/
def execVfms (cl : Bool) (d a b : RegNo) (r e : BitVec 3) (sb : Bool) (s : State) : Out := vecOp (.vfms cl d a b r e sb) s
/-- VAND (R269). -/
def execVand (cl : Bool) (d a b : RegNo) (r e : BitVec 3) (sb : Bool) (s : State) : Out := vecOp (.vand cl d a b r e sb) s
/-- VOR (R269). -/
def execVor (cl : Bool) (d a b : RegNo) (r e : BitVec 3) (sb : Bool) (s : State) : Out := vecOp (.vor cl d a b r e sb) s
/-- VXOR (R269). -/
def execVxor (cl : Bool) (d a b : RegNo) (r e : BitVec 3) (sb : Bool) (s : State) : Out := vecOp (.vxor cl d a b r e sb) s
/-- VSHL (R269). -/
def execVshl (cl : Bool) (d a b : RegNo) (r e : BitVec 3) (sb : Bool) (s : State) : Out := vecOp (.vshl cl d a b r e sb) s
/-- VSHR (R269). -/
def execVshr (cl : Bool) (d a b : RegNo) (r e : BitVec 3) (sb : Bool) (s : State) : Out := vecOp (.vshr cl d a b r e sb) s
/-- VCMP (R270). -/
def execVcmp (cl : Bool) (d a b : RegNo) (r e : BitVec 3) (sb : Bool) (c : BitVec 3) (s : State) : Out :=
  vecOp (.vcmp cl d a b r e sb c) s
/-- VSEL (R270). -/
def execVsel (cl : Bool) (d a b : RegNo) (r e : BitVec 3) (sb : Bool) (s : State) : Out := vecOp (.vsel cl d a b r e sb) s
/-- VBCAST (R271). -/
def execVbcast (cl : Bool) (d a : RegNo) (r e : BitVec 3) (s : State) : Out := vecOp (.vbcast cl d a r e) s
/-- VEXT (R255, R258, R271): the long class reports first, then reads the register at once; the sequencer being empty, all
that its entry leaves is its number. -/
def execVext (cl : Bool) (d a b : RegNo) (r e : BitVec 3) (s : State) : Out :=
  let i := Instr.vext cl d a b r e
  if !cl then .next (s.shortOp i)
  else if !s.x.me.lmode then .next s.illegalA
  else if !s.seqIdle then .next (s.stall .seq)
  else .next (s.reportLong (fun s =>
    let w := (s.myUnit.w.toArray.getD a.toNat 0).toNat
    (s.wg d (wd (vecEval i { w := 2048, a := w, x := s.g b }).val)).updMyUnit (fun u =>
      { u with next := (u.next + 1) % 16, hist := (s.seqItem i (s.g b) [] :: u.hist).take 16 })))
/-- VPERM (R271). -/
def execVperm (cl : Bool) (d a b : RegNo) (r e : BitVec 3) (sb : Bool) (s : State) : Out := vecOp (.vperm cl d a b r e sb) s

/-! ### Reductions, distances, formats, special functions (R272 to R277) -/

/-- VRED.ADD (R272). -/
def execVredAdd (cl : Bool) (d a : RegNo) (r e : BitVec 3) (s : State) : Out := vecOp (.vredAdd cl d a r e) s
/-- VRED.MIN (R272). -/
def execVredMin (cl : Bool) (d a : RegNo) (r e : BitVec 3) (s : State) : Out := vecOp (.vredMin cl d a r e) s
/-- VRED.MAX (R272). -/
def execVredMax (cl : Bool) (d a : RegNo) (r e : BitVec 3) (s : State) : Out := vecOp (.vredMax cl d a r e) s
/-- VDOT.IP (R273). -/
def execVdotIp (cl : Bool) (d a b : RegNo) (r e : BitVec 3) (sb : Bool) (s : State) : Out := vecOp (.vdotIp cl d a b r e sb) s
/-- VDOT.COS (R273). -/
def execVdotCos (cl : Bool) (d a b : RegNo) (r e : BitVec 3) (sb : Bool) (s : State) : Out :=
  vecOp (.vdotCos cl d a b r e sb) s
/-- VDOT.COSN (R273). -/
def execVdotCosn (cl : Bool) (d a b : RegNo) (r e : BitVec 3) (sb : Bool) (s : State) : Out :=
  vecOp (.vdotCosn cl d a b r e sb) s
/-- VDOT.L2 (R273). -/
def execVdotL2 (cl : Bool) (d a b : RegNo) (r e : BitVec 3) (sb : Bool) (s : State) : Out := vecOp (.vdotL2 cl d a b r e sb) s
/-- VCVT (R274). -/
def execVcvt (cl : Bool) (d a x : RegNo) (r : BitVec 3) (sat : Bool) (y : RegNo) (s : State) : Out :=
  vecOp (.vcvt cl d a x r sat y) s
/-- VPACK (R274). -/
def execVpack (cl : Bool) (d a b : RegNo) (r e : BitVec 3) (sat : Bool) (y : RegNo) (s : State) : Out :=
  vecOp (.vpack cl d a b r e sat y) s
/-- VUNPACK (R274). -/
def execVunpack (cl : Bool) (d a : RegNo) (half : Bool) (r e : BitVec 3) (y : RegNo) (s : State) : Out :=
  vecOp (.vunpack cl d a half r e y) s
/-- VSCALE (R274). -/
def execVscale (cl : Bool) (d a b : RegNo) (r : BitVec 3) (y : RegNo) (s : State) : Out := vecOp (.vscale cl d a b r y) s
/-- VRCP (R275). -/
def execVrcp (cl : Bool) (d a : RegNo) (r e : BitVec 3) (s : State) : Out := vecOp (.vrcp cl d a r e) s
/-- VRCPN (R277). -/
def execVrcpn (cl : Bool) (d a b : RegNo) (r e : BitVec 3) (sb : Bool) (s : State) : Out := vecOp (.vrcpn cl d a b r e sb) s
/-- VRSQ (R275). -/
def execVrsq (cl : Bool) (d a : RegNo) (r e : BitVec 3) (s : State) : Out := vecOp (.vrsq cl d a r e) s
/-- VRSQN (R277). -/
def execVrsqn (cl : Bool) (d a b : RegNo) (r e : BitVec 3) (sb : Bool) (s : State) : Out := vecOp (.vrsqn cl d a b r e sb) s
/-- VEXP2 (R275). -/
def execVexp2 (cl : Bool) (d a : RegNo) (r e : BitVec 3) (s : State) : Out := vecOp (.vexp2 cl d a r e) s
/-- VLOG2 (R275). -/
def execVlog2 (cl : Bool) (d a : RegNo) (r e : BitVec 3) (s : State) : Out := vecOp (.vlog2 cl d a r e) s

/-! ### Loads and stores (R263) -/

/-- An address homed on the issuing strand's own tile. -/
def State.homedHere (s : State) (pa : Nat) : Bool := match s.homeOf pa with | .tile t => s.isHere t | _ => false
/-- VLD v: a plain read of 32 bytes under the LD row of R181, word by word on its own tile (R81). -/
def execVldV (d a : RegNo) (i : BitVec 14) (s : State) : Out :=
  let ea := s.ea a i 32
  if s.x.me.lmode then .next s.illegalC
  else .next (s.withAligned ea 32 needR (fun s pa =>
    let done (s : State) (v : Nat) : State := (s.wv d (BitVec.ofNat 256 v)).adv
    if s.homedHere pa then s.withWords ea pa 4 none done else s.readOp ea pa 32 false (.vload d) done))
/-- VST v: 32 bytes under the ST row of R181, word by word on its own tile (R81). -/
def execVstV (d a : RegNo) (i : BitVec 14) (s : State) : Out :=
  let ea := s.ea a i 32
  if s.x.me.lmode then .next s.illegalC
  else .next (s.withAligned ea 32 needW (fun s pa =>
    if s.homedHere pa then s.withWords ea pa 4 (some (s.vr d).toNat) (fun s _ => s.adv)
    else s.writeOp ea pa 32 (s.vr d).toNat State.adv))
/-- A long load or store is translated and queued (R255, R256); a reservation holder may not reach another home (R198). -/
def longAccess (i : Instr) (a : RegNo) (imm : BitVec 14) (need : Need) (s : State) : Out :=
  let ea := s.ea a imm 256
  if !s.x.me.lmode then .next s.illegalC
  else .next (s.withAligned ea 256 need (fun s pa => s.guardLeave ea pa (fun s =>
    if s.ownHolds (localOf pa) 256 then s.parkBank (localOf pa) 256
    else if 16 < s.myUnit.q.length + s.needEntries then s.stall .seq
    else (s.pushSeq { idx := 0, item := s.seqItem i ea ((List.range 32).map (fun j => pa + 8 * j)), paired := s.pairs }).adv)))
/-- VLD w. -/
def execVldW (d a : RegNo) (i : BitVec 14) (s : State) : Out := longAccess (.vldW d a i) a i needR s
/-- VST w. -/
def execVstW (d a : RegNo) (i : BitVec 14) (s : State) : Out := longAccess (.vstW d a i) a i needW s

/-! ### VLOOP and VSYNC (R257, R258) -/

/-- An instruction that may stand in a VLOOP's body. -/
def loopable (i : Instr) : Bool := longArith i
/-- The last n long instructions, oldest first, with the A slot's where it is still to be queued; none where VLOOP is ILLEGAL. Each keeps
what it captured when it was queued itself: SW, FMT.VSAT, VBCAST's value and its bundle; the spec does not say whether a pass uses those
or the VLOOP's (R256; DESIGN CHOICE, log 82). -/
def State.loopBody (s : State) (n : Nat) : Option (List SeqItem) :=
  let hist := match s.aLong with
    | some a => if s.x.aDone then s.myUnit.hist else s.seqItem a 0 [] :: s.myUnit.hist
    | none => s.myUnit.hist
  if hist.length < n || !(hist.take n).all (fun x => loopable x.op) then none else some (hist.take n).reverse
/-- Queues a VLOOP. -/
def loopOp (i : Instr) (n count : Nat) (s : State) : Out :=
  if !s.x.me.lmode then .next s.illegalC
  else match s.loopBody n with
    | none => .next s.illegalC
    | some body =>
      if 16 < s.myUnit.q.length + s.needEntries then .next (s.stall .seq)
      else .next (s.pushSeq { idx := 0, item := s.seqItem i 0 [], body := body, count := count }).adv
/-- VLOOP (R257). -/
def execVloop (a n : RegNo) (s : State) : Out := loopOp (.vloop a n) (n.toNat + 1) (nfield (s.g a).toNat 0 32) s
/-- Long VLOOP (R257). -/
def execVloopLong (n : BitVec 4) (count : W32) (s : State) : Out := loopOp (.vloopLong n count) (n.toNat + 1) count.toNat s
/-- VSYNC (R258). -/
def execVsync (s : State) : Out := .next (s.withSync State.adv)

/-! ### Modes (R251, R252) -/

/-- A stream of the core is bound to the issuing strand. -/
def State.anyStream (s : State) : Bool := (List.range 4).any s.myStream
/-- A context takes the long unit: registers, history and pending state are clear. -/
def State.takeUnit (s : State) (t core : Nat) (sid : Word) : State :=
  s.updUnit t core (fun u => { u with
    owner := some sid, waiters := u.waiters.filter (· != sid), w := Vector.replicate 16 0, hist := [], pflags := 0
    deferred := none })
/-- VMODE.LONG (R251). -/
def execVmodeLong (s : State) : Out :=
  if s.anyStream then .next s.illegalC
  else if s.x.me.lmode then .next s.adv
  else if s.x.me.hslot then .next s.illegalC
  else if s.myUnit.owner.isNone && s.myUnit.waiters.isEmpty then
    .next ((s.takeUnit s.here s.x.me.core s.x.me.sid).upd (fun st => st.swSet 17 true)).adv
  else
    .next ((s.park .longUnit).updMyUnit (fun u => { u with waiters := u.waiters ++ [s.x.me.sid] }))
/-- LONG_UNIT_GRANT (R251): the long unit of core inp.l of tile inp.k is free, and the first strand that waits for it takes
it. -/
def execLongUnitGrant (s : State) : Out :=
  let u := s.unit s.inp.k s.inp.l
  match u.waiters with
  | sid :: _ =>
    if u.owner.isSome || !((s.strandOf sid).any s.moves) then .next s
    else .next ((s.takeUnit s.inp.k s.inp.l sid).onStrand sid (fun st => (st.swSet 17 true).advance))
  | [] => .next s
/-- The short set is cleared. -/
def State.clearShort (s : State) : State :=
  s.upd (fun st => { (st.swSet 16 false) with v := Vector.replicate 8 0 })
/-- VMODE.SHORT (R251). -/
def execVmodeShort (s : State) : Out :=
  if s.anyStream then .next s.illegalC
  else if !s.x.me.lmode then .next s.adv
  else .next (s.withSync (fun s =>
    ((s.updMyUnit (fun u => { u with owner := none })).upd (fun st => st.swSet 17 false)).clearShort.adv))
/-- VCLR (R252). -/
def execVclr (s : State) : Out := if s.anyStream then .next s.illegalC else .next s.clearShort.adv

/-! ### Streams (R260, R262) -/

/-- A malformed record of SBIND. -/
def bindBad (bs : List Byte) : Bool :=
  let len := bfield bs 8 4
  bfield bs 0 8 % 256 != 0 || len % 256 != 0 || len < 256 || 131072 < len || 1 < bfield bs 0xC 1 || !recZero bs 0xD 19
/-- A translation as the C slot notes it: a cause, or 256 more than the physical address. -/
def noteXlate : Nat ⊕ Nat → Nat
  | .inl pa => pa + 256
  | .inr c => c
/-- A noted translation. -/
def notedXlate (v : Nat) : Nat ⊕ Nat := if v < 256 then .inr v else .inl (v - 256)
/-- Translates the n parts of 256 bytes of a ring from part i on, each once (R178, R260); k receives the parts with their
addresses. -/
def State.ringFrom (s : State) (buf : Word) (need : Need) (base i : Nat) (l : List (Word × (Nat ⊕ Nat)))
    (k : State → List (Word × (Nat ⊕ Nat)) → State) : Nat → State
  | 0 => k s l
  | n + 1 =>
    let a := buf + wd (256 * i)
    s.once (base + i) (fun s k => s.withXlate a need (fun s r => k s (noteXlate r)))
      (fun s v => s.ringFrom buf need base (i + 1) (l ++ [(a, notedXlate v)]) k n)
/-- The first part that has no translation, with its cause and address. -/
def ringFault (l : List (Word × (Nat ⊕ Nat))) : Option (Nat × Word) :=
  l.findSome? (fun p => match p.2 with | .inr c => some (c, p.1) | .inl _ => none)
/-- SBIND (R260). -/
def execSbind (d a : RegNo) (s : State) : Out :=
  let n := d.toNat % 4
  if s.x.me.hslot || !(s.x.me.vlive || s.x.me.lmode) || (s.stream s.here s.x.me.core n).owner.isSome then .next s.illegalC
  else .next (s.withBlock (s.g a) 32 32 (fun s bs =>
    let buf := wd (bfield bs 0 8)
    let len := bfield bs 8 4
    if bindBad bs then s.trapC cProt (s.g a)
    else s.ringFrom buf needNone 0x1000 0 [] (fun s parts =>
      let spad (pa : Nat) : Bool := s.homeOf pa == .tile s.here && isSpad (localOf pa)
      let first := parts.findSome? (fun p => match p.2 with | .inl pa => some (localOf pa / 2 ^ 17) | .inr _ => none)
      let outside := parts.any (fun p => match p.2 with
        | .inl pa => !spad pa || some (localOf pa / 2 ^ 17) != first
        | .inr _ => false)
      if outside then s.trapC cProt (s.g a)
      else match ringFault parts with
        | some (c, addr) => s.trapC c addr
        | none => s.ringFrom buf needRW 0x2000 0 [] (fun s rights =>
          match ringFault rights with
          | some (c, addr) => s.trapC c addr
          | none =>
            (s.updStream s.here s.x.me.core n (fun _ =>
              { owner := some s.x.me.sid, base := buf, len := len, long := bfield bs 0xC 1 == 1
                buf := parts.map (fun p => match p.2 with | .inl pa => pa | .inr _ => 0) })).adv) (len / 256)) (len / 256)))
/-- SFREE (R262): in long mode it waits as VSYNC does, without reporting. -/
def execSfree (d : RegNo) (s : State) : Out :=
  let n := d.toNat % 4
  if !s.myStream n then .next s.illegalC
  else if s.x.me.lmode && !s.seqIdle then .next (s.park .seq)
  else .next (s.unbind s.here s.x.me.core n).adv

/-! ### The sequencer (R255 to R259, R261, R263) -/

/-- Writes a long register of a core. -/
def State.putLong (s : State) (t core : Nat) (d : RegNo) (v : Nat) : State :=
  s.updUnit t core (fun u => { u with w := u.w.setIfInBounds d.toNat (BitVec.ofNat 2048 v) })
/-- Records a deferred exception: the first one stays (R259). -/
def State.deferLong (s : State) (t core seq kind : Nat) (bundle : Word) : State :=
  s.updUnit t core (fun u => { u with deferred := u.deferred <|> some (seq, kind, bundle) })
/-- The 64-bit words of an image, those that a test marks taken from an older image. -/
def keepWords (n : Nat) (new old : Nat) (keep : Nat → Bool) : Nat :=
  packElems 64 ((List.range n).map (fun i => if keep i then elem old 64 i else elem new 64 i))
/-- What the sequencer knows of the instruction it runs: its place, its owner, the registers before the pair, and what a
deferred exception names. -/
structure SeqCtx where
  t : Nat
  core : Nat
  owner : Strand
  w : Vector VLong 16
  seq : Nat
  bundle : Word
  deriving DecidableEq, Repr
/-- A long register as the instruction sees it. -/
def SeqCtx.reg (c : SeqCtx) (r : RegNo) : Nat := (c.w.toArray.getD r.toNat 0).toNat
/-- An access of an entry to its own tile meets an installed bank command: it waits, and is counted once (R291). -/
def State.seqHeld (s : State) (key n : Nat) (log : Tbl Nat) : Tbl Nat × State :=
  if s.bankHeld key n && (tfind log markHeld).isNone then (tset log markHeld 0, s.bumpHeld key) else (log, s)
/-- The 32 words of a long access to the own tile, those that can be performed and that inp.vals picks (R81, R287): written from
v, or read, with the words in error noted (R259). -/
def State.seqWords (s : State) (key : Nat) (log : Tbl Nat) (v : Option Nat) : Bool × Tbl Nat × State :=
  let only := s.inp.vals.map BitVec.toNat
  let bad := ((s.freeWords key 32 log only).filter (fun i => s.badAt (key + 8 * i) 8)).foldl (fun m i => m + 2 ^ i)
    (tget log markBad 0)
  let (log, s) := s.doWords key 32 log only v
  let log := if v.isNone then tset log markBad bad else log
  if allWords 32 log then (true, log, s) else (false, s.seqHeld key 256 log)
/-- The memory side of a queued instruction: whether it is done, the entry's log, and the state. A long access is performed word by
word at its own tile; a load from elsewhere is a pinned fetch under R87, and a store a posted operation (R263). An arithmetic
instruction needs its stream's operand (R261). -/
def State.seqMem (s : State) (c : SeqCtx) (x : SeqItem) (log : Tbl Nat) : Bool × Tbl Nat × State :=
  let pa := x.pas.headD 0
  let key := localOf pa
  let out : Bool := (tfind log markOut).isSome
  match x.op with
  | .vldW .. =>
    let fetch (dst : Nat) : Bool × Tbl Nat × State :=
      if out || !s.postsDone c.owner then (false, log, s)
      else (false, tset log markOut 0,
        s.send c.owner.party c.t dst c.owner.pasture 1 (.fetch c.owner.sid x.scalar key (.wload c.core 0)))
    if allWords 32 log then (true, log, s)
    else match s.homeOf pa with
      | .tile h => if h = c.t then s.seqWords key log none else fetch h
      | h => fetch (destOf c.owner.pasture h)
  | .vstW d _ _ =>
    let post (dst : Nat) : Bool × Tbl Nat × State :=
      if out then (true, log, s)
      else if !s.postRoom c.owner.party c.t then (false, log, s)
      else (true, tset log markOut 0, s.sendPost c.owner.party c.t dst c.owner.pasture 1
        (.store key 256 (BitVec.ofNat 2048 (c.reg d)) x.scalar))
    match s.homeOf pa with
    | .tile h => if h = c.t then s.seqWords key log (some (c.reg d)) else post h
    | h => post (destOf c.owner.pasture h)
  | op =>
    let f := vecForm op
    let n := f.b.toNat % 4
    let key := localOf (s.streamHead c.t c.core n).1
    if !f.sb then (true, log, s)
    else if (s.stream c.t c.core n).ready = 0 then (false, log, s)
    else if s.bankHeld key 256 then (false, s.seqHeld key 256 log)
    else (true, log, s)
/-- Whether the result of an instruction depends on every word of its operand vb and stands in word 0. -/
def vecReduces (i : Instr) : Bool :=
  match i with
  | .vdotIp .. | .vdotCos .. | .vdotCosn .. | .vdotL2 .. => true
  | _ => false
/-- A long arithmetic instruction runs. Destination words that an operand word in error bears on keep their old values, and the
event names the first such word of the operand (R214, R259). The spec is silent on an entry that meets a word in error and enabled
flags too, of which the model records MEMERR, and on flags that bad words raise, which the model ORs with the others (DESIGN CHOICE,
log 82). -/
def State.seqArith (s : State) (c : SeqCtx) (x : SeqItem) : State :=
  let f := vecForm x.op
  let n := f.b.toNat % 4
  let (pa, bs) := s.streamHead c.t c.core n
  let m := s.stream c.t c.core n
  let st : Strand := { sw := x.sw }
  let v := vecEval x.op { w := 2048, a := c.reg f.a, b := if f.sb then leNat bs else c.reg f.b, d := c.reg f.d
                          x := x.scalar, rm := st.rm, ftz := wbit x.sw 13, vsat := x.vsat }
  let bad (i : Nat) : Bool := f.sb && s.badAt (localOf pa + 8 * i) 8
  let first := (List.range 32).find? bad
  let keep (i : Nat) : Bool := if vecReduces x.op then i = 0 && first.isSome else bad i
  let s := s.putLong c.t c.core f.d (keepWords 32 v.val (c.reg f.d) keep)
  let s := s.updUnit c.t c.core (fun u => { u with pflags := u.pflags ||| v.fl })
  let s := match first with
    | some i => (s.engineErr c.owner.pasture c.t c.owner.sid (m.base + wd (m.rd * m.size + 8 * i))).deferLong c.t c.core c.seq 2
        c.bundle
    | none => if f.sb then s.correct (localOf pa) 256 else s
  let s := if v.fl &&& st.te != 0 then s.deferLong c.t c.core c.seq 1 c.bundle else s
  if f.sb then s.popStream c.t c.core n else s
/-- A long load whose words have come writes its register: words in error keep their old values (R259). Those of another tile have
had their event at their home; the event of a local load names the address of the access (DESIGN CHOICE, log 82). -/
def State.seqTake (s : State) (c : SeqCtx) (x : SeqItem) (d : RegNo) (log : Tbl Nat) : State :=
  let bad := tget log markBad 0
  let s := s.putLong c.t c.core d (keepWords 32 (wordsVal 32 log) (c.reg d) bad.testBit)
  if bad = 0 then s
  else
    let s := if (tfind log markOut).isSome then s else s.engineErr c.owner.pasture c.t c.owner.sid x.scalar
    s.deferLong c.t c.core c.seq 2 c.bundle
/-- The register side of a queued instruction, once its memory side is done. -/
def State.seqRun (s : State) (c : SeqCtx) (x : SeqItem) (log : Tbl Nat) : State :=
  match x.op with
  | .vldW d _ _ => s.seqTake c x d log
  | .vstW .. => s
  | _ => s.seqArith c x
/-- An entry with its log; one that has performed something has begun. -/
def SeqEntry.noted (e : SeqEntry) (log : Tbl Nat) : SeqEntry := { e with log := log, begun := e.begun || log != [] }
/-- The instruction of an entry that runs next. -/
def SeqEntry.current (e : SeqEntry) : SeqItem := (e.body[e.pos]?).getD e.item
/-- A VLOOP's entry after one instruction of a pass; none after its last. -/
def SeqEntry.next (e : SeqEntry) : Option SeqEntry :=
  if e.pos + 1 < e.body.length then some { e with pos := e.pos + 1, log := [], begun := true }
  else if 1 < e.count then some { e with pos := 0, count := e.count - 1, log := [], begun := true }
  else none
/-- The last entry of a sequencer is the A slot's of a bundle whose C slot, a long load or store, waits and is still to be queued: its
strand's pair is one entry yet, and does not run (R255). -/
def SeqEntry.mateDue (e : SeqEntry) (st : Strand) : Bool :=
  match st.pend with
  | some p =>
    p.w0.toNat < 2147483648 && e.item.bundle == st.pcByte
      && (match decodeC p.w0.toNat with | .ok c => Instr.isLongAccess c | .error _ => false)
      && (match decodeA p.w1.toNat with | .ok a => longArith a && a == e.item.op | .error _ => false)
  | none => false
/-- The next entry of a sequencer runs as far as it can: a pair together, an instruction of a VLOOP's pass, or one instruction. A
deferred exception of a pass names the bundle that queued the body's instruction; the spec says whose bundle it is for SEQ alone (R259;
DESIGN CHOICE, log 82). -/
def State.seqStep (s : State) (t core : Nat) (st : Strand) : State :=
  let u := s.unit t core
  let ctx (e : SeqEntry) : SeqCtx := { t := t, core := core, owner := st, w := u.w, seq := e.idx, bundle := e.current.bundle }
  let setQ (s : State) (q : List SeqEntry) : State := s.updUnit t core (fun u => { u with q := q })
  let one (e : SeqEntry) (q : List SeqEntry) (after : List SeqEntry) : State :=
    let (ok, log, s) := s.seqMem (ctx e) e.current e.log
    if ok then setQ (s.seqRun (ctx e) e.current log) (after ++ q) else setQ s (e.noted log :: q)
  match u.q with
  | [] => s
  | e :: q =>
    match e.item.op with
    | .vloop .. | .vloopLong .. => if e.count = 0 then setQ s q else one e q e.next.toList
    | _ =>
      match q with
      | f :: r =>
        if f.paired then
          let (ok, log, s) := s.seqMem (ctx e) e.item e.log
          let (ok', log', s) := s.seqMem (ctx f) f.item f.log
          if ok && ok' then setQ ((s.seqRun (ctx e) e.item log).seqRun (ctx f) f.item log') r
          else setQ s (e.noted log :: f.noted log' :: r)
        else one e q []
      | [] => if e.mateDue st then s else one e q []
/-- A strand that has been killed, as the entry that had begun still names it (R254). -/
def deadOwner (sid : Word) (t core : Nat) : Strand :=
  { sid := sid, pasture := nfield sid.toNat 42 6, place := .slot t core 0 }
/-- The unit of a killed strand is free once the entry that had begun is complete; one that would pop a stream that is no longer
bound has nothing left to do (log 68). -/
def State.endKilled (s : State) (t core : Nat) : State :=
  let starved (e : SeqEntry) : Bool :=
    let f := vecForm e.current.op
    f.sb && (s.stream t core (f.b.toNat % 4)).owner.isNone
  s.updUnit t core (fun u =>
    if u.q.isEmpty || u.q.any starved then { u with owner := none, q := [], pflags := 0, deferred := none } else u) |>.settleEnds
/-- SEQUENCER_ENTRY (R255 to R259): the sequencer of core inp.l of tile inp.k runs its next entry; inp.vals picks the words of a
long access that are performed now (R81). -/
def execSequencerEntry (s : State) : Out :=
  let t := s.inp.k
  let core := s.inp.l
  match (s.unit t core).owner with
  | some sid =>
    if (s.tl t).failed then .next s
    else match s.strandOf sid with
      | some st => .next (s.seqStep t core st)
      | none => .next ((s.seqStep t core (deadOwner sid t core)).endKilled t core)
  | none => .next s

end Sys2Proof.Machine
end

