-- ==== Sys2Proof/Machine/Endings.lean ====
section
/-! DEFINITION. How a strand ends: END (R238, R254), HEND (R411), and a kill (R432), with the set counts of R446. -/

namespace Sys2Proof.Machine

open Sys2Proof

/-! ### What an ending does -/

/-- The strand leaves its groups (R234). -/
def State.leaveGroups (s : State) (st : Strand) : State :=
  (((List.range 4).map (fun i => nfield st.grp.toNat (8 * i) 8)).filter (· != 255)).foldl (fun s n =>
    (s.updPas st.pasture (fun q => q.updGroup n (fun g => { g with
      members := g.members - 1, arrived := g.arrived.filter (· != st.sid), waiters := g.waiters.filter (· != st.sid) }))).applyGroup
        st.pasture n) s
/-- What a killed strand leaves in its sequencer: the entry that has begun, with the other of its pair (R254). -/
def begunOnly (q : List SeqEntry) : List SeqEntry :=
  match q with
  | e :: f :: _ => if f.paired then (if e.begun || f.begun then [e, f] else []) else if e.begun then [e] else []
  | [e] => if e.begun then [e] else []
  | [] => []
/-- A strand leaves the long unit of its core, as owner and as waiter. Entries that have not begun are discarded; the unit is free
once the entry that has begun completes (R254). -/
def LongUnit.freed (u : LongUnit) (sid : Word) : LongUnit :=
  let u := { u with waiters := u.waiters.filter (· != sid) }
  if u.owner != some sid then u
  else if (begunOnly u.q).isEmpty then { u with owner := none, q := [], pflags := 0, deferred := none }
  else { u with q := begunOnly u.q }
/-- The same on every core of its tile. -/
def State.freeLong (s : State) (st : Strand) : State :=
  s.updTl st.tile (fun x => { x with long := x.long.map (fun e => (e.1, e.2.freed st.sid)) })

/-! ### END and HEND -/

/-- The join decrement of END: at a local counter, or posted (R238). Its translation is one of the tile's units' (log 80). Where the
counter can no longer be reached, an event says so (R193). -/
def State.withJoin (s : State) (k : State → State) : State :=
  let st := s.x.me
  let j := st.slice.join
  let p := st.pasture
  if j = 0 then k s
  else match s.unitXlate p s.here j needW with
    | (none, s) => s.park .queue
    | (some (.inr c), s) => k (s.failEvent p s.here c st.sid j)
    | (some (.inl pa), s) =>
      match s.homeOf pa with
      | .tile t =>
        if t = s.here then
          if s.bankHeld (localOf pa) 8 then s.parkBank (localOf pa) 8
          else if s.badAt (localOf pa) 8 then k ((s.bump t (0x100 + 96) 1).failEvent p t cMemerr st.sid j)
          else k (s.joinDown (localOf pa))
        else if !s.postRoom st.party s.here then s.park (.acks 4)
        else k (s.sendPost st.party s.here t p 1 (.joinDec (localOf pa) j))
      | _ => k (s.failEvent p s.here cProt st.sid j)
/-- END (R238, R254, R372): VSYNC, the release at D, the reservation, FDONE, followers and groups, the join decrement; then the
strand is gone. -/
def execEndStrand (s : State) : Out :=
  if s.x.me.hslot then .next s.illegalC
  else .next (s.withSync (fun s => s.withFence 2 (fun s => s.withRecord (fun s => s.withJoin (fun s =>
    let s := if s.x.me.rsv then s.giveUp else s
    let st := s.x.me
    let s := (s.dropFollowers st.sid).leaveGroups st
    let s := (((s.freeLong st).unbindAll st).selDrop st.sid).dropEntry st.pasture st.sid
    let s := s.countEnded st.pasture s.here st.slice
    { s with x := { s.x with gone := true } })))))
/-- HEND (R411). -/
def execHend (s : State) : Out :=
  if !s.x.me.hslot then .next s.illegalC
  else .next (s.withFence 2 (fun s =>
    let s := if s.x.me.rsv then s.giveUp else s
    { s with x := { s.x with gone := true } }))

/-! ### Kill -/

/-- A packet that carries a strand, or a group access that it makes. -/
def Packet.carries (k : Packet) (sid : Word) : Bool :=
  match k.body with
  | .context i _ | .contextRefused i _ | .group i _ _ _ => i == sid
  | _ => false
/-- A strand leaves every list it waits on, and every queue it travels through (R196, R199). -/
def Tile.forget (x : Tile) (sid : Word) : Tile :=
  { x with
    departing := x.departing.filter (·.1 != sid)
    leftAt := x.leftAt.filter (·.1 != sid)
    arrivals := x.arrivals.filter (· != sid)
    fe := x.fe.filter (·.sid != sid)
    resv := x.resv.map (fun e => { e with fifo := e.fifo.filter (·.1 != sid) })
    resvQ := x.resvQ.filter (·.1 != sid)
    overflow := x.overflow.map (fun m => if m.taker == some sid then { m with taker := none } else m) }
/-- A packet of a strand that is gone is taken in wherever it stands; a context that was refused, for the second time (R435). -/
def State.takeIn (s : State) (k : Packet) : State :=
  match k.body with
  | .contextRefused _ _ => (s.accept k).accept { k with dst := k.src, src := k.dst }
  | _ => s.accept k
/-- The same on every tile and in the mesh. -/
def State.forget (s : State) (sid : Word) : State :=
  let drop (l : List Packet) : List Packet := l.filter (fun k => !k.carries sid)
  let gone := s.flying.filter (·.carries sid)
  let s := { s with tiles := s.tiles.map (fun e => (e.1, e.2.forget sid)), dropped := drop s.dropped, resend := drop s.resend }
  gone.foldl State.takeIn s
/-- A strand is gone: its reservation is released without storing (R154), it leaves every list, and its vector state, streams,
selection contexts and Flock entry go; its posted operations and commands are still performed (R98), its CPYS commands too (R304). -/
def State.removeStrand (s : State) (st : Strand) : State :=
  let s := s.dropFollowers st.sid
  let s := { s with strands := ldel (fun x => x.sid == st.sid) s.strands }
  let s := (s.forget st.sid).release st.tile st.sid
  (((s.freeLong st).orphanAll st).selDrop st.sid).flockKill st.pasture st.sid
/-- The join decrement of a kill, which tile t makes: at once, or once a walk, an installed bank command and R192 let it. -/
def State.postJoin (s : State) (st : Strand) (t : Nat) : State :=
  if st.slice.join = 0 || st.hslot then s
  else
    let (n, s) := s.fresh
    let c : Cmd := { id := n, sid := st.sid, pasture := st.pasture, tile := t, core := 0, eng := .join, exTile := t, op := .fdone
                     arg := st.slice.join, st := .ending 0 0 none }
    ({ s with cmds := s.cmds ++ [c] }).endCmd c
/-- A kill (R432): END without its release wait. counted: it adds to ENDED (R446), once what the strand has posted and issued is
complete (R104). by_: the tile that makes the join decrement, where it is not the strand's own. -/
def State.kill (s : State) (st : Strand) (counted : Bool) (by_ : Nat := st.tile) : State :=
  let s := ((s.removeStrand st).leaveGroups st).postJoin st by_
  if counted && st.slice.set.isSome then
    let e : Ended := { sid := st.sid, pasture := st.pasture, tile := st.tile, slice := st.slice }
    { s with ends := s.ends ++ [e] }.settleEnds
  else s

end Sys2Proof.Machine
end

