-- ==== Sys2Proof/Machine/MatrixBase.lean ====
section
/-! DEFINITION. The matrix engine's descriptors and formats (R308 to R313, R334), its two paths (R324), and its arithmetic:
alignment, group sums and accumulation (R126 to R132, R314, R315) and block quantisation (R110). -/

namespace Sys2Proof.Machine

open Sys2Proof

/-! ### Formats (R309) -/

/-- Bytes of an element; an i4 element is half of one. -/
def mxSize (f : Nat) : Nat := if f = 0 ∨ f = 10 then 4 else if f = 2 ∨ f = 3 then 2 else 1
/-- i8 and i4. -/
def mxInt (f : Nat) : Bool := f == 8 || f == 16
/-- A format of A or B. -/
def mxOperand (f : Nat) : Bool := [2, 3, 4, 5, 6, 8, 16].contains f
/-- A format that takes E8M0 block scales. -/
def mxScaled (f : Nat) : Bool := f == 4 || f == 5 || f == 8
/-- A drain format. -/
def mxDrain (f : Nat) : Bool := [0, 2, 3, 4, 5, 6, 8, 10].contains f
/-- Planes of a format. -/
def mxPlanes (f : Nat) : Nat := if f = 8 then 8 else if f = 16 then 4 else 12
/-- A format byte, with its default in FMT at bit lo. -/
def mxFmt (c : Cmd) (b lo : Nat) : Nat := if b = 0xFF then nfield c.fmt.toNat lo 4 else b
/-- The value of an element (R309), after flush. -/
def mxVal (f : Nat) (flush : Bool) (bits : Nat) : FVal :=
  if mxInt f then
    let v := signedOf (if f = 16 then 4 else 8) bits
    .fin (v < 0) v.natAbs 1
  else decodeF f bits flush
/-- The images of a load or run: i = 2 * macro + slot (R307, R308). -/
def mxImages (macro_ slot n : Nat) : List Nat := (List.range n).map (fun i => 2 * (macro_ + i) + slot)

/-! ### Descriptors -/

/-- A B descriptor (R310). -/
structure MxLoad where
  src : Word
  scl : Word
  stride : Int
  sstride : Nat
  k : Nat
  n : Nat
  gen : Nat
  fmt : Nat
  slot : Nat
  macro_ : Nat
  deriving DecidableEq, Repr
/-- Reads a B descriptor. -/
def mxLoad (c : Cmd) : MxLoad :=
  let b := c.blk
  { src := wd (bfield b 0 8), scl := wd (bfield b 8 8), stride := bfieldS b 0x10 4, sstride := bfield b 0x14 2
    k := bfield b 0x16 2, n := bfield b 0x18 2, gen := bfield b 0x1A 2, fmt := mxFmt c (bfield b 0x1C 1) 24
    slot := bfield b 0x1D 1 / 8 % 2, macro_ := bfield b 0x1D 1 % 8 }
/-- G * NB (R308). -/
def mxCount (k n : Nat) : Nat := ceilDiv k 96 * ceilDiv n 128
/-- The images of a load. -/
def MxLoad.images (d : MxLoad) : List Nat := mxImages d.macro_ d.slot (mxCount d.k d.n)
/-- A malformed B descriptor (R310). -/
def State.mxLoadBad (s : State) (c : Cmd) : Bool :=
  let d := mxLoad c
  16 ≤ bfield c.blk 0x1D 1 || !recZero c.blk 0x1E 34 || d.k = 0 || 768 < d.k || d.n = 0 || 1024 < d.n
    || 8 - d.macro_ < mxCount d.k d.n || !mxOperand d.fmt || !s.typeOn d.fmt || (d.scl != 0 && !mxScaled d.fmt)

/-- A parameter block (R312). -/
structure MxParam where
  a : Word
  acc : Word
  out : Word
  xout : Word
  flagout : Word
  ctr : Word
  astr : Int
  accstr : Int
  ostr : Int
  xstr : Int
  ascl : Word
  oscl : Word
  xscl : Word
  m : Nat
  n : Nat
  k : Nat
  bgen : Nat
  afmt : Nat
  ofmt : Nat
  xfmt : Nat
  slot : Nat
  macro_ : Nat
  akstr : Int
  sat : Bool
  rnd : Nat
  asc : Bool
  sc : Bool
  accz : Bool
  asstr : Nat
  osstr : Nat
  xsstr : Nat
  btag : Nat
  step : Nat
  som : Bool
  sten : Bool
  deriving DecidableEq, Repr
/-- Reads a parameter block. -/
def mxParam (c : Cmd) : MxParam :=
  let b := c.blk
  let flg := bfield b 0x66 1
  let img := bfield b 0x63 1
  { a := wd (bfield b 0 8), acc := wd (bfield b 8 8), out := wd (bfield b 0x10 8), xout := wd (bfield b 0x18 8)
    flagout := wd (bfield b 0x20 8), ctr := wd (bfield b 0x28 8), astr := bfieldS b 0x30 4, accstr := bfieldS b 0x34 4
    ostr := bfieldS b 0x38 4, xstr := bfieldS b 0x3C 4, ascl := wd (bfield b 0x40 8), oscl := wd (bfield b 0x48 8)
    xscl := wd (bfield b 0x50 8), m := bfield b 0x58 2, n := bfield b 0x5A 2, k := bfield b 0x5C 2, bgen := bfield b 0x5E 2
    afmt := mxFmt c (bfield b 0x60 1) 28, ofmt := mxFmt c (bfield b 0x61 1) 20, xfmt := mxFmt c (bfield b 0x62 1) 16
    slot := img / 8 % 2, macro_ := img % 8, akstr := bfieldS b 0x64 2
    sat := flg / 64 % 2 == 1, rnd := flg / 8 % 8, asc := flg / 4 % 2 == 1, sc := flg / 2 % 2 == 1, accz := flg % 2 == 1
    asstr := bfield b 0x68 2, osstr := bfield b 0x6A 2, xsstr := bfield b 0x6C 2, btag := bfield b 0x70 4
    step := bfield b 0x74 4, som := bfield b 0x78 1 / 2 % 2 == 1, sten := bfield b 0x78 1 % 2 == 1 }
/-- The images of a run. -/
def MxParam.images (p : MxParam) : List Nat := mxImages p.macro_ p.slot (mxCount p.k p.n)
/-- A drain that the block may not name: a format that is not permitted, or a block-scaled one without scales. -/
def State.mxDrainBad (s : State) (out : Word) (fmt : Nat) (scl : Word) : Bool :=
  out != 0 && (!mxDrain fmt || !s.typeOn fmt || (mxScaled fmt && scl == 0))
/-- A malformed parameter block (R313, R334, R442): drain for MXDRAIN, which ignores the fields it does not use; sent for
MXSEND, whose CTR is not 0 by rule. -/
def State.mxParamBad (s : State) (c : Cmd) (drain sent : Bool) : Bool :=
  let b := c.blk
  let p := mxParam c
  16 ≤ bfield b 0x63 1 || 128 ≤ bfield b 0x66 1 || !recZero b 0x67 1 || !recZero b 0x6E 2 || 4 ≤ bfield b 0x78 1
    || !recZero b 0x79 7 || (p.ctr != 0 && !sent) || p.m = 0 || 4096 < p.m || p.n = 0 || 1024 < p.n
    || p.rnd = 5 || p.rnd = 6 || p.acc.toNat % 4 != 0 || p.accstr % 4 != 0
    || (1 < p.m && p.accstr.natAbs < 4 * p.n) || s.mxDrainBad p.out p.ofmt p.oscl || s.mxDrainBad p.xout p.xfmt p.xscl
    || p.flagout.toNat % 8 != 0
    || (if drain then p.acc == 0
        else p.k = 0 || 768 < p.k || 8 - p.macro_ < mxCount p.k p.n || !mxOperand p.afmt || !s.typeOn p.afmt
          || (p.asc && (!mxScaled p.afmt || p.ascl == 0)) || (p.afmt == 16 && p.akstr != 1)
          || (p.sten && ((p.acc != 0 && !p.accz) || (s.committed && !s.feat2.getLsbD 1))))

/-! ### The two paths (R324) -/

/-- A command that its engine finds malformed. -/
def State.mxBad (s : State) (c : Cmd) : Bool :=
  match c.op with
  | .mxldb .. => s.mxLoadBad c
  | .mxrun .. => s.mxParamBad c false false
  | .mxdrain .. => s.mxParamBad c true false
  | .mxsend .. => s.mxParamBad c false true
  | _ => false
/-- The images that a command names. -/
def State.mxNames (s : State) (c : Cmd) : List Nat :=
  if s.mxBad c then []
  else match c.op with
    | .mxldb .. => (mxLoad c).images
    | .mxrun .. | .mxsend .. => (mxParam c).images
    | _ => []
/-- MXLDB runs on the load path, every other command on the compute path. -/
def Cmd.loads (c : Cmd) : Bool := match c.op with | .mxldb .. => true | _ => false
/-- The commands that a tile's matrix engine holds, from acceptance to completion. An MXSEND whose completion its issuing tile performs
(R328) has no place in an order of acceptance, and no engine holds it. -/
def State.mxHeld (s : State) (t : Nat) : List Cmd :=
  s.cmds.filter (fun c => c.eng == .matrix && c.exTile == t && c.accepted && c.ord != 0)
/-- The engine accepts a command unless it holds 16. A malformed one is found now, and completes with nothing done (R313). -/
def State.acceptMatrix (s : State) (c : Cmd) : Option State :=
  if 16 ≤ (s.mxHeld c.exTile).length then none
  else
    let (o, s) := s.fresh
    let s := s.updCmd c.id (fun c => { c with st := .held, ord := o })
    some (if s.mxBad c then s.finishCmd c (some 0x40) else s)
/-- A command may go on: it is the first of its path, no earlier command of the other path that has not completed names an image
of its (R324), and its gate is clear (R30). -/
def State.mxTurn (s : State) (c : Cmd) : Bool :=
  c.eng == .matrix && c.st == .held && s.gateOpen c && !(s.tl c.exTile).failed
    && (s.mxHeld c.exTile).all (fun d => c.ord ≤ d.ord
        || (if d.loads == c.loads then d.st != .held else !(s.mxNames d).any (fun i => (s.mxNames c).contains i)))

/-! The accesses of a matrix command by phase (log 64): 2 elements of A or B, 3 their scales, 4 accumulators, 5 to 8 the step
cache, 11 the checks at the start, 12 to 14 what is done once, 15 the drains. -/

/-! ### Reading a line of elements: a row of A or a column of B -/

/-- A line as it has been read: values and scales last first; the position and cause of the first fault. -/
structure MxLine where
  vals : List FVal := []
  scl : List Nat := []
  err : Option (Nat × Nat) := none
  ready : Bool := true              -- everything of it has been read
  deriving DecidableEq, Repr
/-- Reads one element of n bytes, aligned (R31). A misaligned one is ALIGN (R311, R320). -/
def Run.readEl (r : Run) (c : Cmd) (va : Word) (n : Nat) : (Nat ⊕ Nat) × Run :=
  if va.toNat % n != 0 then (.inr cAlign, r) else r.read c va n
/-- Where a line lies: the format, the address and the nibble of each element, and the address of each part's scale. -/
structure MxAt where
  fmt : Nat
  el : Nat → Word
  nib : Nat → Nat
  scl : Option (Nat → Word)
/-- The scale of the part that element k begins. -/
def Run.readScale (r : Run) (c : Cmd) (line : Nat) (at_ : MxAt) (l : MxLine) (k : Nat) : MxLine × Run :=
  match at_.scl with
  | some f =>
    if k % 32 = 0 then
      match (r.begin 3 (32 * line + k / 32)).readEl c (f (k / 32)) 1 with
      | (.inl v, r) => ({ l with scl := v :: l.scl, ready := l.ready && !r.blocked }, r)
      | (.inr e, r) => ({ l with scl := 0 :: l.scl, err := l.err <|> some (k, e) }, r)
    else (l, r)
  | none => (l, r)
/-- Element k. -/
def Run.readVal (r : Run) (c : Cmd) (line : Nat) (at_ : MxAt) (l : MxLine) (k : Nat) : MxLine × Run :=
  match (r.begin 2 (1024 * line + k)).readEl c (at_.el k) (mxSize at_.fmt) with
  | (.inl v, r) =>
    ({ l with vals := mxVal at_.fmt c.mftz (v / 2 ^ (4 * at_.nib k)) :: l.vals, ready := l.ready && !r.blocked }, r)
  | (.inr e, r) => ({ l with vals := .fin false 0 1 :: l.vals, err := l.err <|> some (k, e) }, r)
/-- Reads the n elements of a line from k on; a fault of a part's scale counts before that of its first element. -/
def Run.readLine (r : Run) (c : Cmd) (line : Nat) (at_ : MxAt) (l : MxLine) (k : Nat) : Nat → MxLine × Run
  | 0 => ({ l with vals := l.vals.reverse, scl := l.scl.reverse }, r)
  | n + 1 =>
    let (l, r) := r.readScale c line at_ l k
    let (l, r) := r.readVal c line at_ l k
    r.readLine c line at_ l (k + 1) n

/-! ### Alignment (R126, R127) -/

/-- The largest floor(log2|a|) of the finite non-zero values, if there is one. -/
def mxExp (vs : List FVal) : Option Int :=
  vs.foldl (fun e v =>
    match v with
    | .fin _ n d => if n = 0 then e else some (match e with | some x => max x (ilog2 n d) | none => ilog2 n d)
    | _ => e) none
/-- An aligned element in units of 2^(e - top): an integer as it is. -/
def mxAlign (int : Bool) (top : Nat) (e : Int) : FVal → Int
  | .fin s n d =>
    if int then signedNum s n
    else signedNum s (min (roundInt 0 false (over2 n d (e - top)).1 (over2 n d (e - top)).2).1 (2 ^ (top + 1) - 1))
  | _ => 0
/-- The exponent of a group; integers are in units of 1. -/
def mxGroupExp (int : Bool) (top : Nat) (vs : List FVal) : Int := if int then top else (mxExp vs).getD 0
/-- A cell of an image. -/
def mxCell (int : Bool) (e : Int) (v : FVal) : BCell :=
  match v with
  | .inf s => .inf s
  | .nan s => .nan s
  | .fin s n _ => .q (mxAlign int 6 e v) s (n == 0)
/-- A column of an image from the values of its group. -/
def mxCol (fmt : Nat) (vs : List FVal) (scl : List Nat) : BCol :=
  let e := mxGroupExp (mxInt fmt) 6 vs
  { e := e, scale := scl, cells := vs.map (mxCell (mxInt fmt) e) }
/-- The element that a cell came from, as far as R128 needs it. -/
def BCell.val : BCell → FVal
  | .inf s => .inf s
  | .nan s => .nan s
  | .q _ s z => .fin s (if z then 0 else 1) 1
/-- The aligned element of a cell. -/
def BCell.int : BCell → Int
  | .q v _ _ => v
  | _ => 0
/-- An infinity. -/
def FVal.isInf : FVal → Bool
  | .inf _ => true
  | _ => false
/-- A group of a row of A: its values, aligned in units of 2^(e - 10), and the scale codes of its parts. -/
structure MxGroup where
  vals : List FVal
  e : Int
  q : List Int
  scl : List Nat
  deriving DecidableEq, Repr
/-- Group g of a row, padded with zeros. -/
def mxGroup (fmt : Nat) (l : MxLine) (g : Nat) : MxGroup :=
  let vs := (l.vals.drop (96 * g)).take 96
  let e := mxGroupExp (mxInt fmt) 10 vs
  { vals := vs, e := e, q := vs.map (mxAlign (mxInt fmt) 10 e), scl := (l.scl.drop (3 * g)).take 3 }
/-- A NaN or an infinity. -/
def FVal.special (v : FVal) : Bool := v.isNaN || v.isInf

/-! ### Group sums (R128, R315) and accumulation (R129, R314) -/

/-- Σ â * b̂ of two lists. -/
def mxDot : List Int → List Int → Int
  | a :: r, b :: t => a * b + mxDot r t
  | _, _ => 0
/-- The exact group sum; one that is 0 is taken as +0, so that an accumulator of -0 becomes +0 (log 60). -/
def mxExact (a : MxGroup) (b : BCol) : FVal :=
  let bq := b.cells.map BCell.int
  let part (j : Nat) : Int × Int :=
    (mxDot ((a.q.drop (32 * j)).take 32) ((bq.drop (32 * j)).take 32),
     (a.scl.getD j 127 : Int) + (b.scale.getD j 127 : Int) - 254 + (a.e - 10) + (b.e - 6))
  let ps := (List.range 3).map part
  let x := ps.foldl (fun x p => min x p.2) (part 0).2
  let v : Int := ps.foldl (fun v p => v + p.1 * (2 ^ (p.2 - x).toNat : Nat)) 0
  if v = 0 then .fin false 0 1 else scaled (v < 0) v.natAbs x
/-- The sum of the products that involve an infinity. -/
def mxInfSum (a : MxGroup) (b : BCol) : Ex :=
  sumEx 0 (((List.zip a.vals (b.cells.map BCell.val)).filter (fun p => p.1.isInf || p.2.isInf)).map (fun p => mulF p.1 p.2))
/-- The aligned A elements of a group are all zero (R129, R132). -/
def MxGroup.zero (a : MxGroup) : Bool := a.q.all (· == 0) && !a.vals.any FVal.special
/-- The sum that is added for a group, with its flags; none where the group is not added. -/
def mxSum (a : MxGroup) (b : BCol) : Option Ex :=
  let bv := b.cells.map BCell.val
  if a.scl.contains 0xFF || b.scale.contains 0xFF then some (.nan false, fNV)
  else if a.zero && !bv.any FVal.special then none
  else if a.vals.any FVal.isNaN || bv.any FVal.isNaN then some (.nan false, 0)
  else if a.vals.any FVal.isInf || bv.any FVal.isInf then some (mxInfSum a b)
  else some (mxExact a b, 0)
/-- s * S, exact, with the flags of forming s (R120, R121, R314); a zero has the sign of a product (R108; log 60). -/
def mxTimes (sc : Option Ex) (x : Ex) : Ex :=
  match sc with
  | none => x
  | some s =>
    let (v, f) := mulF s.1 x.1
    (v, f ||| s.2 ||| x.2)
/-- One addition to an accumulator, rounded under RNE. -/
def mxAdd (mftz : Bool) (sc : Option Ex) (c : FRes) (x : Option Ex) : FRes :=
  match x with
  | none => c
  | some x =>
    let (v, f) := mxTimes sc x
    let r := roundEx 0 0 false mftz (addF 0 (decodeF 0 c.bits false) v)
    { bits := r.bits, fl := c.fl ||| f ||| r.fl }
/-- The order in which the groups of an element are added (R129; log 11). -/
def mxOrder (shape : List Nat) (n : Nat) : List Nat :=
  (List.range n).foldl (fun l g => insertBy (fun a b => Config.groupRank shape a < Config.groupRank shape b) g l) []

/-! ### Plane counts (R132, R316) -/

/-- The bits that are 1. -/
def popNat : Nat → Nat → Nat
  | 0, _ => 0
  | n + 1, v => v % 2 + popNat n (v / 2)
/-- The planes that a group runs. The sign plane runs where an aligned element is below 0: one that is negative but aligns to 0 has
no sign bit left (log 69). -/
def mxRun (fmt : Nat) (a : MxGroup) : Nat :=
  if mxInt fmt then
    popNat (mxPlanes fmt) (a.q.foldl (fun v x => v ||| wrapInt (mxPlanes fmt) x) 0)
  else
    popNat 11 (a.q.foldl (fun v x => v ||| x.natAbs) 0) + if a.q.any (· < 0) then 1 else 0

/-! ### Block quantisation (R110) -/

/-- emax of a block-scaled format. -/
def mxEmax (fmt : Nat) : Int := if fmt = 4 then 8 else if fmt = 5 then 15 else 6
/-- Quantises a block: the scale code, the element codes and the flags. In a block whose elements are all zero each element is code
0, whatever its sign (log 70). -/
def mxQuant (fmt mode : Nat) (flush : Bool) (vs : List FVal) : Nat × List FRes :=
  let zero (f : Flags) : List FRes := vs.map (fun _ => { bits := 0, fl := f })
  if vs.any FVal.special then (0xFF, zero (flagIf (vs.any (fun v => v.isInf || v.signals)) fNV))
  else match mxExp vs with
    | none => (0x7F, zero 0)
    | some e =>
      let code := (max 0 (min 254 (e - mxEmax fmt + 127))).toNat
      (code, vs.map (fun v =>
        match v with
        | .fin s n d =>
          let (a, b) := over2 n d ((code : Int) - 127)
          if fmt = 8 then floatToInt 8 mode (.fin s a b) else roundTo fmt mode true flush (.fin s a b)
        | _ => { bits := 0, fl := 0 }))
/-- Converts an accumulator value for a per-element drain (R317). -/
def mxConv (fmt mode : Nat) (sat flush : Bool) (v : FVal) : FRes :=
  if fmt = 10 then floatToInt 10 mode v else roundTo fmt mode sat flush v

end Sys2Proof.Machine
end

