-- ==== Sys2Proof/Machine/Engines.lean ====
section
/-! DEFINITION. COMMAND_ACCEPT (R28, R98, R286, R296, R324, R327, R356, R375): an engine accepts the command at the head of a
core's queue, or of its remote-command queue. -/

namespace Sys2Proof.Machine

open Sys2Proof

/-- A command that its engine may accept: the head of its core's queue, or the oldest remote matrix command. -/
def State.mayAccept (s : State) (c : Cmd) : Bool :=
  (s.isHead c && !(s.tl c.tile).failed)
    || (c.eng == .matrix && c.st == .arrived && !(s.tl c.exTile).failed
        && s.cmds.all (fun d => !(d.eng == .matrix && d.st == .arrived && d.exTile == c.exTile) || c.ord ≤ d.ord))
/-- COMMAND_ACCEPT: command inp.k. The Flock entry of a strand that is gone goes once its last queued command is accepted
(R381). -/
def execCommandAccept (s : State) : Out :=
  match s.cmd s.inp.k with
  | none => .next s
  | some c =>
    if !s.mayAccept c then .next s
    else
      let r := match c.eng with
        | .copy => s.acceptCopy c
        | .bank => s.acceptBank c
        | .matrix => s.acceptMatrix c
        | .select => s.acceptSelect c
        | .flock => s.acceptFlock c
        | .getput | .message | .join => none
      match r with
      | some s => .next (s.flockReap c.pasture c.sid)
      | none => .next s

end Sys2Proof.Machine
end

