-- ==== Sys2Proof/Machine/GetPut.lean ====
section
/-! DEFINITION. GET and PUT (R207 to R209): lists of elements moved between the issuing tile and one serving tile. -/

namespace Sys2Proof.Machine

open Sys2Proof

/-! ### Issue -/

/-- A home as one number: a tile, host memory, or a tile of another device. -/
def State.homeKey (s : State) (pa : Nat) : Nat :=
  match s.homeOf pa with
  | .tile t => t
  | .host => 16384
  | .device d => 32768 + d * 2 ^ 13 + nfield pa 29 13
  | .control => 16385
/-- GET and PUT commands of a tile that are outstanding (R208). -/
def State.getputs (s : State) (t : Nat) : Nat := (s.cmds.filter (fun c => c.eng == .getput && c.tile == t)).length
/-- Issue of GET and PUT (R208, R209). The serving tile is the home of RBASE, translated here whatever the rights, as an engine translates:
a fault raises nothing at issue. Where RBASE has no home the command runs at the issuing tile, and every element finds its own
fault. -/
def getputOp (op : Instr) (a b : RegNo) (p : BitVec 2) (s : State) : Out :=
  .next (s.withDesc (s.g a) (s.g b) 64 64 false (fun s bs ctr =>
    s.once 3 (fun s k =>
        match s.unitXlate s.x.me.pasture s.here (wd (bfield bs 0 8)) needNone with
        | (none, s) => s.park .queue
        | (some r, s) => k s (match r with | .inl pa => pa + 1 | .inr _ => 0))
      (fun s v =>
        if 16 ≤ s.getputs s.here then s.park .queue
        else
          let ex := if v = 0 then s.here else destOf s.x.me.pasture (s.homeOf (v - 1))
          let key := if v = 0 then s.here else s.homeKey (v - 1)
          s.issueCmd .getput op p (fun c => { c with exTile := ex, num := key, blk := bs, ctr := ctr, st := .held })
            State.adv)))
/-- GET (R208). -/
def execGet (a b : RegNo) (p : BitVec 2) (s : State) : Out := getputOp (.get a b p) a b p s
/-- PUT (R208). -/
def execPut (a b : RegNo) (p : BitVec 2) (s : State) : Out := getputOp (.put a b p) a b p s

/-! ### Execution -/

/-- The pieces of an element: offset and bytes, at most 8 bytes each (R81). -/
def pieces (n : Nat) : List (Nat × Nat) := if n ≤ 8 then [(0, n)] else (List.range (n / 8)).map (fun i => (8 * i, 8))
/-- One access of an element: a local one must be homed on the issuing tile, a remote one on the serving tile (R209). -/
def Run.gpAt (r : Run) (c : Cmd) (write remote : Bool) (va : Word) (need : Need)
    (f : State → Nat → Nat → Option Acc → Option Acc × State) : (Nat ⊕ Nat) × Run :=
  r.at_ c write va need (fun s pa k old =>
    if remote then (if s.homeKey pa = c.num then f s pa k old else (some (.fault 0x41), s))
    else if s.homeOf pa == .tile c.tile then f s pa k old
    else (some (.fault cProt), s))
/-- Something is done at each piece of an element, none waiting for the others; the first cause, in the order of the pieces. -/
def Run.eachPiece (r : Run) (l : List (Nat × Nat)) (f : Run → Nat × Nat → (Nat ⊕ Nat) × Run) : (List Nat ⊕ Nat) × Run :=
  r.parts l.length (fun r i => f r (l.getD i (0, 0)))
/-- Reads the pieces of an element. -/
def Run.gather (r : Run) (c : Cmd) (va : Word) (remote : Bool) (l : List (Nat × Nat)) : (List Nat ⊕ Nat) × Run :=
  r.eachPiece l (fun r p => r.gpAt c false remote (va + wd p.1) needR (fun s pa k old => s.engRead c (va + wd p.1) pa p.2 k old))
/-- Translates the pieces of a destination, before anything is written. -/
def Run.scatterPlace (r : Run) (c : Cmd) (va : Word) (remote : Bool) (l : List (Nat × Nat)) : (List Nat ⊕ Nat) × Run :=
  r.eachPiece l (fun r p => r.gpAt c false remote (va + wd p.1) needW (fun s pa _ _ => (some (.val pa), s)))
/-- Writes the pieces of an element: a local piece as a store, a remote one as a posted operation (R82). -/
def Run.scatter (r : Run) (c : Cmd) (va : Word) (remote : Bool) (l : List ((Nat × Nat) × Nat)) : (List Nat ⊕ Nat) × Run :=
  r.eachPiece (l.map (·.1)) (fun r p => r.gpAt c true remote (va + wd p.1) needW (fun s pa k old =>
      s.engWrite c (va + wd p.1) pa p.2 ((l.find? (fun q => q.1 == p)).elim 0 (·.2)) k old))
/-- The index of element i, read from the issuing tile (R208). An index list that is not aligned to its index width is ALIGN
(log 37). -/
def Run.gpIndex (r : Run) (c : Cmd) (i : Nat) : (Nat ⊕ Nat) × Run :=
  let idx := wd (bfield c.blk 0x10 8)
  let z := if bfield c.blk 0x2D 1 % 2 = 1 then 8 else 4
  let a := idx + wd (i * z)
  if a.toNat % z != 0 then r.once false (fun s _ _ => (some (.fault cAlign), s))
  else r.gpAt c false false a needR (fun s pa k old => s.engRead c a pa z k old)
/-- What a pass over a transfer gathers. -/
structure XferRun where
  r : Run
  err : Option Nat := none
  deriving DecidableEq, Repr
/-- A skipped element. -/
def XferRun.fault (b : XferRun) (r : Run) (e : Nat) : XferRun := { r := r, err := b.err <|> some e }
/-- The offset of remote element i. -/
def Run.gpOffset (r : Run) (c : Cmd) (i : Nat) : (Nat ⊕ Nat) × Run :=
  if bfield c.blk 0x10 8 = 0 then (.inl (wrapInt 64 (i * bfieldS c.blk 0x18 8)), r)
  else match r.gpIndex c i with
    | (.inl v, r) => (.inl (v * 2 ^ bfield c.blk 0x2C 1), r)
    | x => x
/-- Element i is transferred, or skipped with its fault: of several, that of its index, else of its alignment, else of the element
read, else of the element written (log 37). -/
def XferRun.element (b : XferRun) (c : Cmd) (i : Nat) : XferRun :=
  let get : Bool := match c.op with | .get .. => true | _ => false
  let bs := c.blk
  let n := 2 ^ bfield bs 0x2C 1
  match (b.r.begin 3 i).gpOffset c i with
  | (.inr e, r) => b.fault r e
  | (.inl o, r) =>
    let ra := wd (bfield bs 0 8) + wd o
    let la := wd (bfield bs 8 8) + wd (wrapInt 64 (i * bfieldS bs 0x20 8))
    if !r.blocked && (ra.toNat % min n 8 != 0 || la.toNat % min n 8 != 0) then b.fault r cAlign
    else
      let (src, dst) := if get then (ra, la) else (la, ra)
      match r.gather c src get (pieces n) with
      | (.inr e, r) => b.fault r e
      | (.inl vs, r) =>
        match r.scatterPlace c dst (!get) (pieces n) with
        | (.inr e, r) => b.fault r e
        | (.inl _, r) =>
          match r.scatter c dst (!get) ((pieces n).zip vs) with
          | (.inr e, r) => b.fault r e
          | (.inl _, r) => { b with r := if c.exTile < 16384 then r.effect (fun s => s.bump c.exTile (0x100 + 112) 1) else r }
/-- The elements from i on. -/
def XferRun.walk (b : XferRun) (c : Cmd) (i : Nat) : Nat → XferRun
  | 0 => b
  | n + 1 => (b.element c i).walk c (i + 1) n
/-- A malformed descriptor (R209). -/
def xferBad (bs : List Byte) : Bool :=
  2 ≤ bfield bs 0x2D 1 || !recZero bs 0x2E 18 || 1048576 < bfield bs 0x28 4 || 8 < bfield bs 0x2C 1
/-- A pass over a GET or PUT. -/
def State.runXfer (s : State) (c : Cmd) : State :=
  let b := XferRun.walk { r := s.run c } c 0 (bfield c.blk 0x28 4)
  b.r.complete c 0 0 b.err
/-- GETPUT_EXEC (R208): command inp.k goes on, once its gate is clear (R30). -/
def execGetputExec (s : State) : Out :=
  match s.cmd s.inp.k with
  | some c =>
    if c.eng == .getput && c.st == .held && s.gateOpen c then
      .next (if xferBad c.blk then s.finishCmd c (some 0x40) else s.runXfer c)
    else .next s
  | none => .next s

end Sys2Proof.Machine
end

