-- ==== Sys2Proof/Machine/Sha256.lean ====
section
/-! DEFINITION. SHA-256 and HMAC-SHA-256, which R428, R453 and R454 name (FIPS 180-4 and FIPS 198-1), on lists of bytes. The
constants are computed from what they stand for: bits of the roots of the first primes. -/

namespace Sys2Proof.Machine

open Sys2Proof

/-! ### Constants -/

/-- The greatest number whose n-th power is at most v, from r on, by its lowest bits. -/
def shaRoot (n v r : Nat) : Nat → Nat
  | 0 => r
  | bits + 1 => shaRoot n v (if (r + 2 ^ bits) ^ n ≤ v then r + 2 ^ bits else r) bits
/-- The first 32 bits of the fraction of a prime's n-th root. -/
def shaFraction (n p : Nat) : Nat := shaRoot n (p * 2 ^ (32 * n)) 0 36 % 2 ^ 32
/-- The first 64 primes. -/
def shaPrimes : List Nat := (List.range 312).filter (fun p => 2 ≤ p && (List.range p).all (fun d => d < 2 || p % d != 0))

/-! ### The compression of a block, on numbers below 2^32 -/

/-- A word turned right by n bits. -/
def turn (n x : Nat) : Nat := x / 2 ^ n + x % 2 ^ n * 2 ^ (32 - n)
/-- The exclusive or of two turns of a word and a third number. -/
def mix (i j third x : Nat) : Nat := Nat.xor (Nat.xor (turn i x) (turn j x)) third
/-- Where a block stands: the eight working words in order, and the next sixteen words of the message. -/
structure ShaRun where
  work : List Nat
  ahead : List Nat
  deriving DecidableEq, Repr
/-- The word that follows sixteen words of the message. -/
def nextWord (w : List Nat) : Nat :=
  let at_ (i : Nat) : Nat := w.getD i 0
  (at_ 0 + mix 7 18 (at_ 1 / 8) (at_ 1) + at_ 9 + mix 17 19 (at_ 14 / 1024) (at_ 14)) % 2 ^ 32
/-- The round of constant k: the fifth word takes what the round adds, the first word that with the mix of the old first words, and
the others move on by one place. -/
def ShaRun.round (x : ShaRun) (k : Nat) : ShaRun :=
  match x.work with
  | [a, b, c, d, e, f, g, h] =>
    let choose := Nat.xor g (Nat.land e (Nat.xor f g))
    let most := Nat.lor (Nat.land a b) (Nat.land c (Nat.lor a b))
    let add := h + mix 6 11 (turn 25 e) e + choose + k + x.ahead.headD 0
    { work := [(add + mix 2 13 (turn 22 a) a + most) % 2 ^ 32, a, b, c, (d + add) % 2 ^ 32, e, f, g]
      ahead := x.ahead.drop 1 ++ [nextWord x.ahead] }
  | _ => x

/-! ### Messages -/

/-- The number that bytes give, most significant first. -/
def beNat (bs : List Byte) : Nat := bs.foldl (fun n b => n * 256 + b.toNat) 0
/-- The low n bytes of a number, most significant first. -/
def beBytes (n v : Nat) : List Byte := (leBytes n v).reverse
/-- The hash value after a block of 64 bytes. -/
def shaBlock (hash : List Nat) (block : List Byte) : List Nat :=
  let words := (List.range 16).map (fun i => beNat ((block.drop (4 * i)).take 4))
  let last := (shaPrimes.map (shaFraction 3)).foldl ShaRun.round { work := hash, ahead := words }
  List.zipWith (fun a b => (a + b) % 2 ^ 32) hash last.work
/-- A message with the bit 1, zeros, and its length in bits, in whole blocks. -/
def shaPad (bs : List Byte) : List Byte :=
  bs ++ 0x80 :: List.replicate (63 - (bs.length + 8) % 64) 0 ++ beBytes 8 (8 * bs.length)
/-- SHA-256. -/
def sha256 (bs : List Byte) : List Byte :=
  let msg := shaPad bs
  ((List.range (msg.length / 64)).foldl (fun hash i => shaBlock hash ((msg.drop (64 * i)).take 64))
    ((shaPrimes.take 8).map (shaFraction 2))).flatMap (beBytes 4)
/-- HMAC-SHA-256 under a key of at most 64 bytes. -/
def hmacSha256 (key msg : List Byte) : List Byte :=
  let padded (pad : Byte) : List Byte := (List.range 64).map (fun i => key.getD i 0 ^^^ pad)
  sha256 (padded 0x5c ++ sha256 (padded 0x36 ++ msg))

end Sys2Proof.Machine
end

