-- ==== Sys2Proof/Machine/Earmark.lean ====
section
/-! DEFINITION. Earmarks (R395 to R397, R428): their fields and seals, how an instruction reads and checks one, and what makes a
packet stale. Blocks of memory on the issuing tile, piece by piece. -/

namespace Sys2Proof.Machine

open Sys2Proof

/-! ### Fields and seals -/

/-- The target selector. -/
def emSel (e : List Byte) : Nat := bfield e 4 1
/-- The target: [15:0] logical column, [31:16] logical row, [39:32] selector. -/
def emTarget (e : List Byte) : Nat := bfield e 0 5
/-- The generation. -/
def emGen (e : List Byte) : Nat := bfield e 6 2
/-- The pasture. -/
def emPas (e : List Byte) : Nat := bfield e 9 1 / 4
/-- A right: 0 SEND, 1 WAKE, 2 HALT, 3 INSPECT. -/
def emRight (e : List Byte) (i : Nat) : Bool := nfield (bfield e 8 1) i 1 == 1
/-- A reserved field is not 0. -/
def emReserved (e : List Byte) : Bool := !recZero e 5 1 || 16 ≤ bfield e 8 1 || bfield e 9 1 % 4 != 0
/-- The seal of an earmark under a pasture's key. -/
def Pasture.sealOf (q : Pasture) (e : List Byte) : List Byte :=
  (hmacSha256 (leBytes 32 (Config.sealKey q.key).toNat) (e.take 10)).take 6
/-- The logical row of a target. -/
def tgtRow (w : Nat) : Nat := nfield w 16 16
/-- The logical column of a target. -/
def tgtCol (w : Nat) : Nat := nfield w 0 16
/-- The slot of a target, as 16 * core + slot. -/
def tgtSlot (w : Nat) : Nat := nfield w 32 6
/-- A selector that names a slot (R395). -/
def selSlot (n : Nat) : Bool := n < 64 && n % 16 ≤ 13
/-- Whether a target's coordinates lie in the logical grid, which a SHRINK makes smaller. -/
def State.onGrid (s : State) (p w : Nat) : Bool := ((s.pas p).binding (tgtRow w) (tgtCol w)).isSome
/-- The tile to which a target's packet goes: the one that the remap table binds. No tile holds coordinates outside the logical
grid: such a packet is stale where it stands, and names no strand (R397; log 71). -/
def State.targetTile (s : State) (p w : Nat) : Nat := ((s.pas p).binding (tgtRow w) (tgtCol w)).getD s.here
/-- The slot that a packet for a target names; 64, which is none, outside the grid. -/
def State.targetSlot (s : State) (p w : Nat) : Nat := if s.onGrid p w then tgtSlot w else 64
/-- The generation of a logical tile (R395, R424). -/
def Pasture.regenOf (q : Pasture) (row col : Nat) : Nat := (tget q.regen (row * 65536 + col) 0).toNat
/-- A packet that names a tile is stale (R397). -/
def State.staleTile (s : State) (p t w gen : Nat) : Bool :=
  let q := s.pas p
  !s.hasPas p || q.st == .drained || (s.tl t).failed || (q.binding (tgtRow w) (tgtCol w)).isNone
    || q.regenOf (tgtRow w) (tgtCol w) != gen
/-- The strand that a packet names in a slot of tile t; none where the packet is stale (R397). -/
def State.slotTarget (s : State) (p t slot gen : Nat) : Option Strand :=
  if 64 ≤ slot || !s.hasPas p || (s.pas p).st == .drained || (s.tl t).failed || (tget (s.tl t).occ slot 0).toNat != gen then none
  else s.inSlotAt t (slot / 16) (slot % 16)

/-! ### Reading and checking (R396) -/

/-- The words of control space at an address. -/
def State.ctlBytes (s : State) (paddock pa n : Nat) : List Byte :=
  (List.range (n / 8)).flatMap (fun i => leBytes 8 (s.readControl paddock (pa + 8 * i) 8))
/-- Where the C slot notes the words that it reads on its own tile in place of a block. -/
def rawPlace : Nat := 0x500
/-- A plain read of n bytes, a multiple of 8, in one page: on the issuing tile, word by word, or at its home as a pinned fetch, once
R87 allows it (R190), whose reply notes the data under the key; k receives them as a number. -/
def State.readRaw (s : State) (addr : Word) (pa n key : Nat) (k : State → Nat → State) : State :=
  let far : State := s.leaving addr (fun s => s.park (.fetch addr pa (.block n key)))
  match s.homeOf pa with
  | .tile t =>
    if s.isHere t then s.readEach rawPlace (recWords addr pa n) k else far
  | .control => k s (leNat (s.ctlBytes (paddockOf s.here) pa n))
  | _ => far
/-- Reads n bytes once, at a place that is found and checked first; bad receives the cause where their home cannot give them. -/
def State.readOnce (s : State) (addr : Word) (n key : Nat) (place : (State → Nat → State) → State → State) (bad : State → Nat → State)
    (k : State → List Byte → State) : State :=
  s.once key (fun s k => place (fun s pa => s.readRaw addr pa n key k) s)
    (fun s v => if 2 ^ (8 * n) ≤ v then bad s (v - 2 ^ (8 * n)) else k s (leBytes n v))
/-- The earmark at an address, aligned and readable, read once. -/
def State.withEarmarkAt (s : State) (addr : Word) (k : State → List Byte → State) : State :=
  s.readOnce addr 16 5 (fun k s => s.withAligned addr 16 needR k) (fun s c => s.trapC c addr) k
/-- The checks of R396: the selector first, then the pasture, the seal and the right. -/
def State.checkEarmark (s : State) (addr : Word) (e : List Byte) (ok : Nat → Bool) (right : Nat) (k : State → State) : State :=
  let p := s.x.me.pasture
  if !ok (emSel e) then s.trapC cProt addr
  else if emPas e != p || (e.drop 10).take 6 != (s.pas p).sealOf e || !emRight e right then s.trapC cSeal addr
  else k s

/-! ### Blocks of memory -/

/-- The pieces of a range that lie in one page of 64 KiB each; ranges are shorter than a page. -/
def pageParts (va : Word) (n : Nat) : List (Word × Nat) :=
  let first := 65536 - va.toNat % 65536
  if n = 0 then [] else if n ≤ first then [(va, n)] else [(va, first), (va + wd first, n - first)]
/-- Translates the pieces of a range, in order and once each, the first under key i; a trap names the first failing address. -/
def State.withParts (s : State) (need : Need) (l : List (Word × Nat)) (k : State → List (Word × Nat × Nat) → State)
    (i : Nat := 16) : State :=
  match l with
  | [] => k s []
  | (va, n) :: r =>
    s.once i (fun s k => s.withPa va need k) (fun s pa => s.withParts need r (fun s l => k s ((va, pa, n) :: l)) (i + 1))
/-- All pieces are homed on the issuing tile. -/
def State.partsHere (s : State) (l : List (Word × Nat × Nat)) : Bool := l.all (fun x => s.homeOf x.2.1 == .tile s.here)
/-- The words of 8 bytes of translated pieces, with their virtual addresses. -/
def partWords (l : List (Word × Nat × Nat)) : List (Word × Nat) :=
  l.flatMap (fun x => (List.range (ceilDiv x.2.2 8)).map (fun i => (x.1 + wd (8 * i), x.2.1 + 8 * i)))
/-- Reads n bytes in the pieces of a range on the issuing tile, each word by itself and once (R81, R287). -/
def State.readParts (s : State) (l : List (Word × Nat × Nat)) (n : Nat) (k : State → List Byte → State) : State :=
  s.readEach 64 (partWords l) (fun s v => k s (leBytes n v))

/-! ### What a tile's unit writes into a range of its tile (R81, R287, R403, R414) -/

/-- A range as a unit of a tile translates it. -/
inductive Range where
  | ok (l : List (Word × Nat × Nat))        -- its pieces: virtual and local address, bytes
  | bad                                     -- a piece fails, or is homed elsewhere
  | wait                                    -- a miss waits for its walk (R174)
  deriving DecidableEq, Repr
/-- Its pieces, none where it cannot be written. -/
def Range.pieces : Range → List (Word × Nat × Nat)
  | .ok l => l
  | _ => []
/-- The range of n bytes at an address, as tile t translates it. -/
def State.partsAt (s : State) (p t : Nat) (need : Need) (va : Word) (n : Nat) : Range × State :=
  (pageParts va n).foldl (fun (a : Range × State) x =>
    let (r, s) := a.2.unitXlate p t x.1 need
    match a.1, r with
    | _, none => (.wait, s)
    | .ok l, some (.inl pa) => (if s.homeOf pa == .tile t then .ok (l ++ [(x.1, localOf pa, x.2)]) else .bad, s)
    | .wait, _ => (.wait, s)
    | _, _ => (.bad, s)) (.ok [], s)
/-- What of each aligned word translated pieces touch. -/
def pieceWords (l : List (Word × Nat × Nat)) : List (Word × Nat × Nat) :=
  l.flatMap (fun x => (wordsOf x.2.1 x.2.2).map (fun w =>
    let a := max x.2.1 (8 * w)
    (x.1 + wd (a - x.2.1), a, min (x.2.1 + x.2.2) (8 * w + 8) - a)))
/-- Writes bytes into words of a range, each by itself: those not written yet, among those picked, that no installed bank command
holds (R81, R287). The log says, from place i on, which are written. A part of a word with an uncorrectable error is left out, with
its event (R214). -/
def State.putWords (s : State) (p t : Nat) (sid : Word) (only : List Nat) (log : Tbl Nat) (i : Nat) :
    List (Word × Nat × Nat) → List Byte → Tbl Nat × State
  | [], _ => (log, s)
  | (va, a, n) :: r, bs =>
    if (tfind log i).isSome || !(only.isEmpty || only.contains i) || s.bankHeld a n then
      s.putWords p t sid only log (i + 1) r (bs.drop n)
    else
      let s := if n < 8 && s.badAt a n then s.engineErr p t sid va else s.stWord a n (leNat (bs.take n))
      s.putWords p t sid only (tset log i 0) (i + 1) r (bs.drop n)
/-- The words of a range, from place i on, are written. -/
def allPut (log : Tbl Nat) (i n : Nat) : Bool := (List.range n).all (fun j => (tfind log (i + j)).isSome)
/-- A packet's data go into a range of tile t, those words that inp.vals picks; k goes on once all are there. A range that the tile
can no longer write is left as it is. -/
def State.packetWrite (s : State) (k : Packet) (t : Nat) (sid buf : Word) (bs : List Byte) (done : State → State) : State :=
  match s.partsAt k.pasture t needW buf bs.length with
  | (.wait, s) => s
  | (x, s) =>
    let l := pieceWords x.pieces
    let (log, s') := s.putWords k.pasture t sid (s.inp.vals.map BitVec.toNat) k.log 0 l bs
    if allPut log 0 l.length then done s'
    else
      match l.find? (fun x => s.bankHeld x.2.1 x.2.2) with
      | some x => (if k.held then s' else s'.bumpHeld x.2.1).keepPart k log true
      | none => s'.keepPart k log false

end Sys2Proof.Machine
end

