-- ==== Sys2Proof/Machine/Messages.lean ====
section
/-! DEFINITION. Messages (R398 to R407): MSEND and MSENDH, their arrival, matching, overflow, refusal and retries; posted
receives; messages to the controller; and MXSEND (R327, R328). -/

namespace Sys2Proof.Machine

open Sys2Proof

/-! ### MSEND and MSENDH (R398, R399) -/

/-- A malformed descriptor, but for where its payload lies. -/
def msgBad (bs : List Byte) (handler : Bool) : Bool :=
  let len := bfield bs 0x1C 2
  !recZero bs 0x1F 33 || 256 < len || 3 ≤ bfield bs 0x1E 1
    || (handler && (len % 8 != 0 || len < 8 || 120 < len)) || (emSel bs == 0xFE && 16 < len)
/-- Sends a message that has passed every check. -/
def State.sendMsg (s : State) (bs pay : List Byte) (handler : Bool) (d : Word) (ctr : Option Nat) : State :=
  let p := s.x.me.pasture
  let w := emTarget bs
  let m : Msg := { handler := handler, tag := bfield bs 0x18 4, len := bfield bs 0x1C 2, pay := pay, sender := s.here
                   stamp := s.pasTime p s.here, sid := s.x.me.sid, ctr := ctr, desc := d, gen := emGen bs, where_ := w }
  if emSel bs = 0xFE then s.postOp (corner (s.pas p).pcb.rootp) (bfield bs 0x1E 1) (.event m) State.adv
  else s.postOp (s.targetTile p w) (bfield bs 0x1E 1) (.msg m) State.adv
/-- MSEND and MSENDH. -/
def msendOp (a b : RegNo) (handler : Bool) (s : State) : State :=
  let d := s.g a
  s.withBlock d 64 64 (fun s bs =>
    let len := bfield bs 0x1C 2
    let pay := wd (bfield bs 0x10 8)
    s.withParts needR (pageParts pay len) (fun s l =>
      if msgBad bs handler || (len != 0 && (pay.toNat % 8 != 0 || !s.partsHere l)) then s.trapC cProt d
      else s.withCounter (s.g b) true (fun s ctr => s.withFence 2 (fun s => s.readParts l len (fun s data =>
        s.checkEarmark d bs (fun n => n == 0xFF || (n == 0xFE && !handler)) 0 (fun s =>
          s.sendMsg bs data handler d ctr))))))
/-- MSEND (R399). -/
def execMsend (a b : RegNo) (s : State) : Out := .next (msendOp a b false s)
/-- MSENDH (R399). -/
def execMsendh (a b : RegNo) (s : State) : Out := .next (msendOp a b true s)

/-! ### Matching and delivery (R401, R403) -/

/-- A message matches a posted receive. -/
def Msg.matches (m : Msg) (r : Recv) : Bool :=
  nfield (Nat.xor m.tag r.tag) 0 32 &&& r.tmask == 0 && nfield (Nat.xor m.sender r.src) 0 13 &&& r.smask == 0
/-- STAT without its three top bits. -/
def Msg.stat (m : Msg) : Nat := m.sender % 2 ^ 13 * 2 ^ 48 + m.tag % 2 ^ 32 * 2 ^ 16 + m.len % 2 ^ 9
/-- STAT of the record that a message completes. -/
def Recv.done (r : Recv) (m : Msg) : Nat := 2 ^ 63 + (if r.cap < m.len then 2 ^ 62 else 0) + m.stat
/-- A message is delivered to a record of tile t, as far as installed bank commands let it: the payload in the pieces x of the
buffer, then STAMP, then STAT (R403). The log says, from place i on, what is written; its place i + 65 says that all is. -/
def State.deliverMsg (s : State) (p t : Nat) (r : Recv) (x : Range) (m : Msg) (only : List Nat) (log : Tbl Nat) (i : Nat) :
    Tbl Nat × State :=
  let l := pieceWords x.pieces
  let (log, s) := s.putWords p t m.sid only log i l m.pay
  if !allPut log i l.length then (log, s)
  else
    let (log, s) := s.putWords p t m.sid [] log (i + 64) [(0, r.pa + 0x20, 8)] (leBytes 8 m.stamp)
    if (tfind log (i + 64)).isNone then (log, s)
    else s.putWords p t m.sid [] log (i + 65) [(0, r.pa + 0x18, 8)] (leBytes 8 (r.done m))
/-- The word for which a delivery waits behind an installed bank command. -/
def State.deliverHeld (s : State) (r : Recv) (x : Range) (log : Tbl Nat) (i : Nat) : Option Nat :=
  match ((pieceWords x.pieces).zipIdx i).find? (fun w => (tfind log w.2).isNone && s.bankHeld w.1.2.1 w.1.2.2) with
  | some w => some w.1.2.1
  | none => [r.pa + 0x20, r.pa + 0x18].find? (fun a => s.bankHeld a 8)
/-- A message is accepted: counted, and its stamp received (R394). -/
def State.acceptMsg (s : State) (p t : Nat) (m : Msg) : State := (s.receive p t m.stamp).bump t 0x1000 1
/-- A message is refused (R404): counted, with MSG_OVERFLOW at the first refusal since the queue last had room. The refusal of
its last retry is final: the message is taken in (R435), and its party's later operations proceed (R415). -/
def State.refuseMsg (s : State) (k : Packet) (t : Nat) (m : Msg) : PostEnd :=
  let x := s.tl t
  let known := if m.handler then x.hqRefused else x.ovfRefused
  let s := s.bump t 0x1018 1
  let s := s.updTl t (fun x => { x with
    hqRefused := x.hqRefused || m.handler, ovfRefused := x.ovfRefused || !m.handler })
  let s := if known then s else s.post k.pasture t cMsgOverflow noCls t 0 (if m.handler then 1 else 0)
  if (s.pas k.pasture).pcb.mretry ≤ m.tries then .full404 (s.passSeq k) true else .full404 s false
/-- A message at its tile (R397, R403, R408). A record that takes it is its own until it is delivered; one whose buffer the tile can
no longer write gets STAMP and STAT alone (log 47). -/
def State.performMsg (s : State) (k : Packet) (t : Nat) (m : Msg) : PostEnd :=
  let p := k.pasture
  if s.staleTile p t m.where_ m.gen then .stale
  else if m.handler then
    if 32 ≤ (s.tl t).handlers.length then s.refuseMsg k t m
    else
      let word (i : Nat) : Word := wd (bfield m.pay (8 * i) 8)
      .done ((s.updTl t (fun x => { x with handlers := x.handlers ++
        [{ pc := word 0, regs := (List.range 14).map (fun i => word (i + 1)), g15 := wd m.stat }] })).acceptMsg p t m)
  else match (s.tl t).recvs.find? (fun r => r.taker == some k.id)
      <|> (s.tl t).recvs.find? (fun r => r.taker.isNone && m.matches r) with
    | some r =>
      let (x, s) := (s.updTl t (fun x => { x with
        recvs := lupd (·.pa == r.pa) (fun r => { r with taker := some k.id }) x.recvs })).partsAt p t needW r.buf (min m.len r.cap)
      if x = .wait then .wait s
      else
        let (log, s') := s.deliverMsg p t r x m (s.inp.vals.map BitVec.toNat) k.log 0
        if (tfind log 65).isSome then
          .done (((s'.updTl t (fun x => { x with recvs := ldel (·.pa == r.pa) x.recvs })).bump t 0x1008 1).acceptMsg p t m)
        else match s.deliverHeld r x log 0 with
          | some a => .part (if k.held then s' else s'.bumpHeld a) log true
          | none => .part s' log false
    | none =>
      if 128 ≤ (s.tl t).overflow.length then s.refuseMsg k t m
      else .done (((s.updTl t (fun x => { x with overflow := x.overflow ++ [m] })).bump t 0x1010 1).acceptMsg p t m)
/-- MESSAGE_ARRIVAL (R397, R403): message inp.k reaches its tile. -/
def execMessageArrival (s : State) : Out :=
  match s.packet s.inp.k with
  | some k =>
    match k.body with
    | .post (.msg m) =>
      let t := s.target k
      let k := { k with dst := t }
      .next (s.arriveTurn k (fun s => s.performMsg k t m))
    | _ => .next s
  | none => .next s
/-- INSP's wait is over (R414). -/
def Strand.inspected (st : Strand) : Strand := if st.wait == some .insp then st.advance else st
/-- The same packet with its message refused once more. -/
def Packet.again (k : Packet) : Packet :=
  match k.body with
  | .post (.msg m) => { k with body := .post (.msg { m with tries := m.tries + 1 }) }
  | _ => k
/-- A message whose last retry was refused is lost (R404). -/
def State.loseMsg (s : State) (k : Packet) (m : Msg) : State :=
  match m.ctr with
  | some _ => s.msgDone k m (some cMsgRefused)
  | none =>
    if (s.strandOf m.sid).isSome then s.recordFail k.party 0 cMsgRefused m.desc
    else s.failEvent k.pasture k.src cMsgRefused m.sid m.desc
/-- MESSAGE_RETRY (R404): refusal inp.k is back at the sender; its message is sent again, on a journey of its own
class (R392), and counted as a retransmission; or it is lost. -/
def execMessageRetry (s : State) : Out :=
  match s.packet s.inp.k with
  | some k =>
    match k.body with
    | .msgRefused n =>
      let s := s.accept k
      match s.unacked.find? (·.id == n) with
      | some e =>
        match e.body with
        | .post (.msg m) =>
          if (s.pas e.pasture).pcb.mretry ≤ m.tries then .next ((s.loseMsg e m).freeEntry n)
          else
            let e := e.again
            .next (({ s with unacked := lupd (·.id == n) (fun _ => e) s.unacked }.bump e.src 0x1038 1).journey e)
        | _ => .next s
      | none => .next s
    | _ => .next s
  | none => .next s
/-- CONTROLLER_MESSAGE (R407): message inp.k reaches the root paddock's controller, which writes its event record. -/
def execControllerMessage (s : State) : Out :=
  match s.packet s.inp.k with
  | some k =>
    match k.body with
    | .post (.event m) =>
      .next (s.arriveTurn k (fun s =>
        .done (s.postRecord k.pasture
          (eventRecord 0x20 k.pasture m.len m.tag m.sid (bfield m.pay 0 8) (wd (bfield m.pay 8 8))))))
    | _ => .next s
  | none => .next s
/-- A stale packet e is reported at its sender: a completion at the counter, or MSG_STALE with its target (R397). -/
def State.staleReport (s : State) (e : Packet) : State :=
  let event (s : State) (sid : Word) (w : Nat) : State :=
    s.post e.pasture e.src 0x21 ((s.strandOf sid).elim noCls Strand.evClass) e.src sid (wd w)
  match e.body with
  | .post (.msg m) =>
    (match m.ctr with
     | some _ => s.msgDone e m (some 0x4B)
     | none => event s m.sid m.where_)
  | .post (.wake sid _ _ w _) | .post (.haltt sid _ _ w _) => event s sid w
  | .post (.mxsend c _) =>
    (match s.cmd c with
     | some c =>
       let c := { c with exTile := c.tile, ord := 0 }
       event ((s.updCmd c.id (fun _ => c)).finishCmd c (some 0x4B)) c.sid c.arg.toNat
     | none => s)
  | _ => s
/-- STALE_REFUSAL (R397): refusal inp.k is back at the sender, which reports it: at the counter, by MSG_STALE, or in INSP's
image, once its word can be written there. -/
def execStaleRefusal (s : State) : Out :=
  match s.packet s.inp.k with
  | some k =>
    match k.body with
    | .stale n =>
      match s.unacked.find? (·.id == n) with
      | none => .next (s.accept k)
      | some e =>
        match e.body with
        | .post (.insp sid _ _ _ buf) =>
          .next (s.packetWrite k e.src sid buf (leBytes 8 (2 ^ 64 - 1)) (fun s =>
            ((s.accept k).freeEntry n).onStrand sid Strand.inspected))
        | _ => .next (((s.accept k).freeEntry n).staleReport e)
    | _ => .next s
  | none => .next s

/-! ### Posted receives (R401, R402, R405, R406) -/

/-- A receive record at an address, aligned and homed on this tile. -/
def State.withRecv (s : State) (r : Word) (need : Need) (k : State → Nat → State) : State :=
  s.withAligned r 64 need (fun s pa => if s.homeOf pa != .tile s.here then s.trapC cProt r else k s pa)
/-- The STAT word of a record, which is the only one that MWAIT, MPROBE and MCANCEL access. -/
def State.withStat (s : State) (r : Word) (k : State → Nat → State) : State :=
  s.withRecv r needR (fun s pa =>
    let key := localOf pa + 0x18
    s.withLocal (pa + 0x18) 8 (fun s => if s.badAt key 8 then s.memErr (r + 0x18) key else k (s.correct key 8) (localOf pa)))
/-- The receive that a record posts. -/
def recvOf (key : Nat) (bs : List Byte) : Recv :=
  { pa := key, buf := wd (bfield bs 0 8), cap := bfield bs 8 4, tag := bfield bs 0xC 4, tmask := bfield bs 0x10 4
    src := bfield bs 0x14 2, smask := bfield bs 0x16 2 }
/-- A malformed record, but for where its buffer lies: a reserved field, or CAP. -/
def recvBad (bs : List Byte) : Bool :=
  let r := recvOf 0 bs
  2 ^ 13 ≤ r.src || 2 ^ 13 ≤ r.smask || !recZero bs 0x28 24 || 256 < r.cap
/-- Where the C slot of an MPOST notes, in its log, what it has written: STAT and STAMP at first; then a message. -/
def mpostPlace : Nat := memoKey 0x600
/-- STAT and STAMP of the record become 0, once (R402). -/
def State.clearRecv (s : State) (key : Nat) (k : State → State) : State :=
  let (log, s') := s.putWords s.x.me.pasture s.here s.x.me.sid [] s.x.log mpostPlace [(0, key + 0x18, 8), (0, key + 0x20, 8)] []
  let s' := { s' with x := { s'.x with log := log } }
  if allPut log mpostPlace 2 then k s'
  else s'.parkBank (if s.bankHeld (key + 0x18) 8 then key + 0x18 else key + 0x20) 8
/-- A receive whose record has passed its checks takes the earliest message that matches, which is then its own, or a place in the
list, for which it waits (R402). -/
def State.postRecv (s : State) (e : Recv) : State :=
  let t := s.here
  let p := s.x.me.pasture
  let me := s.x.me.sid
  match (s.tl t).overflow.find? (fun m => m.taker == some me) <|> (s.tl t).overflow.find? (fun m => m.taker.isNone && m.matches e) with
  | some m =>
    let mine : Msg := { m with taker := some me }
    let (x, s) := (s.updTl t (fun x => { x with overflow := lupd (· == m) (fun _ => mine) x.overflow })).partsAt p t needW e.buf
      (min m.len e.cap)
    if x = .wait then s.park .queue
    else
      let i := mpostPlace + 2
      let (log, s') := s.deliverMsg p t e x m [] s.x.log i
      let s' := { s' with x := { s'.x with log := log } }
      if (tfind log (i + 65)).isSome then
        (s'.updTl t (fun x => { x with overflow := ldel (· == mine) x.overflow, ovfRefused := false })).adv
      else s'.parkBank ((s.deliverHeld e x log i).getD e.pa) 8
  | none =>
    if 64 ≤ (s.tl t).recvs.length then s.park .queue
    else (s.updTl t (fun x => { x with recvs := x.recvs ++ [e] })).adv
/-- MPOST (R402): the record is read and checked, and its status cleared, once. -/
def execMpost (a : RegNo) (s : State) : Out :=
  let r := s.g a
  .next (s.once 6 (fun s k => s.withRecv r needRW k) (fun s pa => s.readEach recordPlace (recWords r pa 64) (fun s v =>
    let e := recvOf (localOf pa) (leBytes 64 v)
    s.once 7 (fun s k =>
      if recvBad (leBytes 64 v) || (s.tl s.here).recvs.any (·.pa == e.pa) then s.trapC cProt r
      else match s.partsAt s.x.me.pasture s.here needW e.buf e.cap with
        | (.ok _, s) => k s 0
        | (.bad, s) => s.trapC cProt r
        | (.wait, s) => s.park .queue)
      (fun s _ => s.clearRecv e.pa (fun s => s.postRecv e)))))
/-- The number of the issuing strand's slot on its tile. -/
def State.mySlot (s : State) : Nat := 16 * s.x.me.core + s.x.me.slotNo
/-- The wake latch of the issuing strand's slot is 1 (R412). -/
def State.latched (s : State) : Bool := (s.tl s.here).latch.contains s.mySlot
/-- Clears it. -/
def State.unlatch (s : State) : State :=
  let n := s.mySlot
  s.updTl s.here (fun x => { x with latch := x.latch.filter (· != n) })
/-- MWAIT (R405). -/
def execMwait (d a : RegNo) (s : State) : Out :=
  let r := s.g a
  if r = 0 then
    .next (if s.latched then (s.unlatch.wg d 1).adv else s.parkUser (.latch d))
  else .next (s.withStat r (fun s key =>
    let v := s.rd (key + 0x18) 8
    if 2 ^ 63 ≤ v then (s.wg d (wd v)).adv else s.parkUser (.mwait (key + 0x18) d)))
/-- MPROBE (R405). -/
def execMprobe (d a : RegNo) (s : State) : Out :=
  let r := s.g a
  if r = 0 then .next (s.unlatch.wg d (boolWord s.latched)).adv
  else .next (s.withStat r (fun s key => (s.wg d (wd (s.rd (key + 0x18) 8))).adv))
/-- MCANCEL (R406): with the traps of MWAIT, of which r = 0 meets none. A record to which a message is being delivered has left the
list (log 47). -/
def execMcancel (a : RegNo) (s : State) : Out :=
  let r := s.g a
  if r = 0 then .next s.adv
  else .next (s.withStat r (fun s key =>
    if (s.tl s.here).recvs.any (fun e => e.pa == key && e.taker.isNone) then
      ((s.updTl s.here (fun x => { x with recvs := ldel (·.pa == key) x.recvs })).st (key + 0x18) 8 0xA000000000000000).adv
    else s.adv))

/-! ### MXSEND (R327) -/

/-- An MXSEND that was issued: with a scope that does not include its target, its issuer's earlier commands do not hold it back
(R324). -/
def State.newSend (s : State) (c : Cmd) : Cmd :=
  if c.apart then { c with after := c.after.filter (fun n => !s.cmds.any (·.id == n)) } else c
/-- MXSEND: the earmark and the block, the counter, the checks of the earmark, then one posted operation to the target. -/
def execMxsend (a b : RegNo) (p : BitVec 2) (s : State) : Out :=
  let e := s.g a
  .next (s.withEarmarkAt e (fun s em => s.withBlock (s.g b) 64 128 (fun s bs =>
    s.withCounter (wd (bfield bs 0x28 8)) true (fun s ctr => s.checkEarmark e em (· == 0xFF) 0 (fun s => s.withReport p (fun s =>
      if s.longBusy s.x.me then s.park .seq
      else if !s.postRoom s.x.me.party s.here then s.park (.acks 4)
      else
        let dst := (s.pas s.x.me.pasture).forward (s.targetTile s.x.me.pasture (emTarget em))
        let (n, s) := s.fresh
        let c := s.newSend { s.newCmd .matrix (.mxsend a b p) p n with
          blk := bs, ctr := ctr, exTile := dst, st := .sent, arg := wd (emTarget em) }
        ({ s with cmds := s.cmds ++ [c] }.sendPost s.x.me.party s.here dst s.x.me.pasture 1 (.mxsend n (emGen em))).adv))))))
/-- MXSEND_ARRIVAL (R327, R328): remote command inp.k reaches the tile's remote-command queue of 8 entries. -/
def execMxsendArrival (s : State) : Out :=
  match s.packet s.inp.k with
  | some k =>
    match k.body with
    | .post (.mxsend n gen) =>
      let t := s.target k
      let w := (s.cmd n).elim 0 (fun c => c.arg.toNat)
      .next (s.arriveTurn { k with dst := t } (fun s =>
        if (s.tl t).failed then .failed s cHomeLost 0
        else if s.staleTile k.pasture t w gen then .stale
        else if 8 ≤ (s.cmds.filter (fun c => c.eng == .matrix && c.exTile == t && c.st == .arrived)).length then .full
        else
          let (o, s) := s.fresh
          .done ((s.bump t (0x100 + 56) 1).updCmd n (fun c => { c with st := .arrived, exTile := t, ord := o }))))
    | _ => .next s
  | none => .next s

end Sys2Proof.Machine
end

