-- ==== Sys2Proof/Machine/Handlers.lean ====
section
/-! DEFINITION. Message handlers (R408 to R410), and the acts on other strands: WAKE, HALTT and INSP (R412 to R414). -/

namespace Sys2Proof.Machine

open Sys2Proof

/-! ### Handler starts (R408, R409) -/

/-- The slot that the next handler takes: 14, or else 15, of the lowest core with one free. -/
def State.handlerSlot (s : State) (t : Nat) : Option (Nat × Nat) :=
  [(0, 14), (0, 15), (1, 14), (1, 15), (2, 14), (2, 15), (3, 14), (3, 15)].find? (fun (x : Nat × Nat) =>
    (s.inSlotAt t x.1 x.2).isNone)
/-- The state in which a handler starts (R409). -/
def handlerStrand (e : HEntry) (sid : Word) (p t c n : Nat) : Strand :=
  { sid := sid, pasture := p, place := .slot t c n, pc := BitVec.ofNat 53 (e.pc.toNat / 8)
    g := Vector.ofFn (fun (i : Fin 16) =>
      if i.val = 0 then 0 else if i.val = 15 then e.g15 else e.regs.getD (i.val - 1) 0)
    sw := wd (2 ^ 23), grp := 0xFFFFFFFF }
/-- A local AMOZ that waited for room in the handler queue is performed, the first to wait first (R408). One whose words an installed
bank command holds by now, or have an error, makes its access again, and meets that (R100, R214). -/
def State.roomForAmoz (s : State) (t : Nat) : State :=
  let waiting := s.strands.filter (fun st => st.tile == t && match st.wait with | some (.handlerRoom ..) => true | _ => false)
  match least (fun a b => a.parkedAt < b.parkedAt) waiting with
  | none => s
  | some st =>
    match st.wait with
    | some (.handlerRoom a key b) =>
      if s.bankHeld key 16 || s.badAt key 16 then s.onStrand st.sid Strand.again
      else (match s.amozAt key a b with | some s => s.onStrand st.sid Strand.advance | none => s)
    | _ => s
/-- HANDLER_START (R408, R409): the head of the handler queue of tile inp.k starts in a free handler slot, with INDEX inp.m. An
address that no bundle can have raises its fault at once (R149). -/
def execHandlerStart (s : State) : Out :=
  let t := s.inp.k
  match s.pasOfTile t, (s.tl t).handlers, s.handlerSlot t with
  | some p, e :: r, some (c, n) =>
    if (s.pas p).st != .running || (s.tl t).failed || !s.indexFree t s.inp.m then .next s
    else
      let (sid, s) := s.newSid p t s.inp.m
      let s := s.updTl t (fun x => { x with handlers := r, hqRefused := false })
      let s := (s.bump t 0x1028 1).updPas p (fun q => { q with fires := q.fires + 1 })
      let s := { s with strands := s.strands ++ [handlerStrand e sid p t c n] }
      let s := if e.pc.toNat % 8 != 0 then s.asStrand sid (fun s => s.trapC cAlign e.pc)
        else if nfield e.pc.toNat 56 8 != 0 then s.asStrand sid (fun s => s.trapC cXlate e.pc) else s
      .next (s.roomForAmoz t)
  | _, _, _ => .next s

/-! ### WAKE, HALTT, INSP (R412 to R415) -/

/-- The operand of the three: a slot earmark with a right, checked; k has its target tile, slot, target and generation. -/
def State.withSlotEarmark (s : State) (a : RegNo) (right : Nat) (k : State → Nat → Nat → Nat → Nat → State) : State :=
  let e := s.g a
  s.withEarmarkAt e (fun s em => s.checkEarmark e em selSlot right (fun s =>
    let p := s.x.me.pasture
    let w := emTarget em
    k s (s.targetTile p w) (s.targetSlot p w) w (emGen em)))
/-- WAKE (R412): a release at D. -/
def execWake (a : RegNo) (s : State) : Out :=
  .next (s.withFence 2 (fun s => s.withSlotEarmark a 1 (fun s t n w g =>
    s.postOp t 0 (.wake s.x.me.sid n g w 0) State.adv)))
/-- HALTT (R413). -/
def execHaltt (a : RegNo) (s : State) : Out :=
  .next (s.withSlotEarmark a 2 (fun s t n w g => s.postOp t 0 (.haltt s.x.me.sid n g w 0) State.adv))
/-- INSP (R414): the strand waits for the image. -/
def execInsp (a b : RegNo) (s : State) : Out :=
  let buf := s.g b
  if (s.g a).toNat % 16 != 0 then .next (s.trapC cAlign (s.g a))
  else if buf.toNat % 64 != 0 then .next (s.trapC cAlign buf)
  else .next (s.withParts needW (pageParts buf 192) (fun s l =>
    if !s.partsHere l then s.trapC cProt buf
    else s.withSlotEarmark a 3 (fun s t n _ g =>
      s.postOp t 0 (.insp s.x.me.sid n g 0 buf) (fun s => s.park .insp))))
/-- WAKE at its slot: the latch is set, and an MWAIT on it completes, which clears it; that of a stopped strand completes when
the strand resumes (R416). -/
def State.performWake (s : State) (p t slot gen stamp : Nat) : PostEnd :=
  match s.slotTarget p t slot gen with
  | none => .stale
  | some st =>
    let s := s.receive p t stamp
    match st.wait with
    | some (.latch d) =>
      if s.moves st then .done (s.onStrand st.sid (fun st => (st.setG d 1).advance))
      else .done (s.updTl t (fun x => { x with latch := ninsert x.latch slot }))
    | _ => .done (s.updTl t (fun x => { x with latch := ninsert x.latch slot }))
/-- WAKE_ARRIVAL (R412): inp.k reaches its tile. -/
def execWakeArrival (s : State) : Out :=
  match s.packet s.inp.k with
  | some k =>
    match k.body with
    | .post (.wake _ slot gen _ stamp) =>
      let t := s.target k
      .next (s.arriveTurn { k with dst := t } (fun s => s.performWake k.pasture t slot gen stamp))
    | _ => .next s
  | none => .next s
/-- HALTT at its slot: the strand is held, unless it is already stopped, by itself or with its pasture; and HALTED is posted. -/
def State.performHaltt (s : State) (p t slot gen stamp : Nat) : PostEnd :=
  match s.slotTarget p t slot gen with
  | none => .stale
  | some st =>
    let s := s.receive p t stamp
    let s := if !s.moves st then s
      else (s.dropFollowers st.sid).onStrand st.sid (fun st => { st with stop := some .held })
    .done (s.post p t 0x22 st.evClass t st.sid 0)
/-- HALTT_ARRIVAL (R413): inp.k reaches its tile. -/
def execHalttArrival (s : State) : Out :=
  match s.packet s.inp.k with
  | some k =>
    match k.body with
    | .post (.haltt _ slot gen _ stamp) =>
      let t := s.target k
      .next (s.arriveTurn { k with dst := t } (fun s => s.performHaltt k.pasture t slot gen stamp))
    | _ => .next s
  | none => .next s
/-- INSP at its slot: the image of the strand goes back. -/
def State.performInsp (s : State) (k : Packet) (t slot gen stamp : Nat) (sid buf : Word) : PostEnd :=
  match s.slotTarget k.pasture t slot gen with
  | none => .stale
  | some st =>
    .done ((s.receive k.pasture t stamp).reply k.party t k.src k.pasture k.cls (.image sid buf st.packetImage))
/-- INSP_ARRIVAL (R414): inp.k reaches its tile. -/
def execInspArrival (s : State) : Out :=
  match s.packet s.inp.k with
  | some k =>
    match k.body with
    | .post (.insp sid slot gen stamp buf) =>
      let t := s.target k
      .next (s.arriveTurn { k with dst := t } (fun s => s.performInsp k t slot gen stamp sid buf))
    | _ => .next s
  | none => .next s
/-- INSP_REPLY (R414): image inp.k is written into the buffer, each word once no bank entry holds it, and its strand goes on. -/
def execInspReply (s : State) : Out :=
  match s.packet s.inp.k with
  | some k =>
    match k.body with
    | .image sid buf bs =>
      .next (s.packetWrite k k.dst sid buf bs (fun s => (s.accept k).onStrand sid Strand.inspected))
    | _ => .next s
  | none => .next s

end Sys2Proof.Machine
end

