-- ==== Sys2Proof/Machine/P256.lean ====
section
/-! DEFINITION. The check of an ECDSA signature over curve P-256, which R453 names; the curve, its base point and the steps of the check
are those of its standard, FIPS 186-5 (PRESUMED, log 13). -/

namespace Sys2Proof.Machine

open Sys2Proof

/-- The prime of the field. -/
def p256P : Nat := 0xFFFFFFFF00000001000000000000000000000000FFFFFFFFFFFFFFFFFFFFFFFF
/-- The order of the base point, a prime. -/
def p256N : Nat := 0xFFFFFFFF00000000FFFFFFFFFFFFFFFFBCE6FAADA7179E84F3B9CAC2FC632551
/-- The constant b of the curve y² = x³ − 3x + b. -/
def p256B : Nat := 0x5AC635D8AA3A93E7B3EBBD55769886BC651D06B0CC53B0F63BCE3C3E27D2604B

/-- A point; none is the point at infinity. -/
abbrev CurvePoint := Option (Nat × Nat)
/-- The base point. -/
def p256G : CurvePoint :=
  some (0x6B17D1F2E12C4247F8BCE6E563A440F277037D812DEB33A0F4A13945D898C296,
        0x4FE342E2FE1A7F9B8EE7EB4A7C0F9E162BCE33576B315ECECBB6406837BF51F5)
/-- b to the power of the low k bits of e, modulo m. -/
def powMod (m b e : Nat) : Nat → Nat
  | 0 => 1 % m
  | k + 1 =>
    let h := powMod m b (e / 2) k
    if e % 2 = 1 then h * h % m * b % m else h * h % m
/-- The inverse modulo a prime of 256 bits. -/
def invMod (m a : Nat) : Nat := powMod m a (m - 2) 256
/-- The third point on the line of slope l through two points, reflected. -/
def p256Chord (l x1 y1 x2 : Nat) : CurvePoint :=
  let x := (l * l + 2 * p256P - x1 - x2) % p256P
  some (x, (l * (x1 + p256P - x) + p256P - y1) % p256P)
/-- The sum of two points of the curve. -/
def p256Add (a b : CurvePoint) : CurvePoint :=
  match a, b with
  | none, b => b
  | a, none => a
  | some (x1, y1), some (x2, y2) =>
    if x1 != x2 then p256Chord ((y2 + p256P - y1) * invMod p256P (x2 + p256P - x1) % p256P) x1 y1 x2
    else if (y1 + y2) % p256P = 0 then none
    else p256Chord ((3 * x1 * x1 + p256P - 3) * invMod p256P (2 * y1) % p256P) x1 y1 x2
/-- The multiple of a point by the low k bits of e. -/
def p256Mul (q : CurvePoint) (e : Nat) : Nat → CurvePoint
  | 0 => none
  | k + 1 =>
    let h := p256Mul q (e / 2) k
    let d := p256Add h h
    if e % 2 = 1 then p256Add d q else d
/-- Coordinates that name a point of the curve. -/
def onP256 (x y : Nat) : Bool := x < p256P && y < p256P && y * y % p256P == (x * x * x + 3 * (p256P - x) + p256B) % p256P
/-- The signature (r, s) of a digest z verifies under the public key (x, y). -/
def ecdsaVerify (x y z r s : Nat) : Bool :=
  onP256 x y && 0 < r && r < p256N && 0 < s && s < p256N
    && (let w := invMod p256N s
        match p256Add (p256Mul p256G (z * w % p256N) 256) (p256Mul (some (x, y)) (r * w % p256N) 256) with
        | some (u, _) => u % p256N == r
        | none => false)

end Sys2Proof.Machine
end

