-- ==== Sys2Proof/Machine/Pastures.lean ====
section
/-! DEFINITION. The life of a pasture (R423 to R427): its control block, creation, gates, drain, reset and end; and the page
tables of a pasture as the controllers walk them. -/

namespace Sys2Proof.Machine

open Sys2Proof

/-! ### The control block (R423, R424) -/

/-- Reads a control block. -/
def pcbOf (b : List Byte) : Pcb :=
  { row := bfield b 1 1, col := bfield b 2 1, h := bfield b 3 1, w := bfield b 4 1, rootp := bfield b 5 1
    modeB := bfield b 6 1 % 2 == 1, mretry := bfield b 7 1, pool := bfield b 8 4, depth := bfield b 0xC 1
    dbud := bfield b 0xD 3, age := bfield b 0x10 4, margin := bfield b 0x14 4
    weight := (List.range 8).map (fun c => bfield b (0x18 + c) 1)
    watch := (List.range 8).map (fun c => bfield b (0x20 + 8 * c) 8), mbwin := bfield b 0x60 4, mign := bfield b 0x64 1
    wpol := bfield b 0x65 1, migw := bfield b 0x66 2, wshift := bfield b 0x68 1, delta := bfield b 0x6C 4
    stealmin := bfield b 0x70 2, spillblk := bfield b 0x72 2, reclaim := bfield b 0x74 4, foldq := bfield b 0x78 4
    evq := bfield b 0x80 8, evqn := bfield b 0x88 4
    roots := (List.range (bfield b 3 1 * bfield b 4 1)).map (fun j => bfield b (0x100 + 8 * j) 8) }
/-- A field of a block breaks its range, or a reserved byte is not 0. -/
def pcbRange (b : List Byte) : Bool :=
  let c := pcbOf b
  56 ≤ bfield b 0 1 || c.h = 0 || c.w = 0 || 7 < c.row + c.h || 8 < c.col + c.w || !c.holds c.rootp || 2 ≤ bfield b 6 1
    || c.dbud < 256 || c.pool < 16 || 262144 < c.pool || c.depth = 0 || 31 < c.depth || !recZero b 0x18 1
    || (c.weight.drop 1).any (· == 0) || c.watch.any (2 ^ 40 ≤ ·) || c.mbwin < 1000 || 1000000000 < c.mbwin
    || c.mign < 2 || 32 < c.mign || 3 ≤ c.wpol || c.migw < 64 || 1024 < c.migw || 24 < c.wshift || c.delta = 0
    || c.stealmin = 0 || 4096 < c.stealmin || c.reclaim < 1000 || 10000000 < c.reclaim || 1048576 < c.foldq
    || !recZero b 0x69 3 || !recZero b 0x7C 4 || !recZero b 0x8C 0x74 || !recZero b 0x2C0 0x40
    || !recZero b (0x100 + 8 * (c.h * c.w)) (8 * (56 - c.h * c.w))
/-- A malformed block: its ranges; a number in use; paddocks of another pasture, or without firmware (R453). -/
def State.pcbBad (s : State) (b : List Byte) : Bool :=
  pcbRange b || s.hasPas (bfield b 0 1)
    || (pcbOf b).paddocks.any (fun p => (s.pasOfPaddock p).isSome || (s.pad p).boot == 2)
/-- CREATE's effect (R424): the epoch, a seal key, the identity binding; RUNNING, with every class closed. -/
def State.create (s : State) (b : List Byte) : State :=
  let c := pcbOf b
  let q : Pasture := { pcb := c, epoch := s.tileTime (corner c.rootp), key := s.keys, credit := c.weight
                       rows := 12 * c.h, cols := 12 * c.w, winStart := s.now }
  let p := bfield b 0 1
  let s := { s with
    pastures := tset s.pastures p q, keys := s.keys + 1, areas := tset s.areas p { tget s.areas p {} with hostwake := 0 } }
  (c.paddocks.flatMap paddockTiles).foldl (fun s t =>
    s.updTl t (fun x => { x with flock := {}, spillblk := none, sent := [0, 0, 0], rcvd := [0, 0, 0] })) s

/-! ### Page tables as the controllers walk them -/

/-- The leaves that a table reaches: the entry's local address, the page's bits, the entry. -/
def State.leavesFrom (s : State) (paddock : Nat) : Nat → List (Nat × Nat) → List (Nat × Nat × Nat)
  | _, [] => []
  | t, (lo, n) :: rest =>
    if !s.tableOk paddock t then []
    else (List.range (2 ^ n)).flatMap (fun i =>
      let ea := localOf t + 8 * i
      let e := s.rd ea 8
      if e % 2 = 0 then []
      else if nfield e 1 1 = 1 then (if lo < 38 then [(ea, lo, e)] else [])
      else s.leavesFrom paddock (nfield e 12 44 * 4096) rest)
/-- The tables that a table reaches, itself among them, by local address. -/
def State.tablesFrom (s : State) (paddock : Nat) : Nat → List (Nat × Nat) → List Nat
  | _, [] => []
  | t, (_, n) :: rest =>
    if !s.tableOk paddock t then []
    else localOf t :: (List.range (2 ^ n)).flatMap (fun i =>
      let e := s.rd (localOf t + 8 * i) 8
      if e % 2 = 0 || nfield e 1 1 = 1 then [] else s.tablesFrom paddock (nfield e 12 44 * 4096) rest)
/-- The leaves of every replica of a pasture. -/
def State.leaves (s : State) (p : Nat) : List (Nat × Nat × Nat) :=
  let q := s.pas p
  q.pcb.paddocks.flatMap (fun d => s.leavesFrom d (q.rootOf d) walkLevels)
/-- The 4 KiB pages of every table that some root reaches. -/
def State.tables (s : State) (p : Nat) : List Nat :=
  let q := s.pas p
  q.pcb.paddocks.flatMap (fun d => s.tablesFrom d (q.rootOf d) walkLevels)
/-- The local address of the page of a leaf. -/
def leafBase (e : Nat) : Nat := localOf (nfield e 12 44 * 4096)
/-- A leaf maps a page of this device. -/
def State.ownLeaf (s : State) (e : Nat) : Bool := nfield (nfield e 12 44 * 4096) 45 11 == s.devnum.toNat
/-- An entry of a pasture maps a byte of a range; n = 0 names the whole pasture (R436). -/
def TlbEntry.hit (e : TlbEntry) (p a n : Nat) : Bool := e.asp == p && (n = 0 || (e.base < a + n && a < e.base + 2 ^ e.bits))
/-- The place of a reply that nothing awaits any more: the C slot looks for no data there. -/
def deadKey : Nat := 2 ^ 20 - 1
/-- A strand whose access was translated and has not left its tile makes its C slot again, and translates it again (R179). What a
reply brings of a page table, or of a bundle, that was read before counts no more. -/
def Strand.retranslate (st : Strand) : Strand :=
  { st with
    wait := (match st.wait with
      | some (.fetch ..) | some (.poll ..) | some (.pool ..) => none
      | some (.reply a pa .code) => some (.reply a pa (.block 8 deadKey))
      | some (.reply a pa (.block n key)) => some (.reply a pa (.block n (if 2 ^ 20 ≤ key then deadKey else key)))
      | w => w)
    pend := st.pend.map (fun q => { q with log := q.log.filter (fun e => memoData e.1) }) }
/-- The access with which a C slot waits at its home for what others do: the register and the offset of its address, and its rights
(R178). -/
def Instr.awaits : Instr → Option (RegNo × BitVec 14 × Need)
  | .ldfe _ a i | .stef _ a i | .lrw _ a i => some (a, i, needRW)
  | .ldff _ a i => some (a, i, needR)
  | .amoz a _ => some (a, 0, needRW)
  | .ccwait a _ | .ccwaitLong a _ | .mxwait a _ | .join a => some (a, 0, needR)
  | .mwait _ a => some (a, 3, needR)
  | _ => none
/-- The instruction of a waiting C slot. -/
def Pending.instr (q : Pending) : Option Instr :=
  (if q.w0.toNat < 2147483648 then decodeC q.w0.toNat else decodeLong q.w0.toNat q.w1.toNat).toOption
/-- The word of its home at which a strand waits (R196, R197, R205, R405, R408). -/
def Wait.place : Wait → Option Nat
  | .fullEmpty pa | .resv pa | .counter pa _ _ | .mwait pa _ | .handlerRoom _ pa _ => some pa
  | _ => none
/-- Such a strand keeps its place if its address, translated again, still names the word with the rights it needs (R179; log 78). -/
def State.keepsPlace (s : State) (st : Strand) (pa : Nat) : Bool :=
  match st.pend.bind (fun q => q.instr.bind (fun i => (Instr.awaits i).map (fun x => (q, x)))) with
  | some (q, a, o, need) =>
    let va := ({ st with g := q.g } : Strand).gr a + sx o * 8
    (match s.walk st.pasture (paddockOf st.tile) va.toNat with
     | .ok e => (match s.checkEntry st.pasture e va.toNat need with
        | .inl x => localOf x == pa && s.homeOf x == .tile st.tile
        | .inr _ => false)
     | .fault _ => false)
  | none => false
/-- A strand of the pasture loses its place, and makes its C slot again. -/
def State.loses (s : State) (p : Nat) (st : Strand) : Bool :=
  st.pasture == p && (st.wait.bind Wait.place).any (fun pa => !s.keepsPlace st pa)
/-- The strands that do. -/
def State.displaced (s : State) (p : Nat) : List Word := (s.strands.filter (s.loses p)).map (·.sid)
/-- What a tile keeps for strands that wait no more at its words. -/
def Tile.displace (x : Tile) (l : List Word) : Tile :=
  { x with
    fe := x.fe.filter (fun w => !l.contains w.sid)
    resv := x.resv.map (fun e => { e with fifo := e.fifo.filter (fun w => !l.contains w.1) })
    resvQ := x.resvQ.filter (fun w => !l.contains w.1) }
/-- What a TLBINV leaves of a tile of its pasture: walks begin again, and fetched bundles are fetched again (R179, R180). -/
def Tile.shot (x : Tile) (p a n : Nat) (l : List Word) : Tile :=
  { (x.displace l) with
    tlb := x.tlb.filter (fun e => !e.hit p a n), walkRuns := [], fbuf := [], unitWalks := x.unitWalks.filter (·.2.isNone) }
/-- Every TLB drops the entries of a pasture that map a byte of a range, a controller's all it has (R419), and fetch sees what was
written there (R180). Accesses that wait on their tile are translated again (R179). -/
def State.shootdown (s : State) (p a n : Nat) : State :=
  let out := s.displaced p
  { s with
    tiles := s.tiles.map (fun (x : Nat × Tile) => (x.1, if s.pasOfTile x.1 == some p then x.2.shot p a n out
      else { x.2 with tlb := x.2.tlb.filter (fun e => !e.hit p a n) }))
    ctls := s.ctls.map (fun (x : Nat × Ctl) => (x.1, { x.2 with
      ctx := if x.2.sv.asp.toNat = p then x.2.ctx.retranslate else x.2.ctx, sv := { x.2.sv with tlb := [] } }))
    strands := s.strands.map (fun st =>
      if st.pasture == p then (if s.loses p st then st.again else st).retranslate else st)
    code := s.code.filter (fun c => !(c.asp == p && (n = 0 || (c.base < a + n && a < c.base + 2 ^ c.bits)))) }
/-- The pages, by local address and size, of the entries that a shootdown drops. -/
def State.droppedPages (s : State) (p a n : Nat) : List (Nat × Nat) :=
  ((((s.tiles.flatMap (fun x => x.2.tlb)) ++ s.ctls.flatMap (fun x => x.2.sv.tlb)).filter (fun e => e.hit p a n)).map
    (fun e => (localOf e.pa, 2 ^ e.bits))).eraseDups
/-- A range shares a byte with one of the pages. -/
def inPages (l : List (Nat × Nat)) (a n : Nat) : Bool := l.any (fun r => a < r.1 + r.2 && r.1 < a + n)
/-- The memory that a posted operation accesses at its home, and the counter that it completes. -/
def Post.range : Post → Option (Nat × Nat)
  | .store pa n _ _ => some (pa, n)
  | .amo _ pa n _ _ => some (pa, n)
  | .amoz pa _ _ => some (pa, 16)
  | .discard pa n _ => some (pa, n)
  | .joinDec pa _ => some (pa, 8)
  | .count pa _ => some (localOf pa, 8)
  | .msg m | .event m => m.ctr.map (fun pa => (localOf pa, 8))
  | _ => none
/-- A packet that accesses one of the pages. -/
def Packet.touches (k : Packet) (l : List (Nat × Nat)) : Bool :=
  match k.body with
  | .post o => o.range.any (fun r => inPages l r.1 r.2)
  | .fetch _ _ pa r => inPages l pa r.bytes
  | _ => false
/-- A command that holds an address in one of the pages: its counter, a bank command's range, a pop's buffer. -/
def Cmd.touches (c : Cmd) (l : List (Nat × Nat)) : Bool :=
  c.ctr.any (fun pa => inPages l (localOf pa) 8) || (c.eng == .bank && inPages l c.lo (c.hi - c.lo))
    || (c.isPop && inPages l c.lo 32)
/-- An access of a pasture that was translated, before number n was given out, with an entry of a page that has been dropped, is
not performed yet (R179). -/
def State.oldAccess (s : State) (p n : Nat) (l : List (Nat × Nat)) : Bool :=
  (s.mesh ++ s.unacked ++ s.waiting ++ s.dropped ++ s.resend).any (fun k => k.pasture == p && k.id < n && k.touches l)
    || s.cmds.any (fun c => c.pasture == p && (c.id < n || c.eng == .message) && c.touches l)
    || s.tiles.any (fun x => s.pasOfTile x.1 == some p && x.2.long.any (fun u => u.2.q.any (fun e =>
        (e.item :: e.body).any (fun i => i.pas.any (fun pa => inPages l (localOf pa) 8)))))

/-! ### Running again (R425) -/

/-- STOPPED to RUNNING: detection goes on where it was frozen, and what befell a strand while it was stopped takes effect. -/
def State.setRunning (s : State) (p : Nat) : State :=
  let s := s.updPas p (fun q => { q with st := .running, winStart := q.winStart + (s.now - q.stopAt) })
  (s.herd p).foldl (fun s st => s.resumed st.sid) s

/-! ### Drain, reset, end (R426, R427) -/

/-- A packet of a pasture; a controller's own are not. -/
def Packet.ofPasture (k : Packet) (p : Nat) : Bool := k.pasture == p && (match k.party with | .ctl _ _ => false | _ => true)
/-- What DRAIN discards on a tile. -/
def Tile.drained (x : Tile) : Tile :=
  { x with
    walks := [], walkRuns := [], unitWalks := [], fbuf := [], leftAt := [], departing := [], arrivals := [], readyQ := [], fe := [], resv := [], resvQ := [], long := [], streams := []
    sel := [], selWait := [], recvs := [], overflow := [], handlers := [], ovfRefused := false, hqRefused := false
    flock := { x.flock with recs := [], given := [], inflight := [] } }
/-- A posted store of a vector that has been performed in part is performed whole (R98). -/
def State.finishStore (s : State) (k : Packet) : State :=
  match k.body with
  | .post (.store pa n v _) =>
    if k.log = [] then s
    else (List.range (n / 8)).foldl (fun s i =>
      if (tfind k.log i).isSome then s else s.st (pa + 8 * i) 8 (elem v.toNat 64 i)) s
  | _ => s
/-- DRAIN (R426): the pasture's strands, slices, commands and packets are gone, and every class is closed. Posted operations that
are not delivered are discarded as a whole (R98). Of a group only its phase goes: HOME is a setting. -/
def State.drain (s : State) (p : Nat) : State :=
  let keep (l : List Packet) : List Packet := l.filter (fun k => !k.ofPasture p)
  let s := (s.mesh.filter (·.ofPasture p)).foldl State.finishStore s
  let s := { s with
    strands := s.strands.filter (·.pasture != p), cmds := s.cmds.filter (·.pasture != p), mesh := keep s.mesh
    unacked := keep s.unacked, dropped := keep s.dropped, resend := keep s.resend, waiting := keep s.waiting
    ends := s.ends.filter (·.pasture != p) }
  let s := (s.pasTiles p).foldl (fun s t => s.updTl t Tile.drained) s
  s.updPas p (fun q => { q with
    st := .drained, opened := 0, pool := 0, classQ := [], overflow := []
    groups := q.groups.filterMap (fun g => if g.2.home.isSome then some (g.1, { home := g.2.home }) else none) })
/-- What RESET leaves of a tile: identity numbers, time and the settings of control space. -/
def Tile.cleared (x : Tile) : Tile :=
  { x.drained with
    ctrs := [], tlb := [], latch := [], images := [], sc := [], scRegion := 0, scSlot := 0, scThresh := 0, flock := {}
    sent := [0, 0, 0], rcvd := [0, 0, 0] }
/-- Whether RESET keeps a byte: outside the pasture's memory, in a table that some root reaches, or in a page with S = 1. -/
def State.resetKeeps (s : State) (p : Nat) (spared : List (Nat × Nat)) (a : Nat) : Bool :=
  !((isDram a || isSpad a) && (s.pas p).pcb.holds (paddockOf (tileOf a))) || spared.any (fun r => r.1 ≤ a && a < r.1 + r.2)
/-- The ranges that RESET spares. -/
def State.spared (s : State) (p : Nat) : List (Nat × Nat) :=
  (s.tables p).map (fun t => (t, 4096))
    ++ ((s.leaves p).filter (fun l => nfield l.2.2 6 1 == 1 && s.ownLeaf l.2.2)).map (fun l => (leafBase l.2.2, 2 ^ l.2.1))
/-- The pasture's memory is written 0 and FULL. -/
def State.zeroFill (s : State) (p : Nat) : State :=
  let keep := s.resetKeeps p (s.spared p)
  { s with
    mem := s.mem.filter (fun c => keep c.1), empties := s.empties.filter (fun w => keep (8 * w))
    bad := s.bad.filter (fun w => keep (8 * w)), corr := s.corr.filter (fun w => keep (8 * w))
    undo := s.undo.filter (fun u => keep (8 * u.word)) }
/-- RESET (R427): memory, counters, images, step caches, the Flock and the latches; RUNNING with every class closed, and
PASTURE_RESET. -/
def State.resetPas (s : State) (p : Nat) : State :=
  let s := s.zeroFill p
  let s := (s.pasTiles p).foldl (fun s t => s.updTl t Tile.cleared) s
  let s := { s with areas := tset s.areas p { tget s.areas p {} with hostwake := 0 } }
  let s := (s.shootdown p 0 0).updPas p (fun q => { q with
    st := .running, setstat := [], sample := none, doneLatch := false, lastDone := 0, credit := q.pcb.weight
    winStart := s.now, fires := 0, bundles := 0, flits := 0, domain := none, peers := [] })
  s.post p (corner (s.pas p).pcb.rootp) 0x24 noCls noWhere 0 0
/-- DESTROY (R427): the paddocks are free and the seal key is erased. -/
def State.destroy (s : State) (p : Nat) : State :=
  { (s.shootdown p 0 0) with pastures := tdel s.pastures p }

end Sys2Proof.Machine
end

