-- ==== Sys2Proof/Machine/Retire.lean ====
section
/-! DEFINITION. Retirement (R438): the line, the replacements, the moved pages and what moves with them; and the loss of a tile
(R439, R386). -/

namespace Sys2Proof.Machine

open Sys2Proof

/-! ### Mapped pages -/

/-- A mapped page: its local address and its bits. -/
abbrev MPage := Nat × Nat
/-- The pages that some replica maps on a tile, lost ones apart; each once. -/
def State.pagesOn (s : State) (leaves : List (Nat × Nat × Nat)) (t : Nat) : List MPage :=
  ((leaves.filter (fun l => tileOf (leafBase l.2.2) == t && nfield l.2.2 7 1 == 0
    && s.homeOf (nfield l.2.2 12 44 * 4096) == .tile t)).map (fun l => (leafBase l.2.2, l.2.1))).eraseDups
/-- Two ranges share a byte. -/
def overlaps (a n b m : Nat) : Bool := a < b + m && b < a + n
/-- What a tile's memory holds that no page may take: mapped pages, tables, the spill region and the fold region. -/
def State.takenOn (s : State) (p : Nat) (leaves : List (Nat × Nat × Nat)) (tables : List Nat) (t : Nat) : List (Nat × Nat) :=
  let x := s.tl t
  ((leaves.filter (fun l => s.ownLeaf l.2.2)).map (fun l => (leafBase l.2.2, 2 ^ l.2.1))) ++ tables.map (fun a => (a, 4096))
    ++ [(localOf x.spillbase.toNat, 4096 * x.spillblk.getD (s.pas p).pcb.spillblk),
        (localOf x.foldbase.toNat, 256 * (s.pas p).pcb.foldq)]
/-- The free places on a tile for a page of some bits, in the page's region. -/
def freePlaces (taken : List (Nat × Nat)) (t : Nat) (pg : MPage) : List Nat :=
  let size := if isSpad pg.1 then 2 ^ 21 else 2 ^ 29
  let base := (if isSpad pg.1 then 2 ^ 42 else 0) + t * 2 ^ 29
  ((List.range (size / 2 ^ pg.2)).map (fun i => base + i * 2 ^ pg.2)).filter (fun a =>
    !taken.any (fun r => overlaps a (2 ^ pg.2) r.1 r.2))
/-- Where the pages of a tile go on another, larger pages first: which free place a page takes is a free value (log 15). None
where they do not fit. -/
def fitPages (free : Nat) (t : Nat) : List (Nat × Nat) → List MPage → Option (List (MPage × Nat))
  | _, [] => some []
  | taken, pg :: r =>
    let l := freePlaces taken t pg
    match l[(Config.unstated free).toNat % max 1 l.length]? with
    | none => none
    | some a => (fitPages (free + 1) t ((a, 2 ^ pg.2) :: taken) r).map (fun m => (pg, a) :: m)

/-! ### The line and its replacements (R438, steps 2 and 3) -/

/-- The tiles of a logical row or column. -/
def Pasture.line (q : Pasture) (row : Bool) (i : Nat) : List Nat :=
  if row then (List.range q.cols).filterMap (fun c => q.binding i c) else (List.range q.rows).filterMap (fun r => q.binding r i)
/-- A retirement: each tile of the line with its replacement and the places of its pages. -/
abbrev Plan := List (Nat × Nat × List (MPage × Nat))
/-- The replacement of one tile: of its paddock, in the grid and off the line, working, not yet a replacement, with room for its
pages; the nearest. -/
def State.replaceOne (s : State) (p : Nat) (leaves : List (Nat × Nat × Nat)) (tables line used : List Nat) (free t : Nat) :
    Option (Nat × List (MPage × Nat)) :=
  let q := s.pas p
  let pages := (s.pagesOn leaves t).foldl (fun l x => insertBy (fun (a b : MPage) => b.2 < a.2) x l) []
  let ok := (paddockTiles (paddockOf t)).filterMap (fun r =>
    if line.contains r || used.contains r || (s.tl r).failed || (q.logical r).isNone then none
    else (fitPages free r (s.takenOn p leaves tables r) pages).map (fun m => (r, m)))
  least (fun (a b : Nat × List (MPage × Nat)) => tileDist t a.1 < tileDist t b.1) ok
/-- The replacements of a line, in order; none where a tile has no replacement. -/
def State.planLine (s : State) (p : Nat) (leaves : List (Nat × Nat × Nat)) (tables line : List Nat) :
    List Nat → Nat → List Nat → Option Plan
  | _, _, [] => some []
  | used, free, t :: r =>
    match s.replaceOne p leaves tables line used free t with
    | none => none
    | some (u, m) => (s.planLine p leaves tables line (u :: used) (free + m.length) r).map (fun l => (t, u, m) :: l)

/-! ### Moving (R438, step 4) -/

/-- Where a byte goes. -/
def Plan.place (pl : Plan) (a : Nat) : Nat :=
  match (pl.flatMap (fun x => x.2.2)).find? (fun m => m.1.1 ≤ a && a < m.1.1 + 2 ^ m.1.2) with
  | some m => m.2 + (a - m.1.1)
  | none => a
/-- A domain physical address, moved, if it is one of device dev. -/
def Plan.movePa (pl : Plan) (dev pa : Nat) : Nat :=
  if nfield pa 45 11 = dev then pa / 2 ^ 45 * 2 ^ 45 + pl.place (localOf pa) else pa
/-- The tile that a tile's work moves to. -/
def Plan.tile (pl : Plan) (t : Nat) : Nat := match pl.find? (·.1 == t) with | some x => x.2.1 | none => t
/-- Copies the pages with data and full/empty state. -/
def State.copyPages (s : State) (pl : Plan) : State :=
  let moved := s.mem.filter (fun c => pl.place c.1 != c.1)
  let dest (w : Nat) : Nat := pl.place (8 * w) / 8
  let places := (pl.flatMap (fun x => x.2.2)).map (fun m => (m.2, 2 ^ m.1.2))
  let inside (a : Nat) : Bool := places.any (fun r => r.1 ≤ a && a < r.1 + r.2)
  let move (l : List Nat) : List Nat :=
    (l.filter (fun w => dest w != w)).foldl (fun l w => ninsert l (dest w)) (l.filter (fun w => !inside (8 * w)))
  { s with
    mem := moved.foldl (fun m c => memSet m (pl.place c.1) c.2) (s.mem.filter (fun c => !inside c.1))
    empties := move s.empties, bad := move s.bad, corr := move s.corr
    undo := s.undo.filter (fun u => !inside (8 * u.word)) }
/-- Rewrites the leaves of the moved pages in every replica. -/
def State.moveLeaves (s : State) (pl : Plan) (leaves : List (Nat × Nat × Nat)) : State :=
  leaves.foldl (fun s l =>
    let page := nfield l.2.2 12 44 * 4096
    let dst := pl.movePa s.devnum.toNat page
    if dst = page then s else s.poke l.1 (leBytes 8 (l.2.2 - page + dst))) s
/-- A wait with its physical addresses moved; a wait for a walk ends, and its bundle issues again. -/
def Plan.moveWait (pl : Plan) (dev : Nat) : Wait → Option Wait
  | .walk _ => none
  | .fetch a pa r => some (.fetch a (pl.movePa dev pa) r)
  | .reply a pa r => some (.reply a (pl.movePa dev pa) r)
  | .fullEmpty pa => some (.fullEmpty (pl.place pa))
  | .resv pa => some (.resv (pl.place pa))
  | .counter pa z t => some (.counter (pl.place pa) z t)
  | .poll a pa z t => some (.poll a (pl.movePa dev pa) z t)
  | .mwait pa d => some (.mwait (pl.place pa) d)
  | .handlerRoom a pa b => some (.handlerRoom a (pl.place pa) b)
  | .depart t => some (.depart (pl.tile t))
  | w => some w
/-- A posted operation with its addresses moved. -/
def Plan.movePost (pl : Plan) (dev : Nat) : Post → Post
  | .store pa n v a => .store (pl.place pa) n v a
  | .amo op pa n b a => .amo op (pl.place pa) n b a
  | .amoz pa b a => .amoz (pl.place pa) b a
  | .discard pa n a => .discard (pl.place pa) n a
  | .joinDec pa a => .joinDec (pl.place pa) a
  | .count pa e => .count (pl.movePa dev pa) e
  | .msg m => .msg { m with ctr := m.ctr.map (pl.movePa dev) }
  | .event m => .event { m with ctr := m.ctr.map (pl.movePa dev) }
  | o => o
/-- A packet under way to a tile of this device, with its addresses moved: the tile that forwards it translates it again (R185). -/
def Plan.movePacket (pl : Plan) (dev : Nat) (k : Packet) : Packet :=
  if 16384 ≤ k.dst then k
  else { k with body := match k.body with
    | .post o => .post (pl.movePost dev o)
    | .fetch sid a key r => .fetch sid a (pl.place key) r
    | .stealAnswer n g r => .stealAnswer n (pl.tile g) r
    | .register n g r => .register n (pl.tile g) r
    | b => b }
/-- A strand moves: into a free slot of the same kind, or the fold, or the arrival queue. The spec does not say where a handler
goes that finds no free handler slot: the model puts it into the fold, from which it may bind to any slot (log 69). -/
def State.moveStrand (s : State) (pl : Plan) (st : Strand) : State :=
  let wait := st.wait.bind (pl.moveWait s.devnum.toNat)
  let st' := { st with wait := wait, slice := { st.slice with home := pl.tile st.slice.home } }
  let t := pl.tile st.tile
  let fold (s : State) (st : Strand) : State :=
    let (st, s) := s.intoFold st t
    s.onStrand st.sid (fun _ => st)
  match st.place with
  | .slot _ _ n =>
    if t = st.tile then s.onStrand st.sid (fun _ => st')
    else if 14 ≤ n then
      match (List.range 8).find? (fun i => !s.slotBusy t (i / 2) (14 + i % 2)) with
      | some i => s.onStrand st.sid (fun _ => { st' with place := .slot t (i / 2) (14 + i % 2) })
      | none => fold s st'
    else
      let s : State := s.dropFollowers st.sid
      (match s.freeSlot t with | some (c, m) => s.putInSlot st'.leave t c m | none => fold s st'.leave)
  | .fold _ => if t = st.tile then s.onStrand st.sid (fun _ => st') else fold s st'
  | .arrival _ => s.onStrand st.sid (fun _ => { st' with place := .arrival t })
  | _ => s.onStrand st.sid (fun _ => st')
/-- The records of a tile's unit go to its replacement's one by one, in their order, while that has room; the others stay (log 74).
None counts as pushed again. -/
def State.moveRecs (s : State) (t u : Nat) : State :=
  (s.flk t).recs.foldl (fun s r =>
    if s.flockFull u then s
    else (s.updFlk t (fun x => { x with recs := ldel (·.order == r.order) x.recs })).settle u (some r)) s
/-- A tile's queues, lists and records join those of its replacement, each in its order. -/
def State.moveQueues (s : State) (pl : Plan) (t u : Nat) : State :=
  let x := s.tl t
  let fe := x.fe.map (fun w => { w with pa := pl.place w.pa })
  let resv := x.resv.map (fun e => { e with pa := pl.place e.pa })
  let resvQ := x.resvQ.map (fun e => (e.1, pl.place e.2.1, e.2.2))
  let recvs := x.recvs.map (fun r => { r with pa := pl.place r.pa })
  let ready := x.readyQ.map (fun l => { l with home := u })
  let s : State := s.updTl t (fun x => { x with
    fe := [], resv := [], resvQ := [], recvs := [], readyQ := [], arrivals := [], overflow := [], handlers := [], walks := []
    walkRuns := [], unitWalks := [], fbuf := [], selWait := [], flock := { x.flock with given := [], inflight := [] } })
  let s : State := s.updTl u (fun y => { y with
    fe := y.fe ++ fe, resv := y.resv ++ resv, resvQ := y.resvQ ++ resvQ, recvs := y.recvs ++ recvs, readyQ := y.readyQ ++ ready
    arrivals := y.arrivals ++ x.arrivals, overflow := y.overflow ++ x.overflow, handlers := y.handlers ++ x.handlers
    flock := { y.flock with
      given := y.flock.given ++ x.flock.given, inflight := y.flock.inflight ++ x.flock.inflight } })
  s.moveRecs t u
/-- A command, with the addresses it holds: a bank command's range, the buffer of a pop. A select command stays with the context that
it names, which does not move (R348). -/
def Plan.moveCmd (pl : Plan) (dev : Nat) (c : Cmd) : Cmd :=
  let at_ (t : Nat) : Nat := if c.eng == .select then t else pl.tile t
  let lo := if c.eng == .bank || c.isPop then pl.place c.lo else c.lo
  { c with tile := at_ c.tile, exTile := at_ c.exTile, ctr := c.ctr.map (pl.movePa dev)
           num := if c.eng == .flock then pl.tile c.num else c.num
           lo := lo, hi := if c.eng == .bank then lo + (c.hi - c.lo) else c.hi }
/-- Everything of the line moves to its replacements. A strand with vector state is killed, with STRAND_KILLED. -/
def State.moveLine (s : State) (p : Nat) (pl : Plan) (leaves : List (Nat × Nat × Nat)) : State :=
  let line := pl.map (·.1)
  let s : State := (s.herd p).foldl (fun s st =>
    if line.contains st.tile && (st.vlive || st.lmode) then
      (s.kill st true).post p st.tile 0x2D st.evClass st.tile st.sid st.pcByte else s) s
  let s : State := (s.moveLeaves pl leaves).copyPages pl
  let s : State := pl.foldl (fun s x => s.moveQueues pl x.1 x.2.1) s
  let dev := s.devnum.toNat
  let carry (l : List Packet) : List Packet := l.map (fun k => if k.pasture == p then pl.movePacket dev k else k)
  let s : State := { s with
    cmds := s.cmds.map (fun (c : Cmd) => if c.pasture == p then pl.moveCmd dev c else c)
    mesh := carry s.mesh, unacked := carry s.unacked, dropped := carry s.dropped, resend := carry s.resend
    waiting := carry s.waiting, hostQ := s.hostQ.map (fun (w : HostWrite) => { w with key := pl.place w.key })
    tiles := s.tiles.map (fun (e : Nat × Tile) => (e.1, { e.2 with
      streams := e.2.streams.map (fun (m : Nat × Stream) => (m.1, { m.2 with buf := m.2.buf.map (pl.movePa dev) }))
      long := e.2.long.map (fun (u : Nat × LongUnit) => (u.1, { u.2 with
        q := u.2.q.map (fun e => { e with item := { e.item with pas := e.item.pas.map (pl.movePa dev) } }) })) })) }
  let s : State := (s.herd p).foldl (fun s st => s.moveStrand pl st) s
  s.updPas p (fun q => { q with
    classQ := q.classQ.map (fun l => { l with home := pl.tile l.home })
    overflow := q.overflow.map (fun l => { l with home := pl.tile l.home }) })

/-! ### The grid (R438, steps 5 and 6) -/

/-- The remap table after a line is lost: later coordinates shift down by one, and a logical tile whose binding changed has its
generation raised. -/
def Pasture.cutLine (q : Pasture) (row : Bool) (i : Nat) : Pasture :=
  let rows := if row then q.rows - 1 else q.rows
  let cols := if row then q.cols else q.cols - 1
  let old (r c : Nat) : Option Nat :=
    if row then q.binding (if r < i then r else r + 1) c else q.binding r (if c < i then c else c + 1)
  let all := (List.range rows).flatMap (fun r => (List.range cols).map (fun c => (r, c)))
  { q with
    rows := rows, cols := cols
    remap := all.foldl (fun m x => match old x.1 x.2 with | some t => tset m (x.1 * 65536 + x.2) t | none => m) []
    regen := all.foldl (fun m x =>
      if old x.1 x.2 == q.binding x.1 x.2 then m
      else tset m (x.1 * 65536 + x.2) (tget q.regen (x.1 * 65536 + x.2) 0 + 1)) q.regen }
/-- The forwarding entries with those of a line (R185): earlier ones that led to it lead on. -/
def Plan.forwards (pl : Plan) (fwd : Tbl Nat) : Tbl Nat :=
  pl.foldl (fun f x => tset f x.1 x.2.1) (fwd.map (fun (e : Nat × Nat) => (e.1, pl.tile e.2)))

/-! ### SHRINK (R438) -/

/-- The line falls quiet: no engine command runs on its tiles, and no posted operation to them is unacknowledged. -/
def State.lineQuiet (s : State) (line : List Nat) : Bool :=
  s.cmds.all (fun c => !(line.contains c.tile || line.contains c.exTile) || c.st == .queued || c.st == .parked)
    && s.unacked.all (fun k => !line.contains k.dst)
/-- The end of a SHRINK: the pasture is in the state it was in. -/
def State.afterShrink (s : State) (p : Nat) (was : Bool) (code : Nat) (val : Word) : State :=
  let s : State := s.post p (corner (s.pas p).pcb.rootp) code noCls noWhere 0 val
  if was && (s.pas p).st == .stopped then s.setRunning p else s
/-- SHRINK on a stopped pasture whose line is quiet, up to step 6; none where some tile has no replacement. -/
def State.shrinkLine (s : State) (p : Nat) (row : Bool) (i : Nat) : Option State :=
  let q := s.pas p
  let line := q.line row i
  let leaves := s.leaves p
  let plan := (s.planLine p leaves (s.tables p) line (q.fwd.map (·.2)) s.free line).filter (fun pl =>
    (pl.forwards q.fwd).length ≤ 256)
  plan.map (fun pl =>
    let s : State := { s with free := s.free + (pl.flatMap (fun x => x.2.2)).length }
    (s.moveLine p pl leaves).updPas p (fun q => { (q.cutLine row i) with
      fwd := pl.forwards q.fwd, retired := q.retired ++ pl.map (·.1) }))

/-! ### The loss of a tile (R439, R386) -/

/-- Each leaf that maps a page of the tile is marked lost. -/
def State.markLost (s : State) (leaves : List (Nat × Nat × Nat)) (t : Nat) : State :=
  leaves.foldl (fun s l =>
    if s.homeOf (nfield l.2.2 12 44 * 4096) == .tile t && nfield l.2.2 7 1 = 0 then s.poke l.1 (leBytes 8 (l.2.2 + 128)) else s) s
/-- A packet that a tile's retransmit buffer holds: one of a strand, a command or a unit of the tile. -/
def Packet.heldBy (k : Packet) (t : Nat) : Bool :=
  k.src == t && (match k.party with | .ctl _ _ => false | _ => true) && (match k.body with | .slice _ => false | _ => true)
/-- A pop looks for a record again. -/
def State.retryPop (s : State) (n : Nat) : State :=
  s.updCmd n (fun c => if c.st == .asking then { c with st := .held, asked := [] } else c)
/-- The reply of a pinned read is lost with the tile that was to send it (R193). -/
def State.loseReply (s : State) (k : Packet) (sid addr : Word) (r : Req) : State :=
  match k.party, r with
  | .ctl p n, _ => s.asCtl p n (fun s => s.takeReply r 0 (some cHomeLost) addr)
  | .walk t n, _ => s.updTl t (fun x => { x with walkRuns := x.walkRuns.map (fun w => w.fill n k.key (.fault cHomeLost)) })
  | .cmd n, _ => s.fillLog n k.key (.fault cHomeLost)
  | _, .wload core _ => s.takeLong k.dst core (2 ^ 32 - 1) 0
  | _, _ => s.asStrand sid (fun s => s.takeReply r 0 (some cHomeLost) addr)
/-- The answer of a failed tile to posted operation n is lost. A push is over, its record lost with the unit (R386); a message's sender
finds the tile's generation stale (R439); a command that the tile had accepted ends with its others; any other operation has failed
(R193). -/
def State.loseAnswer (s : State) (n : Nat) (accepted : Bool) : State :=
  match s.unacked.find? (·.id == n) with
  | none => s
  | some e =>
    let s := s.freeEntry n
    match e.body with
    | .post (.push c _) => (s.cmd c).elim s (fun c => s.finishCmd c none)
    | .post (.event m) => s.msgDone e m none
    | .post (.insp sid _ _ _ _) => s.onStrand sid Strand.inspected
    | .post (.bank _) => s
    | .post (.mxsend _ _) => if accepted then s else s.staleReport e
    | .post (.msg _) | .post (.wake ..) | .post (.haltt ..) => s.staleReport e
    | .post o => s.recordFail e.party e.key cHomeLost o.addr
    | _ => s
/-- The tile of a pasture that makes the join decrements of the strands that die with tile t: the first that works (log 50). -/
def State.standIn (s : State) (p t : Nat) : Nat := ((s.pasTiles p).find? (fun u => u != t && !(s.tl u).failed)).getD t
/-- A packet that the mesh dropped, and that its failed source can send no more: what awaits it ends as if the home had been lost
(R185, R193, R386; log 75). -/
def State.loseFlight (s : State) (k : Packet) : State :=
  match k.body with
  | .ack n => s.loseAnswer n true
  | .stale n | .msgRefused n => s.loseAnswer n false
  | .nack n c a => s.failedBack k n c a
  | .data sid r _ _ addr => s.loseReply k sid addr r
  | .contextAck sid => s.endDeparture k.dst sid
  | .contextRefused sid _ => s.resumeAtSource k.dst sid
  | .context sid _ => (s.strandOf sid).elim s (fun st => s.kill st false (s.standIn k.pasture k.src))
  | .image sid _ _ => s.onStrand sid Strand.inspected
  | .stealAnswer n _ r =>
    (match s.cmd n, r with
     | some c, some _ => s.dropEntry c.pasture c.sid
     | _, _ => s).retryPop n
  | .report n => { s with cmds := ldel (·.id == n) s.cmds }.settleEnds
  | _ => s
/-- The pushes of a tile that have not been performed: held there, or their packets are lost with it. -/
def State.lostPushes (s : State) (t : Nat) : List Cmd :=
  s.cmds.filter (fun c => c.tile == t && c.isPush && (c.st == .held || (c.st == .sent && s.unacked.any (fun k =>
    k.party == .cmd c.id && seqGet s.seqExp k.party k.dst ≤ k.seq))))
/-- The records and entries of a lost unit, and the records that its tile had pushed and not delivered, are counted as popped and
done (R386); a pop elsewhere that it was giving a record to looks for another. -/
def State.loseFlock (s : State) (p t : Nat) : State :=
  let u := s.flk t
  let pushes := s.lostPushes t
  let n := u.recs.length + u.given.length + pushes.length
  let m := u.inflight.length
  let s : State := s.purge (fun k => match k.body with
    | .register _ g _ => g == t
    | .post (.push c _) => pushes.any (·.id == c)
    | _ => false)
  let s : State := (s.updFlk t (fun u => { u with
    recs := [], given := [], inflight := [], popped := u.popped + n, finished := u.finished + n + m })).bump t 0xF40 m
  let s : State := { s with cmds := s.cmds.filter (fun (c : Cmd) => !pushes.any (·.id == c.id)) }
  let s : State := (u.given.map (·.1)).foldl State.retryPop s
  if n + m = 0 then s else s.post p t 0x32 noCls t 0 (Config.flockLost n m)
/-- A command that another tile sent to a failed tile completes at its issuer with HOME_LOST, and an event (R289, R328). One that
waited in the bank arrival buffer has a failed acknowledgement (R193); an installed one has been acknowledged, or that is on its way. -/
def State.loseRemote (s : State) (t : Nat) (c : Cmd) : State :=
  let s : State := match (if c.st == .arrived then s.unacked.find? (fun k => k.body == .post (.bank c.id)) else none) with
    | some k => (((s.passSeq { k with dst := t }).recordFail k.party 0 cHomeLost (wd c.lo)).freeEntry k.id)
    | none => s
  let c := { c with exTile := c.tile, log := [], ord := 0 }
  ((s.updCmd c.id (fun _ => c)).finishCmd c (some cHomeLost)).failEvent c.pasture c.tile cHomeLost c.sid (wd c.lo)
/-- The counter of a command whose work is done has been updated, or its update is under way. -/
def State.counted (s : State) (c : Cmd) : Bool :=
  match tfind c.log (10 * 2 ^ 60) with
  | some (.val _) => true
  | some (.out _) => s.mesh.any (fun k => k.party == .cmd c.id && k.key == 10 * 2 ^ 60)
  | _ => false
/-- The commands of a lost tile: its own that no other tile executes are gone, and those of other tiles that it held complete there
with HOME_LOST. -/
def State.loseCmds (s : State) (t : Nat) : State :=
  let gone := (s.dropped ++ s.resend).filter (·.heldBy t)
  let keep (l : List Packet) : List Packet := l.filter (fun k => !k.heldBy t)
  let s : State := gone.foldl State.takeIn
    { s with unacked := keep s.unacked, dropped := keep s.dropped, resend := keep s.resend, waiting := keep s.waiting }
  let s : State := gone.foldl State.loseFlight s
  let s : State := { s with
    cmds := s.cmds.filter (fun (c : Cmd) => !(c.tile == t && (c.exTile == t || c.st == .queued
      || (c.st == .sent && !s.mesh.any (fun k => k.body == .post (.bank c.id) || (match k.body with
          | .post (.mxsend n _) => n == c.id
          | _ => false)))))) }
  (s.cmds.filter (fun (c : Cmd) => c.exTile == t)).foldl (fun s c =>
    match c.st with
    | .arrived | .held | .ran => s.loseRemote t c
    | .ending _ _ _ => if s.counted c then { s with cmds := ldel (·.id == c.id) s.cmds } else s.loseRemote t c
    | .finished _ =>
      if s.mesh.any (fun k => k.body == .report c.id) then s else { s with cmds := ldel (·.id == c.id) s.cmds }
    | _ => s) s
/-- A strand stands on a tile, or travels from it in no packet that the mesh still carries. -/
def State.standsOn (s : State) (st : Strand) (t : Nat) : Bool :=
  let flies := s.mesh.any (fun k => match k.body with | .context sid _ => sid == st.sid | _ => false)
  st.tile == t && !((st.wait == some .away || (match st.place with | .transit _ => true | _ => false)) && flies)
/-- A tile is treated as failed: its strands die, its commands, its packets and its Flock unit are lost, and its pages are marked. A
context that has left it goes on. The slices of its ready queue are lost: their pool entries are free again, and MEMBERS of their groups
and their JOIN counters, of which the spec says nothing here, stay as they are (R233; DESIGN CHOICE, log 82). -/
def State.failTile (s : State) (t : Nat) : State :=
  match s.pasOfTile t with
  | none => s.updTl t (fun x => { x with failed := true })
  | some p =>
    let leaves := s.leaves p
    let lost := (s.pagesOn leaves t).length
    let s : State := (s.markLost leaves t).shootdown p 0 0
    let s : State := (s.herd p).foldl (fun s st => if s.standsOn st t then s.kill st false (s.standIn p t) else s) s
    let s : State := { s with strands := s.strands.map (fun st =>
      if st.wait == some .away && st.tile == t then { st with place := .transit t, wait := none } else st) }
    let waiting := (s.tl t).readyQ.length
    let s : State := (s.loseFlock p t).loseCmds t
    let s : State := (s.updTl t (fun x => { x.drained with flock := x.flock, failed := true })).reapAll p
    let s : State := s.updPas p (fun q =>
      match q.logical t with
      | some (r, c) => { q with
        pool := q.pool - waiting, regen := tset q.regen (r * 65536 + c) (tget q.regen (r * 65536 + c) 0 + 1) }
      | none => { q with pool := q.pool - waiting })
    s.post p t 0x27 noCls t 0 (wd lost)
/-- HEARTBEAT_MISS (R439): tile inp.k misses the controller's heartbeat. -/
def execHeartbeatMiss (s : State) : Out :=
  let t := s.inp.k
  if Config.tiles ≤ t || (s.tl t).failed then .next s else .next (s.failTile t)

end Sys2Proof.Machine
end

