-- ==== Sys2Proof/Machine/Host.lean ====
section
/-! DEFINITION. What stands outside the tiles: the host's two BARs (R9, R441 to R451), features (R442, R443), launches (R444),
attestation (R454), power and heat (R19, R456), bring-up (R453, R455), patrol scrubbing (R437) and a lost Span link (R452).
An event that is a BAR0 write stands for one of a permitted size; a write of another size is discarded (R441). -/

namespace Sys2Proof.Machine

open Sys2Proof

/-! ### Power and heat (R19, R456) -/

/-- POWER_SAMPLE (R19): the draw of paddock inp.k, inp.m watts, is measured. -/
def execPowerSample (s : State) : Out :=
  if Config.paddocks ≤ s.inp.k then .next s
  else .next (s.updPad s.inp.k (fun d =>
    if d.share < s.inp.m then
      if 1 < d.rate then { d with rate := d.rate - 1, caps := d.caps + 1, calm := 0 } else { d with calm := 0 }
    else if s.inp.m + 100 ≤ d.share then { d with calm := d.calm + 1 }
    else { d with calm := 0 }))
/-- POWER_STEP_UP (R19): ten samples in a row of paddock inp.k lay at least 100 W below its share. -/
def execPowerStepUp (s : State) : Out :=
  if Config.paddocks ≤ s.inp.k || (s.pad s.inp.k).calm < 10 then .next s
  else .next (s.updPad s.inp.k (fun d => { d with rate := min 8 (d.rate + 1), calm := 0 }))
/-- POWER_SHARE_WRITE (R19): firmware sets the share of paddock inp.k to inp.m watts. -/
def execPowerShareWrite (s : State) : Out :=
  if Config.paddocks ≤ s.inp.k then .next s else .next (s.setShare s.inp.k (s.inp.m % 2 ^ 32))
/-- THERMAL_STEP_DOWN (R456): paddock inp.k is at 105 °C; the power manager counts every downward step (R19). -/
def execThermalStepDown (s : State) : Out :=
  if Config.paddocks ≤ s.inp.k then .next s
  else .next (s.updPad s.inp.k (fun d => if 1 < d.rate then { d with rate := d.rate - 1, caps := d.caps + 1 } else d))
/-- THERMAL_STEP_UP (R456): paddock inp.k has stayed below 100 °C for 100 µs. -/
def execThermalStepUp (s : State) : Out :=
  if Config.paddocks ≤ s.inp.k then .next s
  else .next (s.updPad s.inp.k (fun d => { d with rate := min 8 (d.rate + 1) }))
/-- THERMAL_STOP (R456): paddock inp.k is at 115 °C. -/
def execThermalStop (s : State) : Out :=
  match s.pasOfPaddock s.inp.k with
  | none => .next s
  | some p =>
    let s := if (s.pas p).st == .running then s.gangStop p else s
    .next (s.post p (corner s.inp.k) 0x2C noCls noWhere 0 (wd s.inp.k))

/-! ### Bring-up (R453, R455) -/

/-- The header of an image: its first 64 bytes (R453; the places of its three fields are not stated, log 73). -/
def imageHeader (b : List Byte) : List Byte := b.take 64
/-- The body: the bytes after the header, as many as it says. -/
def imageBody (b : List Byte) : List Byte := (b.drop 64).take (Config.headerLength (imageHeader b))
/-- The signature: the 64 bytes after the body. -/
def imageSignature (b : List Byte) : List Byte := (b.drop (64 + Config.headerLength (imageHeader b))).take 64
/-- The boot ROM's public key has the fused digest, and with it an ECDSA P-256 signature, r then s, each big-endian, of a digest
verifies (R453). -/
def signedBy (digest sig : List Byte) : Bool :=
  let key := Config.bootKey.toNat
  beNat (sha256 (beBytes 64 key)) == Config.keyDigest.toNat
    && ecdsaVerify (key / 2 ^ 256) (key % 2 ^ 256) (beNat digest) (beNat (sig.take 32)) (beNat (sig.drop 32))
/-- An image is whole, its body fits the controllers' SRAM, and its signature over the SHA-256 digest of header and body verifies. -/
def imageGood (b : List Byte) : Bool :=
  b.length == 128 + Config.headerLength (imageHeader b)
    && Config.headerOffset (imageHeader b) + Config.headerLength (imageHeader b) ≤ 2 ^ 20
    && signedBy (sha256 (imageHeader b ++ imageBody b)) (imageSignature b)
/-- Firmware of a paddock, checked: an image whose signature fails or whose version is below the fused minimum is rejected
(R453). -/
def bootPaddock (b : List Byte) : Paddock :=
  let v := Config.headerVersion (imageHeader b)
  { boot := if imageGood b && Config.minVersion ≤ v then 1 else 2, version := v, image := b }
/-- POWER_ON (R455): steps 1 to 4 of bring-up. inp.images gives each paddock's image, whose body goes to its load offset in the
controllers' SRAM. Host memory is not the device's, and the schedule, the free values and the keys drawn go on (logs 1, 2, 12). -/
def execPowerOn (s : State) : Out :=
  let img (p : Nat) : List Byte := s.inp.images.getD p []
  let mem := (List.range Config.paddocks).foldl (fun m p =>
    if (bootPaddock (img p)).boot = 1 then
      memPut m (sramKey p (Config.headerOffset (imageHeader (img p)))) (imageBody (img p))
    else m)
    (s.mem.filter (fun c => isHost c.1))
  .next { State.reset with
    x := s.x, inp := s.inp, sched := s.sched, cur := s.cur, free := s.free, keys := s.keys, mem := mem
    paddocks := (List.range Config.paddocks).map (fun p => (p, bootPaddock (img p))) }

/-! ### Features (R442, R443) -/

/-- FEATURE_WORD_WRITE (R443): inp.val is written to FEATn, n = inp.l. Only FEAT2 has bits that can be declined (R5, R442). -/
def execFeatureWordWrite (s : State) : Out :=
  if s.committed || s.inp.l != 2 then .next s
  else .next { s with feat2 := s.inp.val.setWidth 32 &&& Config.feat2 }
/-- FEATURE_COMMIT (R443): 1 is written to FEATCTL.COMMIT. -/
def execFeatureCommit (s : State) : Out := .next { s with committed := true, featctl := true }
/-- Whether a feature of FEAT2 is present: offered, and not declined (R442). -/
def State.offers (s : State) (i : Nat) : Bool := !s.committed || s.feat2.getLsbD i
/-- FEATn as the host reads it (R3, R442, R443). -/
def State.featRead (s : State) (n : Nat) : Nat :=
  match n with
  | 0 => Config.feat0.toNat
  | 1 => Config.feat1.toNat
  | 2 => (if s.committed then s.feat2 else Config.feat2).toNat
  | 3 => Config.feat3.toNat
  | _ => 0

/-! ### Attestation (R454) -/

/-- GO is written to ATTCTL, which is ignored without ATTEST (R442); a 1 starts a report. -/
def State.putGo (s : State) (go : Bool) : State :=
  if !s.offers 9 then s
  else if go then { s with attready := false, attbusy := true, attctl := true }
  else { s with attctl := false }
/-- ATTESTATION_START (R454): 1 is written to ATTCTL.GO. -/
def execAttestationStart (s : State) : Out := .next (s.putGo true)
/-- The report before its signature (R454). Its fields have the widths of the registers they come from; a version takes 4 bytes
(log 13). -/
def State.reportBody (s : State) : List Byte :=
  (List.range 4).flatMap (fun i => leBytes 8 (s.nonce.getD i 0).toNat)
    ++ (List.range 4).flatMap (fun n => leBytes 4 (s.featRead n)) ++ leBytes 4 s.devnum.toNat
    ++ (List.range Config.paddocks).flatMap (fun p => leBytes 1 (s.pad p).boot)
    ++ (List.range Config.paddocks).flatMap (fun p => leBytes 4 (s.pad p).version ++ sha256 (s.pad p).image)
/-- ATTESTATION_REPORT_DONE (R454): the report that GO asked for is written, once ATTNONCE has been. -/
def execAttestationReportDone (s : State) : Out :=
  if !s.attbusy || !s.nonced then .next s
  else
    let body := s.reportBody
    let sig := Config.signature (BitVec.ofNat 256 (beNat (sha256 body)))
    .next { s with attrep := body ++ beBytes 64 sig.toNat, attready := true, attbusy := false }

/-! ### Pasture areas (R444, R445) -/

/-- The registers of an area. -/
def State.area (s : State) (p : Nat) : Area := tget s.areas p {}
/-- Changes them. -/
def State.updArea (s : State) (p : Nat) (f : Area → Area) : State := { s with areas := tset s.areas p (f (s.area p)) }
/-- A launch is refused: counted in LREF, with an event that names the class, the set and the reason (R444). -/
def State.refuseLaunch (s : State) (p c n reason : Nat) : State :=
  (s.updArea p (fun a => { a with lref := a.lref + 1 })).post p (corner (s.pas p).pcb.rootp) 0x2A c n 0 (wd reason)
/-- The slice is accepted with its set number; ACC rises (R444, R446). -/
def State.acceptLaunch (s : State) (p c n h : Nat) (bs : List Byte) : State :=
  let q := s.pas p
  let depth := nfield (bfield bs 0x38 2) 3 5
  let (o, s) := s.fresh
  let l := packetSlice bs q.pcb depth (s.pasTime p (corner q.pcb.rootp)) o
  (s.acceptSlice p (packetGroups bs) { l with home := h, set := some n }).updPas p (fun q =>
    let (acc, e) := tget q.setstat (256 * c + n) (0, 0)
    { q with setstat := tset q.setstat (256 * c + n) (acc + 1, e) })
/-- What AFFINITY and JOIN of a packet give as the root paddock's controllers translate them: the tile, unless one of the two fails
(R221); none while a miss waits for its walk (R174). -/
def State.placesOf (s : State) (p : Nat) (bs : List Byte) : Option (Option Nat) × State :=
  let t := corner (s.pas p).pcb.rootp
  let join := wd (bfield bs 0x18 8)
  match s.unitXlate p t (wd (bfield bs 0x10 8)) needNone with
  | (none, s) => (none, s)
  | (some r, s) =>
    match s.affinityOf r with
    | .inr _ => (some none, s)
    | .inl h =>
      if join = 0 then (some (some h), s)
      else match s.unitXlate p t join needRW with
        | (none, s) => (none, s)
        | (some r, s) => (some (match s.joinOf r with | .inl _ => some h | .inr _ => none), s)
/-- The checks of R444 past relaxed ordering, in order; false while the launch waits for a walk of the controllers' (log 80). -/
def State.launchChecked (s : State) (p c n : Nat) (bs : List Byte) : Bool × State :=
  let q := s.pas p
  let ctl := bfield bs 0x38 2
  if !s.hasPas p || !q.isOpen c then (true, s.refuseLaunch p c n 1)
  else if packetBad bs || nfield ctl 0 3 != c || q.pcb.depth < nfield ctl 3 5 then (true, s.refuseLaunch p c n 2)
  else if q.pcb.pool ≤ q.pool then (true, s.refuseLaunch p c n 3)
  else match s.placesOf p bs with
    | (none, s) => (false, s)
    | (some none, s) => (true, s.refuseLaunch p c n 4)
    | (some (some h), s) => (true, s.acceptLaunch p c n h bs)
/-- A firmware launch of class c (R219): it uses DEPTH as written (R217), belongs to no set, is not accepted by a closed class, when
malformed or while the pool is full (R220), and is refused with an event record where AFFINITY or JOIN fails (R221; log 76). While a
miss waits for its walk the schedule names it again (log 80). -/
def State.firmwareLaunch (s : State) (p c : Nat) (bs : List Byte) : State :=
  let q := s.pas p
  let ctl := bfield bs 0x38 2
  if !s.hasPas p || !q.isOpen c || packetBad bs || nfield ctl 0 3 != c || q.pcb.pool ≤ q.pool then s
  else match s.placesOf p bs with
    | (none, s) => s
    | (some none, s) => s.post p (corner q.pcb.rootp) 0x2A c noWhere 0 4
    | (some (some h), s) =>
      let (o, s) := s.fresh
      let l := packetSlice bs q.pcb (nfield ctl 3 5) (s.pasTime p (corner q.pcb.rootp)) o
      s.acceptSlice p (packetGroups bs) { l with home := h }

/-! ### Host writes in order (R103, R287, R444, R451) -/

/-- The event of an uncorrectable error that no strand meets (R214), counted. The address is the domain physical one. -/
def State.errorEvent (s : State) (a : Nat) : State :=
  let t := tileOf a
  let s := s.bump t (0x100 + 8 * 12) 1
  match s.pasOfTile t with
  | some p => s.post p t cMemerr noCls t 0 (wd (s.devnum.toNat * 2 ^ 45 + a))
  | none => s
/-- A host write of one aligned 8-byte part. One of less than a word reads the word: it corrects it (R213), and is not performed where the
word holds an uncorrectable error (R214). -/
def State.hostPart (s : State) (a : Nat) (bs : List Byte) : State :=
  if 8 ≤ bs.length then s.store a bs
  else if s.badAt a bs.length then s.errorEvent a
  else (s.correct a bs.length).store a bs
/-- A host write has to wait behind earlier ones of its port: a part behind those to the same home, and a launch without the
relaxed-ordering attribute, whose slice acquires them, behind all that have not the attribute (R103). -/
def HostWrite.behind (w : HostWrite) (l : List HostWrite) : Bool :=
  l.any (fun e => e.port == w.port && (if w.launch.isSome then !w.ro && !e.ro else e.launch.isNone && tileOf e.key == tileOf w.key))
/-- A host write that arrives, behind those of the list: performed, or listed in its turn. -/
def State.hostPut (s : State) (w : HostWrite) : State :=
  let hold (s : State) : State := { s with hostQ := s.hostQ ++ [w] }
  if w.port = 4 || w.behind s.hostQ then hold s
  else match w.launch with
    | some (p, c, n) => let (done, s) := s.launchChecked p c n w.bytes; if done then s else hold s
    | none => if s.bankHeld w.key w.bytes.length then hold s else s.hostPart w.key w.bytes
/-- The host writes that waited are performed as far as they can be, in order of arrival. -/
def State.drainHost (s : State) : State := s.hostQ.foldl State.hostPut { s with hostQ := [] }
/-- The same with a new one, which is counted if an installed bank command holds it (R291). -/
def State.hostTake (s : State) (w : HostWrite) : State :=
  (if w.launch.isNone && s.bankHeld w.key w.bytes.length then s.bumpHeld w.key else s).hostPut w
/-- LAUNCH (R444): inp.bytes is written to slot inp.m of launch window inp.l of pasture inp.k through port inp.val, with the
relaxed-ordering attribute or without (inp.ro). A write of another size is discarded and counted. With inp.l = 8 + class it is a
launch by firmware (R219). -/
def execLaunch (s : State) : Out :=
  let p := s.inp.k
  let c := s.inp.l
  let n := s.inp.m
  if Config.paddocks ≤ p || 16 ≤ c || 256 ≤ n then .next s
  else if 8 ≤ c then .next (if s.inp.bytes.length = 64 then s.firmwareLaunch p (c - 8) s.inp.bytes else s)
  else if s.inp.bytes.length != 64 then .next (s.updArea p (fun a => { a with lref := a.lref + 1 }))
  else if s.inp.ro && !((s.area p).winopt.getLsbD c && s.offers 8) then
    let first : Bool := (s.area p).roref == 0
    let s := s.updArea p (fun a => { a with roref := a.roref + 1 })
    .next (if first then s.post p (corner (s.pas p).pcb.rootp) 0x29 c noWhere 0 0 else s)
  else .next (s.drainHost.hostTake
    { port := s.inp.val.toNat % 4, ro := s.inp.ro, launch := some (p, c, n), key := 0, bytes := s.inp.bytes })
/-- The held records are written while the queue has room; when none is left, one EVQ_LOST follows if records were lost (R449). -/
def State.writeHeld (s : State) (p : Nat) : Nat → State
  | 0 => s
  | fuel + 1 =>
    let q := s.pas p
    match q.evheld with
    | [] => s
    | r :: l =>
      if q.evqFull then s
      else
        let s := (s.writeRecord p r).updPas p (fun q => { q with evheld := l, lostHeld := q.lostHeld && !l.isEmpty })
        if l.isEmpty && q.evdrop != 0 && !q.lostHeld then
          (s.post p (corner q.pcb.rootp) 0x2B noCls noWhere 0 (zx q.evdrop)).updPas p (fun q => { q with lostHeld := q.evheld != [] })
        else s.writeHeld p fuel
/-- EVQHEAD_WRITE (R445, R449): inp.val is written to EVQHEAD of pasture inp.k; beyond EVQTAIL, or behind its old value, it is
ignored. -/
def execEvqheadWrite (s : State) : Out :=
  let p := s.inp.k
  let q := s.pas p
  let v : BitVec 32 := s.inp.val.setWidth 32
  if !s.hasPas p || (q.evqtail - q.evqhead).toNat < (v - q.evqhead).toNat then .next s
  else .next ((s.updPas p (fun q => { q with evqhead := v })).writeHeld p q.evheld.length)
/-- EVDROP_CLEAR (R445). In the area of a pasture that does not exist EVQHEAD and EVDROP read 0 and take no write: the spec does not say
(log 58). -/
def execEvdropClear (s : State) : Out := .next (s.updPas s.inp.k (fun q => { q with evdrop := 0 }))
/-- ROREF_CLEAR (R445). -/
def execRorefClear (s : State) : Out :=
  if Config.paddocks ≤ s.inp.k then .next s else .next (s.updArea s.inp.k (fun a => { a with roref := 0 }))
/-- LREF_CLEAR (R445). -/
def execLrefClear (s : State) : Out :=
  if Config.paddocks ≤ s.inp.k then .next s else .next (s.updArea s.inp.k (fun a => { a with lref := 0 }))
/-- HOSTWAKE_WRITE (R245, R445): inp.val is written to HOSTWAKE of pasture area inp.k. -/
def execHostwakeWrite (s : State) : Out :=
  if Config.paddocks ≤ s.inp.k then .next s
  else .next (s.updArea s.inp.k (fun a => { a with hostwake := s.inp.val.setWidth 32 }))
/-- REGISTER_WRITE (R9, R233, R435, R441, R445): inp.val is written to a plain register: of the device; word inp.l of ATTNONCE;
of pasture area inp.k; of the control space of tile inp.k, by firmware; HOME of entry inp.l of the group table of pasture inp.k,
by firmware (log 33); or the link time-out in ns, by firmware (R452). -/
def execRegisterWrite (s : State) : Out :=
  let k := s.inp.k
  let v := s.inp.val
  let ctl (off : Nat) : State := if k < Config.tiles then s.putCtlWord 0 (k * 2 ^ 29 + off) v.toNat else s
  .next (match s.inp.reg with
    | .devnum => if s.committed then s else { s with devnum := v.setWidth 11 }
    | .attnonce =>
      if s.inp.l < 4 then
        { s with nonced := true, nonce := ((List.range 4).map (fun i => s.nonce.getD i 0)).set s.inp.l v }
      else s
    | .winopt => if s.offers 8 && k < Config.paddocks then s.updArea k (fun a => { a with winopt := v.setWidth 8 }) else s
    | .spillbase => ctl 0x1600
    | .spillblk => ctl 0x1608
    | .foldbase => ctl 0x1610
    | .groupHome =>
      if s.hasPas k && s.inp.l < 256 && v.toNat < Config.tiles then
        s.updPas k (fun q => q.updGroup s.inp.l (fun g => { g with home := some v.toNat }))
      else s
    | .featctl =>
      let one := wbit v 0
      { s with featctl := one, committed := s.committed || one }
    | .attctl => s.putGo (wbit v 0)
    | .linkTime => if 10000 ≤ v.toNat && v.toNat ≤ 100000000 then { s with linkTime := v.toNat } else s
    | .other => s)

/-! ### Reads of BAR0 (R9, R441, R445) -/

/-- A 32-bit word of a pasture area (R445). -/
def State.areaRead (s : State) (p o : Nat) : Nat :=
  let q := s.pas p
  if o = 0x20000 then q.evqhead.toNat
  else if o = 0x20004 then q.evqtail.toNat
  else if o = 0x20008 then q.evdrop.toNat
  else if o = 0x20010 then (if s.offers 8 then (s.area p).winopt.toNat else 0)
  else if o = 0x20018 then (s.area p).roref.toNat
  else if o = 0x20020 then (s.area p).lref.toNat
  else if o = 0x20028 then (s.area p).hostwake.toNat
  else if 0x21000 ≤ o && o < 0x25000 then
    let e := tget q.setstat ((o - 0x21000) / 8) (0, 0)
    if o % 8 = 0 then e.1.toNat else e.2.toNat
  else 0
/-- A 32-bit word of BAR0; unlisted offsets, and write-only ones, read 0 (R9, R441). -/
def State.bar0Read (s : State) (o : Nat) : Nat :=
  if o < 0x20 then s.featRead (o / 4)
  else if o = 0x20 then (if s.featctl then 1 else 0) + (if s.committed then 2 else 0)
  else if 0x40 ≤ o && o < 0x78 then leNat ((List.range 4).map (fun i => BitVec.ofNat 8 (s.pad (o - 0x40 + i)).boot))
  else if o = 0x100 then s.devnum.toNat
  else if 0x1000 ≤ o && o < 0x2000 then leNat ((List.range 4).map (fun i => Config.idCert (o - 0x1000 + i)))
  else if o = 0x2020 then (if s.attctl then 1 else 0) + (if s.attready then 2 else 0)
  else if 0x3000 ≤ o && o < 0x5000 then bfield s.attrep (o - 0x3000) 4
  else if 0x1000000 ≤ o && o < 0x1000000 + 56 * 0x40000 then
    s.areaRead ((o - 0x1000000) / 0x40000) ((o - 0x1000000) % 0x40000)
  else 0

/-! ### The host window (R450, R451) -/

/-- What a BAR2 offset names: memory, control space of a tile, or nothing that answers (R450). -/
inductive BarSite where
  | memory | control | nothing
  deriving DecidableEq, Repr

/-- The site of a BAR2 offset. -/
def barSite (x : Nat) : BarSite :=
  let region := nfield x 42 3
  if Config.tiles ≤ nfield x 29 13 then .nothing
  else if region = 0 || (region = 1 && nfield x 21 8 = 0) then .memory
  else if region = 2 then .control
  else .nothing
/-- Aligned 8-byte parts of a range: address and length (R451). -/
def wordParts (a n : Nat) : List (Nat × Nat) :=
  (wordsOf a n).map (fun w => (max a (8 * w), min (a + n) (8 * w + 8) - max a (8 * w)))
/-- A part of the host read of n bytes at x. -/
def HostWrite.ofRead (w : HostWrite) (x n : Nat) : Bool := w.port == 4 && w.base == x && w.len == n
/-- A part, at a, of that read, that was performed while others were held. -/
def State.hostPartRead (s : State) (x n a : Nat) : Option (List Byte) :=
  (s.hostQ.find? (fun w => w.ofRead x n && w.key == a && !w.bytes.isEmpty)).map (·.bytes)
/-- The parts l of that read that no bank entry holds are performed, and kept until the others are; an access that has to wait is
counted once (R287, R291). Another read has parts of its own (R102). -/
def State.hostParts (s : State) (x n : Nat) (l : List (Nat × Nat)) : State :=
  l.foldl (fun s p =>
    let known : Bool := s.hostQ.any (fun w => w.ofRead x n && w.key == p.1)
    let keep (s : State) (bs : List Byte) : State :=
      { s with hostQ := s.hostQ.filter (fun w => !(w.ofRead x n && w.key == p.1))
                ++ [{ port := 4, ro := false, launch := none, key := p.1, bytes := bs, base := x, len := n }] }
    if (s.hostPartRead x n p.1).isSome then s
    else if s.bankHeld p.1 p.2 then (if known then s else keep (s.bumpHeld p.1) [])
    else keep (s.correct p.1 p.2) (s.rdBytes p.1 p.2)) s
/-- A BAR2 read of n bytes: its status, its data, the state; none while some part is held. A failed tile's memory is a free value
(log 15). -/
def State.bar2Read (s : State) (x n : Nat) : Option (HostStatus × List Byte) × State :=
  match barSite x with
  | .nothing => (some (.unsupported, []), s)
  | .control =>
    (some (.success, (List.range n).map (fun i => BitVec.ofNat 8 (s.readControl 0 (x + i) 1))), { s with free := s.free + 1 })
  | .memory =>
    if (s.tl (tileOf x)).failed then
      (some (.success, (List.range n).map (fun i => (Config.unstated (s.free + i)).setWidth 8)), { s with free := s.free + n })
    else
      let l := wordParts x n
      let gone (s : State) : State := { s with hostQ := s.hostQ.filter (fun w => !w.ofRead x n) }
      match s.bad.find? (fun w => (wordsOf x n).contains w) with
      | some w => (some (.aborted, []), (gone s).errorEvent (8 * w))
      | none =>
        let s := s.hostParts x n l
        match l.mapM (fun p => s.hostPartRead x n p.1) with
        | some bs => (some (.success, bs.flatten), gone s)
        | none => (none, s)
/-- HOST_READ (R441, R450, R451): the host reads inp.m bytes at BAR2 offset inp.k, or with inp.l = 1 at BAR0 offset inp.k. A
read some of whose words an installed bank command holds goes on when the schedule names it again (R287). -/
def execHostRead (s : State) : Out :=
  let n := s.inp.m
  if s.inp.l = 1 then
    if (n = 4 || n = 8) && s.inp.k % n = 0 then
      .next { s with hostStatus := .success
                     hostRead := (List.range (n / 4)).flatMap (fun i => leBytes 4 (s.bar0Read (s.inp.k + 4 * i))) }
    else .next { s with hostStatus := .unsupported, hostRead := [] }
  else match s.bar2Read (s.inp.k % 2 ^ 45) n with
    | (some (c, bs), s) => .next { s with hostStatus := c, hostRead := bs }
    | (none, s) => .next s
/-- HOST_WRITE (R103, R450, R451): the host writes inp.bytes at BAR2 offset inp.k through port inp.m, with the relaxed-ordering
attribute or without (inp.ro), part by part in rising order, after the writes that waited; with inp.l = 1 it writes its own memory
at bus address inp.k. With no bytes it only lets the writes that waited go on (log 80). -/
def execHostWrite (s : State) : Out :=
  let bs := s.inp.bytes
  if s.inp.l = 1 then .next (s.store (hostKey s.inp.k) bs)
  else
    let x := s.inp.k % 2 ^ 45
    let s := s.drainHost
    match barSite x with
    | .memory =>
      .next ((wordParts x bs.length).foldl (fun s p => s.hostTake
        { port := s.inp.m % 4, ro := s.inp.ro, launch := none, key := p.1, bytes := (bs.drop (p.1 - x)).take p.2 }) s)
    | _ => .next s

/-! ### Memory errors and lost links (R213, R437, R452) -/

/-- An uncorrectable error of a tile's fold, arrival queue or retransmit buffer: it marks nothing, and posts its event (R213,
R214). The spec gives it no address: a free value (log 15). -/
def State.scrubEvent (s : State) (t : Nat) : State :=
  let (v, s) := (s.bump t (0x100 + 96) 1).takeFree
  match s.pasOfTile t with
  | some p => s.post p t cMemerr noCls t 0 v
  | none => s
/-- PATROL_SCRUB (R437, R213): the words of inp.vals, address / 8 times 2, plus 1 where uncorrectable, have come to hold errors
(log 2); then every word of tile inp.k is read, corrected and counted, and an uncorrectable one posts its event (R214). In the
tile's fold, arrival queue and retransmit buffer inp.m errors are corrected, and inp.l cannot be. -/
def execPatrolScrub (s : State) : Out :=
  let bad := (s.inp.vals.filter (fun v => wbit v 0)).map (fun v => v.toNat / 2)
  let corr := (s.inp.vals.filter (fun v => !wbit v 0)).map (fun v => v.toNat / 2)
  let s : State := { s with bad := bad.foldl ninsert s.bad
                            corr := (corr.filter (fun w => !bad.contains w && !s.bad.contains w)).foldl ninsert s.corr }
  let mine (w : Nat) : Bool := s.inp.k < Config.tiles && (isDram (8 * w) || isSpad (8 * w)) && tileOf (8 * w) == s.inp.k
  let s : State := (s.corr.filter mine).foldl (fun s w => s.correct (8 * w) 8) s
  let s : State := (s.bad.filter mine).foldl (fun s w => s.errorEvent (8 * w)) s
  if s.inp.k < Config.tiles then
    .next ((List.range s.inp.l).foldl (fun s _ => s.scrubEvent s.inp.k) (s.bump s.inp.k (0x100 + 88) s.inp.m))
  else .next s
/-- A packet on its way to a device that is lost (R452): a pinned fetch raises HOME_LOST; a steal request is answered with
nothing. -/
def State.losePacket (s : State) (k : Packet) : State :=
  match k.body with
  | .fetch sid addr _ r => s.loseReply k sid addr r
  | .steal c _ => s.reply k.party k.dst k.src k.pasture 1 (.stealAnswer c k.dst none)
  | _ => s
/-- Every operation to a destination fails: posted operations as R193 says, and pinned fetches with HOME_LOST (R452). -/
def State.loseLink (s : State) (d : Nat) : State :=
  let posts := s.unacked.filter (·.dst == d)
  let going := s.flying.filter (·.dst == d)
  let keep (l : List Packet) : List Packet := l.filter (·.dst != d)
  let s : State := { s with mesh := keep s.mesh, dropped := keep s.dropped, resend := keep s.resend, waiting := keep s.waiting }
  let s := posts.foldl (fun s k =>
    match k.body with
    | .post o =>
      (((s.loseCmd k.id).recordFail k.party k.key cHomeLost o.addr).freeEntry k.id).failEvent k.pasture k.src cHomeLost
        (s.partySid k.party) o.addr
    | _ => s) s
  going.foldl State.losePacket s
/-- SPAN_LINK_TIMEOUT (R452): with inp.l = 1 device inp.k can no longer be reached, and with inp.l = 2 it can again; with
inp.l = 0 it has stayed unreachable for the link time-out, and every operation to it fails. -/
def execSpanLinkTimeout (s : State) : Out :=
  let d := s.inp.k
  if 2048 ≤ d || d = s.devnum.toNat then .next s
  else if s.inp.l = 1 then
    .next (if (tfind s.spanDown d).isSome then s else { s with spanDown := tset s.spanDown d s.now })
  else if s.inp.l = 2 then .next { s with spanDown := tdel s.spanDown d }
  else match tfind s.spanDown d with
    | some t => .next (if t + s.linkTime ≤ s.now then s.loseLink (32768 + d) else s)
    | none => .next s

end Sys2Proof.Machine
end

