-- ==== Sys2Proof/Machine/Integer.lean ====
section
/-! DEFINITION. Integer A-slot instructions (R155 to R159) and the long immediates (R168). -/

namespace Sys2Proof.Machine

open Sys2Proof

/-- Number of leading zero bits of the low n bits of a word. -/
def clzN (x : Word) : Nat → Nat
  | 0 => 0
  | n + 1 => if wbit x n then 0 else 1 + clzN x n
/-- Number of trailing zero bits: n bits from the top are still to be looked at. -/
def ctzN (x : Word) : Nat → Nat
  | 0 => 0
  | n + 1 => if wbit x (63 - n) then 0 else 1 + ctzN x n
/-- Number of one bits of the low n bits of a word. -/
def popN (x : Word) : Nat → Nat
  | 0 => 0
  | n + 1 => (if wbit x n then 1 else 0) + popN x n
/-- A shift amount: bits [5:0] (R155). -/
def amount (b : Word) : Nat := b.toNat % 64
/-- Bits [127:64] of a 128-bit product. -/
def mulHigh (a b : BitVec 128) : Word := ((a * b) >>> 64).setWidth 64
/-- Signed quotient, truncated towards zero, with the corners of R156. -/
def divS (a b : Word) : Word := if b = 0 then BitVec.allOnes 64 else BitVec.sdiv a b
/-- Unsigned quotient with the corner of R156. -/
def divU (a b : Word) : Word := if b = 0 then BitVec.allOnes 64 else a / b
/-- Signed remainder, with the sign of the dividend (R156). -/
def remS (a b : Word) : Word := if b = 0 then a else BitVec.srem a b
/-- Unsigned remainder (R156). -/
def remU (a b : Word) : Word := if b = 0 then a else a % b
/-- Bits [pos + len - 1 : pos] of a word, with l = len - 1 (R157). -/
def bitExtract (a : Word) (l p : BitVec 6) : Word := wd (nfield a.toNat p.toNat (l.toNat + 1))
/-- A word with bits [pos + len - 1 : pos] replaced (R157). -/
def bitInsert (old a : Word) (l p : BitVec 6) : Word := setField old p.toNat (l.toNat + 1) a.toNat

/-- ADD (R155): a + b. -/
def execAdd (d a b : RegNo) (s : State) : Out := intOp d (s.g a + s.g b) s
/-- SUB (R155): a - b. -/
def execSub (d a b : RegNo) (s : State) : Out := intOp d (s.g a - s.g b) s
/-- AND (R155). -/
def execAnd (d a b : RegNo) (s : State) : Out := intOp d (s.g a &&& s.g b) s
/-- OR (R155). -/
def execOr (d a b : RegNo) (s : State) : Out := intOp d (s.g a ||| s.g b) s
/-- XOR (R155). -/
def execXor (d a b : RegNo) (s : State) : Out := intOp d (s.g a ^^^ s.g b) s
/-- ANDN (R155): a AND NOT b. -/
def execAndn (d a b : RegNo) (s : State) : Out := intOp d (s.g a &&& ~~~ s.g b) s
/-- SHL (R155). -/
def execShl (d a b : RegNo) (s : State) : Out := intOp d (s.g a <<< amount (s.g b)) s
/-- SHR (R155): zero fill. -/
def execShr (d a b : RegNo) (s : State) : Out := intOp d (s.g a >>> amount (s.g b)) s
/-- SRA (R155): filled with the sign. -/
def execSra (d a b : RegNo) (s : State) : Out := intOp d (BitVec.sshiftRight (s.g a) (amount (s.g b))) s
/-- ROT (R155): rotated left. -/
def execRot (d a b : RegNo) (s : State) : Out := intOp d ((s.g a).rotateLeft (amount (s.g b))) s
/-- MUL (R155): low 64 bits. -/
def execMul (d a b : RegNo) (s : State) : Out := intOp d (s.g a * s.g b) s
/-- MULH (R155): high 64 bits of the signed product. -/
def execMulh (d a b : RegNo) (s : State) : Out := intOp d (mulHigh ((s.g a).signExtend 128) ((s.g b).signExtend 128)) s
/-- MULHN (R155): high 64 bits of the unsigned product. -/
def execMulhn (d a b : RegNo) (s : State) : Out := intOp d (mulHigh ((s.g a).setWidth 128) ((s.g b).setWidth 128)) s
/-- MIN (R155): the lesser, signed. -/
def execMin (d a b : RegNo) (s : State) : Out := intOp d (if BitVec.slt (s.g b) (s.g a) then s.g b else s.g a) s
/-- MAX (R155): the greater, signed. -/
def execMax (d a b : RegNo) (s : State) : Out := intOp d (if BitVec.slt (s.g a) (s.g b) then s.g b else s.g a) s
/-- MINN (R155): the lesser, unsigned. -/
def execMinn (d a b : RegNo) (s : State) : Out := intOp d (if BitVec.ult (s.g b) (s.g a) then s.g b else s.g a) s
/-- MAXN (R155): the greater, unsigned. -/
def execMaxn (d a b : RegNo) (s : State) : Out := intOp d (if BitVec.ult (s.g a) (s.g b) then s.g b else s.g a) s
/-- CLZ (R155). -/
def execClz (d a : RegNo) (s : State) : Out := intOp d (wd (clzN (s.g a) 64)) s
/-- CTZ (R155). -/
def execCtz (d a : RegNo) (s : State) : Out := intOp d (wd (ctzN (s.g a) 64)) s
/-- POPC (R155). -/
def execPopc (d a : RegNo) (s : State) : Out := intOp d (wd (popN (s.g a) 64)) s
/-- SLT (R155). -/
def execSlt (d a b : RegNo) (s : State) : Out := intOp d (boolWord (BitVec.slt (s.g a) (s.g b))) s
/-- SLTN (R155). -/
def execSltn (d a b : RegNo) (s : State) : Out := intOp d (boolWord (BitVec.ult (s.g a) (s.g b))) s
/-- SEQ (R155). -/
def execSeq (d a b : RegNo) (s : State) : Out := intOp d (boolWord (s.g a == s.g b)) s
/-- DIV (R156), 8 turns (R144). -/
def execDiv (d a b : RegNo) (s : State) : Out := intOp d (divS (s.g a) (s.g b)) (s.takes 8)
/-- DIVN (R156), 8 turns (R144). -/
def execDivn (d a b : RegNo) (s : State) : Out := intOp d (divU (s.g a) (s.g b)) (s.takes 8)
/-- REM (R156), 8 turns (R144). -/
def execRem (d a b : RegNo) (s : State) : Out := intOp d (remS (s.g a) (s.g b)) (s.takes 8)
/-- REMN (R156), 8 turns (R144). -/
def execRemn (d a b : RegNo) (s : State) : Out := intOp d (remU (s.g a) (s.g b)) (s.takes 8)
/-- BEXT (R157): l is len - 1. -/
def execBext (d a : RegNo) (l p : BitVec 6) (s : State) : Out := intOp d (bitExtract (s.g a) l p) s
/-- BINS (R157): the other bits of g[rd] keep their value. -/
def execBins (d a : RegNo) (l p : BitVec 6) (s : State) : Out := intOp d (bitInsert (s.g d) (s.g a) l p) s
/-- SEL (R158): a if g[gc] is not 0, else b. -/
def execSel (d a b c : RegNo) (s : State) : Out := intOp d (if s.g c != 0 then s.g a else s.g b) s
/-- ADDI (R159). -/
def execAddi (d a : RegNo) (i : BitVec 18) (s : State) : Out := intOp d (s.g a + sx i) s
/-- ANDI (R159). -/
def execAndi (d a : RegNo) (i : BitVec 18) (s : State) : Out := intOp d (s.g a &&& sx i) s
/-- ORI (R159). -/
def execOri (d a : RegNo) (i : BitVec 18) (s : State) : Out := intOp d (s.g a ||| sx i) s
/-- XORI (R159). -/
def execXori (d a : RegNo) (i : BitVec 18) (s : State) : Out := intOp d (s.g a ^^^ sx i) s
/-- SHLI (R159). -/
def execShli (d a : RegNo) (h : BitVec 6) (s : State) : Out := intOp d (s.g a <<< h.toNat) s
/-- SHRI (R159). -/
def execShri (d a : RegNo) (h : BitVec 6) (s : State) : Out := intOp d (s.g a >>> h.toNat) s
/-- SRAI (R159). -/
def execSrai (d a : RegNo) (h : BitVec 6) (s : State) : Out := intOp d (BitVec.sshiftRight (s.g a) h.toNat) s
/-- MOVI (R159). -/
def execMovi (d : RegNo) (i : BitVec 18) (s : State) : Out := intOp d (sx i) s
/-- A-slot NOP (R62): no effect. -/
def execNopA (s : State) : Out := .next s
/-- LIW (R168): a long instruction, so it also advances PC (R173). -/
def execLiw (d : RegNo) (imm : W32) (s : State) : Out := .next (s.wg d (sx imm)).adv
/-- LIH (R168): bits [31:0] keep their value. -/
def execLih (d : RegNo) (imm : W32) (s : State) : Out := .next (s.wg d (setField (s.g d) 32 32 imm.toNat)).adv

end Sys2Proof.Machine
end

