-- ==== Sys2Proof/Machine/StepCache.lean ====
section
/-! DEFINITION. The step cache of a matrix engine (R332 to R345): lookup, the close test, stores, SCSET, SCINV and SCSTAT. -/

namespace Sys2Proof.Machine

open Sys2Proof

/-! ### Entries (R332) -/

/-- An entry. -/
def State.scEntry (s : State) (t i : Nat) : ScEntry := tget (s.tl t).sc i {}
/-- Sets an entry. -/
def State.scPut (s : State) (t i : Nat) (e : ScEntry) : State := s.updTl t (fun x => { x with sc := tset x.sc i e })
/-- The valid entry of a tag. -/
def State.scFind (s : State) (t btag : Nat) : Option Nat :=
  (List.range 64).find? (fun i => (s.scEntry t i).v && (s.scEntry t i).btag == btag)
/-- Invalidates the entry of a tag, if there is one: every field becomes 0. -/
def State.scDrop (s : State) (t btag : Nat) : State := (s.scFind t btag).elim s (fun i => s.scPut t i {})
/-- The entry has the shape of a run (R335). -/
def ScEntry.fits (e : ScEntry) (c : Cmd) (p : MxParam) : Bool :=
  e.m == p.m && e.n == p.n && e.k == p.k && e.afmt == p.afmt && e.sc == p.sc && (!p.sc || (e.sca == c.sca && e.scb == c.scb))

/-! ### The test (R336) -/

/-- The FP32 words of a row's inputs. -/
def scWords (l : MxLine) : List Nat :=
  (List.range l.vals.length).map (fun k =>
    let v := l.vals.getD k (.nan false)
    let v := match l.scl[k / 32]? with
      | some e => if e = 0xFF then FVal.nan false else (mulF v (scaled false 1 ((e : Int) - 127))).1
      | none => v
    (roundTo 0 0 false false v).bits)
/-- The magnitude bits of |round(x - y)|. -/
def scDiff (x y : Nat) : Nat := (roundEx 0 0 false false (addF 0 (decodeF 0 x false) (negF (decodeF 0 y false)))).bits % 2 ^ 31
/-- close(A, X') over the words of both: magnitudes compare as their bits do. -/
def scClose (thresh : Nat) (xs ys : List Nat) : Bool :=
  let ds := List.zipWith scDiff xs ys
  let lim := (roundEx 0 0 false false (mulF (decodeF 0 thresh false)
    (decodeF 0 (ys.foldl (fun m y => max m (y % 2 ^ 31)) 0) false))).bits % 2 ^ 31
  ds.all (· ≤ 0x7F800000) && lim ≤ 0x7F800000 && ds.foldl max 0 ≤ lim

/-! ### Lookup and store (R335, R337 to R339) -/

/-- Reads n FP32 words of a stored copy; the accesses do not wait for one another. -/
def Run.scRead (r : Run) (c : Cmd) (phase : Nat) (va : Word) (n : Nat) : (List Nat ⊕ Nat) × Run :=
  (r.begin phase 0).parts n (fun r i => r.readEl c (va + wd (4 * i)) 4)
/-- The kinds of R335. -/
inductive ScKind where
  | plain | gap | gener | hit
  deriving DecidableEq, Repr
/-- The kind of a run as far as the entries tell; hit: the inputs are still to be compared with those of the entry. -/
def State.scKind (s : State) (c : Cmd) (p : MxParam) : ScKind × Nat :=
  match s.scFind c.exTile p.btag with
  | none => (.plain, 0)
  | some i =>
    let e := s.scEntry c.exTile i
    if !e.fits c p then (.plain, i)
    else if e.step != (p.step + 2 ^ 32 - 1) % 2 ^ 32 then (.gap, i)
    else if e.gen != p.bgen || e.img != 8 * p.slot + p.macro_ then (.gener, i)
    else (.hit, i)
/-- What a lookup has decided, once (R335): 0: a miss; 1 + i: a hit of entry i. -/
def Run.scDecide (r : Run) (v : Nat) (f : State → State) : Run :=
  ((r.begin 8 0).once false (fun s _ _ => (some (.val v), f s))).2
/-- A miss of a kind, counted; lost: the entry whose stored copy could not be read, which goes (R339). -/
def State.scMiss (s : State) (t : Nat) (k : ScKind) (lost : Option Nat) : State :=
  let s := match lost with
    | some i => (s.scPut t i {}).bump t 0x530 1
    | none => s
  let s := s.bump t 0x508 1
  match k with
  | .gap => s.bump t 0x510 1
  | .gener => s.bump t 0x518 1
  | _ => s
/-- A hit of an entry, which takes the step. -/
def State.scHit (s : State) (t i step : Nat) : State :=
  let (n, s) := s.fresh
  (s.scPut t i { s.scEntry t i with step := step, used := n }).bump t 0x500 1
/-- The stored output of an entry. -/
def Run.scOutput (r : Run) (c : Cmd) (p : MxParam) (i : Nat) : (List Nat ⊕ Nat) × Run :=
  r.scRead c 6 (wd ((r.s.scEntry c.exTile i).iptr + 4 * p.m * p.k)) (p.m * p.n)
/-- The lookup of a consulted run: the stored output of a hit, or none for a miss; blocked while it waits for accesses (R335, R336,
R339). faulted: an A row faulted, and the run cannot hit (R323). -/
def Run.scLookup (r : Run) (c : Cmd) (p : MxParam) (faulted : Bool) (xs : List Nat) : Option (List Nat) × Run :=
  let t := c.exTile
  let hit (r : Run) (i : Nat) : Option (List Nat) × Run :=
    match r.scOutput c p i with
    | (.inl os, r) => (some os, r)
    | (.inr _, r) => (none, r)
  let miss (r : Run) (k : ScKind) (lost : Option Nat) : Option (List Nat) × Run :=
    (none, r.scDecide 0 (fun s => s.scMiss t k lost))
  match tfind r.log (8 * 2 ^ 60) with
  | some (.val 0) => (none, r.begin 8 0)
  | some (.val (i + 1)) => hit r i
  | _ =>
    match r.s.scKind c p with
    | (.hit, i) =>
      if faulted then miss r .plain none
      else match r.scRead c 5 (wd (r.s.scEntry t i).iptr) (p.m * p.k) with
        | (.inr _, r) => if r.blocked then (none, r) else miss r .plain (some i)
        | (.inl ys, r) =>
          if r.blocked then (none, r)
          else if !scClose (r.s.tl t).scThresh.toNat xs ys then miss r .plain none
          else match r.scOutput c p i with
            | (.inr _, r) => if r.blocked then (none, r) else miss r .plain (some i)
            | (.inl os, r) =>
              if r.blocked then (none, r) else (some os, r.scDecide (i + 1) (fun s => s.scHit t i p.step))
    | (k, _) => miss r k none
/-- The entry that a store takes: that of its tag, else the lowest invalid one, else the one used longest ago, evicted. -/
def State.scVictim (s : State) (t btag : Nat) : Nat × Bool :=
  match s.scFind t btag with
  | some i => (i, false)
  | none =>
    match (List.range 64).find? (fun i => !(s.scEntry t i).v) with
    | some i => (i, false)
    | none => ((least (fun a b => (s.scEntry t a).used < (s.scEntry t b).used) (List.range 64)).getD 0, true)
/-- The entry of a stored run (R332). -/
def scEntryOf (c : Cmd) (p : MxParam) (iptr used : Nat) : ScEntry :=
  { v := true, iptr := iptr, sca := if p.sc then c.sca else 0, scb := if p.sc then c.scb else 0, afmt := p.afmt, sc := p.sc
    img := 8 * p.slot + p.macro_, gen := p.bgen, m := p.m, n := p.n, k := p.k, step := p.step, btag := p.btag, used := used }
/-- The store of a computed run with SOM = 1 (R338, R339). -/
def Run.scStore (r : Run) (c : Cmd) (p : MxParam) (faulted : Bool) (xs cs : List Nat) : Run :=
  let t := c.exTile
  let x := r.s.tl t
  let skip (f : State → State) (r : Run) : Run := (r.begin 8 1).effect (fun s => (f s).bump t 0x528 1)
  if !p.som then r
  else if x.scRegion = 0 || x.scSlot < 4 * p.m * (p.k + p.n) || faulted then skip (fun s => s.scDrop t p.btag) r
  else
    let (i, evict) := r.s.scVictim t p.btag
    let r := if evict then (r.begin 8 2).effect (fun s => (s.scPut t i {}).bump t 0x520 1) else r
    let iptr := (x.scRegion.toNat + i * x.scSlot) % 2 ^ 56
    let ws := xs ++ cs
    let (e, r) := (r.begin 7 0).parts ws.length (fun r j =>
      let va := wd (iptr + 4 * j)
      if va.toNat % 4 != 0 then (.inr cAlign, r)
      else match r.write c va 4 (ws.getD j 0) with
        | (some e, r) => (.inr e, r)
        | (none, r) => (.inl 0, r))
    if r.blocked || r.late then r
    else match e with
      | .inr _ => skip (fun s => s.scPut t i {}) r
      | .inl _ => (r.begin 8 1).effect (fun s =>
          let (n, s) := s.fresh
          s.scPut t i (scEntryOf c p iptr n))

/-! ### SCSET, SCINV, SCSTAT (R341 to R344) -/

/-- A settings record that SCSET refuses (R341). -/
def scSetBad (bs : List Byte) : Bool :=
  let th := bfield bs 12 4
  2 ≤ bfield bs 0x10 1 || !recZero bs 0x11 47 || bfield bs 0 8 % 64 != 0 || bfield bs 8 4 % 64 != 0
    || 4194304 < bfield bs 8 4 || 0x7F800000 ≤ th % 2 ^ 31 || (2 ^ 31 < th)
/-- SCSET (R341). -/
def execScset (a : RegNo) (s : State) : Out :=
  .next (s.withBlock (s.g a) 64 64 (fun s bs =>
    if scSetBad bs then s.trapC cProt (s.g a)
    else
      let queue (s : State) : State := s.issueCmd .matrix (.scset a) 0 (fun c => { c with blk := bs }) State.adv
      let homed (key : Nat) (q : Word) (s : State) (k : State → State) : State :=
        s.once key (fun s k => s.withPa q needRW (fun s pa =>
          let here : Bool := match s.homeOf pa with | .tile t => s.isHere t | _ => false
          if here then k s pa else s.trapC cProt q)) (fun s _ => k s)
      let region := wd (bfield bs 0 8)
      let size := bfield bs 8 4
      if region != 0 && size != 0 then
        homed 3 region s (fun s => homed 4 (region + wd (64 * size - 1)) s queue)
      else queue s))
/-- SCSET_EXEC (R341): command inp.k sets the three settings. -/
def execScsetExec (s : State) : Out :=
  match s.cmd s.inp.k with
  | some c =>
    match c.op with
    | .scset _ =>
      if s.mxTurn c then
        let region := wd (bfield c.blk 0 8)
        let size := bfield c.blk 8 4
        let th := bfield c.blk 12 4
        let s := s.updTl c.exTile (fun x =>
          let clear : Bool := bfield c.blk 0x10 1 % 2 == 1 || region != x.scRegion || size != x.scSlot
          { x with scRegion := region, scSlot := size, scThresh := if th = 2 ^ 31 then 0 else BitVec.ofNat 32 th
                   sc := if clear then [] else x.sc })
        .next (s.finishCmd c none)
      else .next s
    | _ => .next s
  | none => .next s
/-- SCINV (R342). -/
def execScinv (a : RegNo) (s : State) : Out :=
  .next (s.issueCmd .matrix (.scinv a) 0 (fun c => { c with arg := s.g a }) State.adv)
/-- SCINV_EXEC (R342): command inp.k invalidates one entry or all. -/
def execScinvExec (s : State) : Out :=
  match s.cmd s.inp.k with
  | some c =>
    match c.op with
    | .scinv _ =>
      if s.mxTurn c then
        let s := if wbit c.arg 63 then s.updTl c.exTile (fun x => { x with sc := [] })
          else s.scDrop c.exTile (c.arg.toNat % 2 ^ 32)
        .next (s.finishCmd c none)
      else .next s
    | _ => .next s
  | none => .next s
/-- The value of a SCSTAT selector. -/
def State.scStat (s : State) (n : Nat) : Option Nat :=
  let x := s.tl s.here
  if n ≤ 6 then some (s.ctrRead s.here (0x500 + 8 * n))
  else if n = 8 then some ((List.range 64).filter (fun i => (s.scEntry s.here i).v)).length
  else if n = 9 then some x.scThresh.toNat
  else if n = 10 then some x.scSlot
  else if n = 11 then some x.scRegion.toNat
  else none
/-- SCSTAT (R343). -/
def execScstat (d : RegNo) (n : BitVec 7) (s : State) : Out :=
  match s.scStat n.toNat with
  | some v => .next (s.wg d (wd v)).adv
  | none => .next s.illegalC

end Sys2Proof.Machine
end

