-- ==== Sys2Proof/Machine/Matrix.lean ====
section
/-! DEFINITION. The matrix engine's commands (R310 to R331): MXLDB, MXRUN and MXDRAIN at issue and in the engine, MXWAIT and
MXSTAT. MXSEND stands with the messages, since it travels under an earmark. -/

namespace Sys2Proof.Machine

open Sys2Proof

/-! ### Issue (R322) -/

/-- MXLDB (R322). -/
def execMxldb (a b : RegNo) (p : BitVec 2) (s : State) : Out :=
  .next (s.withDesc (s.g a) (s.g b) 64 64 true (fun s bs ctr =>
    s.issueCmd .matrix (.mxldb a b p) p (fun c => { c with blk := bs, ctr := ctr }) State.adv))
/-- MXRUN (R322). -/
def execMxrun (a b : RegNo) (p : BitVec 2) (s : State) : Out :=
  .next (s.withDesc (s.g a) (s.g b) 64 128 true (fun s bs ctr =>
    s.issueCmd .matrix (.mxrun a b p) p (fun c => { c with blk := bs, ctr := ctr }) State.adv))
/-- MXDRAIN (R322). -/
def execMxdrain (a b : RegNo) (p : BitVec 2) (s : State) : Out :=
  .next (s.withDesc (s.g a) (s.g b) 64 128 true (fun s bs ctr =>
    s.issueCmd .matrix (.mxdrain a b p) p (fun c => { c with blk := bs, ctr := ctr }) State.adv))

/-! ### MXLDB in the engine (R308, R311) -/

/-- An image of a tile (R307). -/
def State.image (s : State) (t i : Nat) : Image := tget (s.tl t).images i {}
/-- Changes an image. -/
def State.updImage (s : State) (t i : Nat) (f : Image → Image) : State :=
  s.updTl t (fun x => { x with images := tset x.images i (f (tget x.images i {})) })
/-- Where column n of B lies. -/
def MxLoad.at_ (d : MxLoad) (n : Nat) : MxAt :=
  { fmt := d.fmt
    el := fun k => addInt d.src (d.stride * k) + wd (if d.fmt = 16 then n / 2 else n * mxSize d.fmt)
    nib := fun _ => if d.fmt = 16 then n % 2 else 0
    scl := if d.scl = 0 then none else some (fun j => d.scl + wd (j * d.sstride + n)) }
/-- Reads the columns of B from column n on. -/
def Run.readCols (r : Run) (c : Cmd) (d : MxLoad) (n : Nat) : Nat → List MxLine × Run
  | 0 => ([], r)
  | m + 1 =>
    let (l, r) := r.readLine c n (d.at_ n) {} 0 d.k
    let (ls, r) := r.readCols c d (n + 1) m
    (l :: ls, r)
/-- A list padded with zeros to a multiple of 96. -/
def mxPad (vs : List FVal) : List FVal := vs ++ List.replicate (96 * ceilDiv vs.length 96 - vs.length) (.fin false 0 1)
/-- The images of a load are READY with its columns: group g and column block b in macro MACRO + g * NB + b. -/
def State.mxReady (s : State) (c : Cmd) (d : MxLoad) (ls : List MxLine) : State :=
  let nb := ceilDiv d.n 128
  (List.range (mxCount d.k d.n)).foldl (fun s i =>
    let g := i / nb
    let cols := ((ls.drop (128 * (i % nb))).take 128).map (fun l =>
      mxCol d.fmt (((mxPad l.vals).drop (96 * g)).take 96) ((l.scl.drop (3 * g)).take 3))
    s.updImage c.exTile (2 * (d.macro_ + i) + d.slot) (fun _ =>
      { st := 2, gen := d.gen, load := (d.macro_, d.slot, d.k, d.n, d.fmt), cols := cols })) s
/-- A pass over an MXLDB: its images are LOADING from its start, and READY or EMPTY once every element has been read or has
faulted (R311). -/
def State.mxLoadRun (s : State) (c : Cmd) : State :=
  let d := mxLoad c
  let set (st : Nat) (s : State) : State := d.images.foldl (fun s i => s.updImage c.exTile i (fun m => { m with st := st, cols := [] })) s
  let r := ((s.run c).begin 12 0).effect (set 1)
  let (ls, r) := r.readCols c d 0 d.n
  if r.pend then r.save c
  else match ls.findSome? (·.err) with
    | some (_, e) => Run.complete { r with s := set 0 r.s } c 0 0 (some e)
    | none => Run.complete { r with s := (r.s.mxReady c d ls).bump c.exTile 0x428 1 } c 0 0 none
/-- MXLDB_EXEC (R311): command inp.k loads its images. -/
def execMxldbExec (s : State) : Out :=
  match s.cmd s.inp.k with
  | some c =>
    match c.op with
    | .mxldb .. => if s.mxTurn c then .next (s.mxLoadRun c) else .next s
    | _ => .next s
  | none => .next s

/-! ### Runs (R314 to R316, R320, R323) -/

/-- An accumulator as a pass knows it: none while an access is awaited; else its word and whether it is drained (R320). -/
abbrev MxEl := Option (Nat × Bool)
/-- What a pass over a run gathers: its flags, and its faults by row, column and depth. -/
structure MxRun where
  r : Run
  fl : Flags := 0
  faults : List (Nat × Nat × Nat × Nat) := []
  deriving DecidableEq, Repr
/-- The cause of the first fault in the order (m, then n, then k). -/
def MxRun.err (b : MxRun) : Option Nat :=
  (b.faults.foldl (fun (o : Option (Nat × Nat × Nat × Nat)) f =>
    match o with
    | none => some f
    | some g => if f.1 < g.1 || (f.1 = g.1 && (f.2.1 < g.2.1 || (f.2.1 = g.2.1 && f.2.2.1 < g.2.2.1))) then some f else some g)
    none).map (·.2.2.2)
/-- A result with its fault, if it has one; faults are gathered in the order they are met. -/
def MxRun.note (b : MxRun) (r : Run) (m n k : Nat) (e : Option Nat) : MxRun :=
  { b with r := r, faults := match e with | some e => b.faults ++ [(m, n, k, e)] | none => b.faults }
/-- Where row m of A lies. -/
def MxParam.row (p : MxParam) (m : Nat) : MxAt :=
  let base := addInt p.a (p.astr * m)
  { fmt := p.afmt
    el := fun k => if p.afmt = 16 then base + wd (k / 2) else addInt base (p.akstr * k)
    nib := fun k => if p.afmt = 16 then k % 2 else 0
    scl := if p.asc then some (fun j => p.ascl + wd (m * p.asstr + j)) else none }
/-- Reads the rows of A from row m on, each element once. -/
def Run.readRows (r : Run) (c : Cmd) (p : MxParam) (m : Nat) : Nat → List MxLine × Run
  | 0 => ([], r)
  | n + 1 =>
    let (l, r) := r.readLine c m (p.row m) {} 0 p.k
    let (ls, r) := r.readRows c p (m + 1) n
    (l :: ls, r)
/-- The address of an accumulator element. -/
def MxParam.accAt (p : MxParam) (m n : Nat) : Word := addInt p.acc (p.accstr * m) + wd (4 * n)
/-- Column n of group g of the images of a run. -/
def State.mxColumn (s : State) (c : Cmd) (p : MxParam) (g n : Nat) : BCol :=
  (s.image c.exTile (2 * (p.macro_ + g * ceilDiv p.n 128 + n / 128) + p.slot)).cols.getD (n % 128) {}
/-- s of R314: SCA * SCB as a real number, with the flags of forming it. -/
def mxScale (c : Cmd) (p : MxParam) : Option Ex :=
  if p.sc then some (mulF (decodeF 0 c.sca.toNat false) (decodeF 0 c.scb.toNat false)) else none
/-- The accumulator element (m, n) after a run's additions to the word w. -/
def State.mxSumUp (s : State) (c : Cmd) (p : MxParam) (gs : List MxGroup) (m n w : Nat) : FRes :=
  (mxOrder [c.exTile, p.macro_, p.slot, p.m, p.n, p.k, p.afmt, m, n] gs.length).foldl
    (fun v g => mxAdd c.mftz (mxScale c p) v (mxSum (gs.getD g ⟨[], 0, [], []⟩) (s.mxColumn c p g n)))
    { bits := flushBits 0 w c.mftz, fl := 0 }
/-- Writes the accumulator element (m, n). -/
def MxRun.accPut (b : MxRun) (c : Cmd) (p : MxParam) (m n v : Nat) : MxEl × MxRun :=
  let (e, r) := if (p.accAt m n).toNat % 4 != 0 then (some cAlign, b.r) else b.r.write c (p.accAt m n) 4 v
  (if r.blocked || r.late then none else some (v, e.isNone), b.note r m n 0 e)
/-- Element (m, n) of a run: its accumulator before, its additions, its accumulator after. -/
def MxRun.element (b : MxRun) (c : Cmd) (p : MxParam) (gs : List MxGroup) (m n : Nat) : MxEl × MxRun :=
  let r := b.r.begin 4 (1024 * m + n)
  match (if p.acc = 0 || p.accz then (.inl 0, r) else r.readEl c (p.accAt m n) 4 : (Nat ⊕ Nat) × Run) with
  | (.inr e, r) => (some (0, false), b.note r m n 0 (some e))
  | (.inl w, r) =>
    if r.blocked then (none, { b with r := r })
    else
      let v := r.s.mxSumUp c p gs m n w
      let b := { b with r := r, fl := b.fl ||| v.fl }
      if p.acc = 0 then (some (v.bits, true), b) else b.accPut c p m n v.bits
/-- The elements of a row from column n on. -/
def MxRun.rowFrom (b : MxRun) (c : Cmd) (p : MxParam) (gs : List MxGroup) (m n : Nat) : Nat → List MxEl × MxRun
  | 0 => ([], b)
  | k + 1 =>
    let (x, b) := b.element c p gs m n
    let (xs, b) := b.rowFrom c p gs m (n + 1) k
    (x :: xs, b)
/-- The planes of a row and group, counted (R316). A group whose elements are only zeros, NaNs and infinities is not skipped, and has
no plane to run: all count in PLSKIP (log 69). -/
def State.mxCountGroup (s : State) (t fmt : Nat) (g : MxGroup) : State :=
  let full := mxPlanes fmt
  if g.zero then (s.bump t 0x410 1).bump t 0x408 full
  else (s.bump t 0x400 (mxRun fmt g)).bump t 0x408 (full - mxRun fmt g)
/-- Row m: not computed where A faulted (R320), nor while A is awaited. -/
def MxRun.row (b : MxRun) (c : Cmd) (p : MxParam) (m : Nat) (l : MxLine) : List MxEl × MxRun :=
  if !l.ready then (List.replicate p.n none, b)
  else match l.err with
    | some (k, e) => (List.replicate p.n (some (0, false)), b.note b.r m 0 k (some e))
    | none =>
      let gs := (List.range (ceilDiv p.k 96)).map (fun g => mxGroup p.afmt { l with vals := mxPad l.vals } g)
      let r := (b.r.begin 13 m).effect (fun s => gs.foldl (fun s g => s.mxCountGroup c.exTile p.afmt g) s)
      MxRun.rowFrom { b with r := r, fl := b.fl ||| flagIf (l.vals.any FVal.signals) fNV } c p gs m 0 p.n
/-- The rows from m on. -/
def MxRun.rows (b : MxRun) (c : Cmd) (p : MxParam) (m : Nat) : List MxLine → List (List MxEl) × MxRun
  | [] => ([], b)
  | l :: ls =>
    let (x, b) := b.row c p m l
    let (xs, b) := b.rows c p (m + 1) ls
    (x :: xs, b)

/-! ### Drains (R317 to R320) -/

/-- Where a drain goes: its format, the element address of position i of line j, the scale address of block i of line j, and
the element of the run that this position is. -/
structure MxOut where
  fmt : Nat
  el : Nat → Nat → Word
  scl : Nat → Nat → Word
  pos : Nat → Nat → Nat × Nat
  trans : Bool
/-- The main drain. -/
def MxParam.main (p : MxParam) : MxOut :=
  { fmt := p.ofmt
    el := fun j i => addInt p.out (p.ostr * j) + wd (i * mxSize p.ofmt)
    scl := fun j i => p.oscl + wd (j * p.osstr + i)
    pos := fun j i => (j, i)
    trans := false }
/-- The transposed drain. -/
def MxParam.trans (p : MxParam) : MxOut :=
  { fmt := p.xfmt
    el := fun j i => addInt p.xout (p.xstr * j) + wd (i * mxSize p.xfmt)
    scl := fun j i => p.xscl + wd (j * p.xsstr + i)
    pos := fun j i => (i, j)
    trans := true }
/-- The rounding mode of a drain. -/
def mxMode (c : Cmd) (p : MxParam) : Nat := if p.rnd = 7 then c.mode else p.rnd
/-- One write of a drain; at_: its place in the log. -/
def MxRun.drainPut (b : MxRun) (c : Cmd) (at_ : Nat) (va : Word) (n v : Nat) (pos : Nat × Nat) : MxRun :=
  let r := b.r.begin 15 at_
  let (e, r) := if va.toNat % n != 0 then (some cAlign, r) else r.write c va n v
  b.note r pos.1 pos.2 0 e
/-- One block of 32 positions of line j, from position i on: each element by itself, or the block quantised over the elements
that are drained, once all of them are known. -/
def MxRun.drainBlock (b : MxRun) (c : Cmd) (p : MxParam) (o : MxOut) (j i : Nat) (xs : List MxEl) : MxRun :=
  let known (x : Nat × MxEl) : Option (Nat × Nat) := x.2.bind (fun y => if y.2 then some (x.1, y.1) else none)
  let live := if mxScaled o.fmt && xs.any (·.isNone) then [] else (List.zip (List.range xs.length) xs).filterMap known
  let vs := live.map (fun x => decodeF 0 x.2 c.mftz)
  let (scale, res) : Option Nat × List FRes :=
    if mxScaled o.fmt then let (k, l) := mxQuant o.fmt (mxMode c p) c.mftz vs; (some k, l)
    else (none, vs.map (mxConv o.fmt (mxMode c p) (p.sat || c.msat) c.mftz))
  let b := { b with fl := b.fl ||| joinFlags res }
  let place (x : Nat) : Nat := (if o.trans then 2 ^ 26 else 0) + 4096 * j + i + x
  let b := (List.zip (live.map (·.1)) res).foldl (fun b x =>
    b.drainPut c (place x.1) (o.el j (i + x.1)) (mxSize o.fmt) x.2.bits (o.pos j (i + x.1))) b
  match scale with
  | some k => if live.isEmpty then b else b.drainPut c (2 ^ 25 + place 0) (o.scl j (i / 32)) 1 k (o.pos j i)
  | none => b
/-- A drain of lines. -/
def MxRun.drainLines (b : MxRun) (c : Cmd) (p : MxParam) (o : MxOut) (lines : List (List MxEl)) : MxRun :=
  (List.zip (List.range lines.length) lines).foldl (fun b l =>
    (List.range (ceilDiv l.2.length 32)).foldl (fun b i =>
      b.drainBlock c p o l.1 (32 * i) ((l.2.drop (32 * i)).take 32)) b) b
/-- Both drains of the results. -/
def MxRun.drains (b : MxRun) (c : Cmd) (p : MxParam) (rows : List (List MxEl)) : MxRun :=
  let b := if p.out = 0 then b else b.drainLines c p p.main rows
  if p.xout = 0 then b
  else b.drainLines c p p.trans ((List.range p.n).map (fun n => rows.map (fun r => r.getD n none)))

/-! ### MXRUN and MXDRAIN in the engine (R323, R337) -/

/-- ACC, translated once at the start, lies on another tile than the executing one (R323). -/
def Run.accElsewhere (r : Run) (c : Cmd) (p : MxParam) : Bool × Run :=
  if p.acc = 0 then (false, r)
  else
    let (x, r) := (r.begin 11 0).once false (fun s _ _ =>
      match s.xlateAt c.pasture c.exTile p.acc needNone with
      | none => s.engMiss c p.acc
      | some (.inr e) => (some (.fault e), s)
      | some (.inl pa) => (some (.val pa), s))
    (match x with | .inl pa => r.s.homeOf pa != .tile c.exTile | .inr _ => false, r)
/-- The image check of R323: the code of its failure. -/
def State.mxCheck (s : State) (c : Cmd) (p : MxParam) (elsewhere : Bool) : Option Nat :=
  let ms := p.images.map (s.image c.exTile)
  let fmt := (ms.headD {}).load.2.2.2.2
  if ms.any (fun m => m.st != 2 || m.load != (p.macro_, p.slot, p.k, p.n, fmt)) || mxInt fmt != mxInt p.afmt then some 0x48
  else if ms.any (fun m => m.gen != p.bgen) then some 0x49
  else if elsewhere then some 0x4A
  else none
/-- The stored output of a hit becomes the results: written to ACC where there is one (R337). -/
def MxRun.replayRow (b : MxRun) (c : Cmd) (p : MxParam) (m n : Nat) : List Nat → List MxEl × MxRun
  | [] => ([], b)
  | w :: ws =>
    let (x, b) : MxEl × MxRun := if p.acc = 0 then (some (w, true), b)
      else MxRun.accPut { b with r := b.r.begin 4 (1024 * m + n) } c p m n w
    let (xs, b) := b.replayRow c p m (n + 1) ws
    (x :: xs, b)
/-- The rows of a replay. -/
def MxRun.replay (b : MxRun) (c : Cmd) (p : MxParam) (os : List Nat) (m : Nat) : Nat → List (List MxEl) × MxRun
  | 0 => ([], b)
  | k + 1 =>
    let (x, b) := b.replayRow c p m 0 ((os.drop (m * p.n)).take p.n)
    let (xs, b) := b.replay c p os (m + 1) k
    (x :: xs, b)
/-- The run is counted once: kind 0x418 does matrix work, 0x420 replays (R323). -/
def Run.countRun (r : Run) (c : Cmd) (off : Nat) : Run := (r.begin 14 0).effect (fun s => s.bump c.exTile off 1)
/-- A pass over a run past its checks: a replay, or the rows, the drains and the store. -/
def Run.mxWork (r : Run) (c : Cmd) (p : MxParam) : State :=
  let (ls, r) := r.readRows c p 0 p.m
  let faulted := ls.any (·.err.isSome)
  let xs := ls.flatMap scWords
  let (hit, r) : Option (List Nat) × Run :=
    if !p.sten then (none, r.begin 11 1) else if r.pend then (none, { r with blocked := true }) else r.scLookup c p faulted xs
  if r.blocked then r.save c
  else match hit with
    | some os =>
      let (rows, b) := MxRun.replay { r := r.countRun c 0x420 } c p os 0 p.m
      let b := b.drains c p rows
      b.r.complete c p.flagout b.fl b.err
    | none =>
      let (rows, b) := MxRun.rows { r := r.countRun c 0x418 } c p 0 ls
      let b := b.drains c p rows
      let known := rows.all (·.all (·.isSome))
      let cs := (rows.flatMap id).map (fun x => (x.getD (0, false)).1)
      let r := if p.sten && known then b.r.scStore c p faulted xs cs else b.r
      r.complete c p.flagout b.fl b.err
/-- A pass over an MXRUN, or over an MXSEND at its target. The check is made once, at the start (R323). -/
def State.mxRunRun (s : State) (c : Cmd) : State :=
  let p := mxParam c
  let (far, r) := (s.run c).accElsewhere c p
  let (code, r) := if r.blocked then (.inl 0, r) else (r.begin 11 1).once false (fun s _ _ => (some (.val ((s.mxCheck c p far).getD 0)), s))
  if r.blocked then r.save c
  else match code with
    | .inl 0 => r.mxWork c p
    | .inl code => r.complete c 0 0 (some code)
    | .inr e => r.complete c 0 0 (some e)
/-- MXRUN_EXEC (R314, R323): command inp.k, an MXRUN or an MXSEND, runs. -/
def execMxrunExec (s : State) : Out :=
  match s.cmd s.inp.k with
  | some c =>
    match c.op with
    | .mxrun .. | .mxsend .. => if s.mxTurn c then .next (s.mxRunRun c) else .next s
    | _ => .next s
  | none => .next s
/-- Reads a row of the accumulator for MXDRAIN. -/
def MxRun.accRow (b : MxRun) (c : Cmd) (p : MxParam) (m n : Nat) : Nat → List MxEl × MxRun
  | 0 => ([], b)
  | k + 1 =>
    let (x, r) := (b.r.begin 4 (1024 * m + n)).readEl c (p.accAt m n) 4
    let (v, e) : MxEl × Option Nat := match x with
      | .inl v => (if r.blocked then none else some (v, true), none)
      | .inr e => (some (0, false), some e)
    let (xs, b) := (b.note r m n 0 e).accRow c p m (n + 1) k
    (v :: xs, b)
/-- Reads the accumulator from row m on. -/
def MxRun.accRows (b : MxRun) (c : Cmd) (p : MxParam) (m : Nat) : Nat → List (List MxEl) × MxRun
  | 0 => ([], b)
  | k + 1 =>
    let (x, b) := b.accRow c p m 0 p.n
    let (xs, b) := b.accRows c p (m + 1) k
    (x :: xs, b)
/-- A pass over an MXDRAIN. -/
def State.mxDrainRun (s : State) (c : Cmd) : State :=
  let p := mxParam c
  let (far, r) := (s.run c).accElsewhere c p
  if r.blocked then r.save c
  else if far then r.complete c 0 0 (some 0x4A)
  else
    let (rows, b) := MxRun.accRows { r := r } c p 0 p.m
    let b := b.drains c p rows
    b.r.complete c p.flagout b.fl b.err
/-- MXDRAIN_EXEC (R317): command inp.k drains. -/
def execMxdrainExec (s : State) : Out :=
  match s.cmd s.inp.k with
  | some c =>
    match c.op with
    | .mxdrain .. => if s.mxTurn c then .next (s.mxDrainRun c) else .next s
    | _ => .next s
  | none => .next s

/-! ### MXWAIT, MXSTAT (R326, R330) -/

/-- A matrix command that MXWAIT with no counter waits for: not SCSET or SCINV. -/
def Cmd.mxWaited (c : Cmd) : Bool :=
  match c.op with
  | .mxldb .. | .mxrun .. | .mxdrain .. | .mxsend .. => true
  | _ => false
/-- MXWAIT (R326). -/
def execMxwait (a b : RegNo) (s : State) : Out :=
  let ea := s.g a
  if ea = 0 then
    .next (if s.cmds.any (fun c => c.mxWaited && c.sid == s.x.me.sid && c.tile == s.here) then s.parkUser .mxidle else s.adv)
  else .next (s.withAligned ea 8 needR (fun s pa => s.waitOp ea pa false (nfield (s.g b).toNat 0 48)))
/-- The value of an MXSTAT selector. -/
def State.mxStat (s : State) (n : Nat) : Option Nat :=
  if n ≤ 7 then some (s.ctrRead s.here (0x400 + 8 * n))
  else if n = 8 then some (s.mxHeld s.here).length
  else if 16 ≤ n && n ≤ 31 then
    let m := s.image s.here (n - 16)
    some (m.gen + m.st * 2 ^ 16)
  else none
/-- MXSTAT (R330). -/
def execMxstat (d : RegNo) (n : BitVec 7) (s : State) : Out :=
  match s.mxStat n.toNat with
  | some v => .next (s.wg d (wd v)).adv
  | none => .next s.illegalC

end Sys2Proof.Machine
end

