-- ==== Sys2Proof/Machine/ScalarFp.lean ====
section
/-! DEFINITION. Scalar floating-point instructions (R160 to R165). -/

namespace Sys2Proof.Machine

open Sys2Proof

/-- The full type code of a scalar type field (R67, R69): FP64, FP32, BF16, FP16, i64, n64, i32, n32. -/
def scalarTy (t : BitVec 3) : Nat :=
  match t.toNat with
  | 0 => 1
  | 1 => 0
  | 2 => 2
  | 3 => 3
  | 4 => 11
  | 5 => tyN64
  | 6 => 10
  | _ => 14
/-- The bits of a scalar operand: the low bits of the register (R160, R165). -/
def State.fpBits (s : State) (t : BitVec 3) (r : RegNo) : Nat := (s.g r).toNat % 2 ^ tyW (scalarTy t)
/-- The value of a scalar operand, after flush (R160). -/
def State.fpVal (s : State) (t : BitVec 3) (r : RegNo) : FVal := decodeF (scalarTy t) (s.fpBits t r) s.ftz
/-- An exact value rounded into a scalar type (R161). -/
def State.fpRound (s : State) (t r : BitVec 3) (x : Ex) : FRes := roundEx (scalarTy t) (s.mode r) false s.ftz x
/-- The turns of FDIV and FSQRT (R144). -/
def fpTurns (t : BitVec 3) : Nat := if t = 0 then 8 else 4

/-- FADD (R161): a + b. -/
def execFadd (d a b : RegNo) (r t : BitVec 3) (s : State) : Out :=
  fpOp d (s.fpRound t r (addF (s.mode r) (s.fpVal t a) (s.fpVal t b))) s
/-- FSUB (R161): a - b; a NaN b keeps what it signals. -/
def execFsub (d a b : RegNo) (r t : BitVec 3) (s : State) : Out :=
  fpOp d (s.fpRound t r (addF (s.mode r) (s.fpVal t a) (negF (s.fpVal t b)))) s
/-- FMUL (R161): a × b. -/
def execFmul (d a b : RegNo) (r t : BitVec 3) (s : State) : Out :=
  fpOp d (s.fpRound t r (mulF (s.fpVal t a) (s.fpVal t b))) s
/-- FFMA (R161): gd + a × b, rounded once. -/
def execFfma (d a b : RegNo) (r t : BitVec 3) (s : State) : Out :=
  fpOp d (s.fpRound t r (fmaF (s.mode r) (s.fpVal t d) (s.fpVal t a) (s.fpVal t b))) s
/-- FDIV (R161), 4 or 8 turns (R144). -/
def execFdiv (d a b : RegNo) (r t : BitVec 3) (s : State) : Out :=
  fpOp d (s.fpRound t r (divF (s.fpVal t a) (s.fpVal t b))) (s.takes (fpTurns t))
/-- FSQRT (R161), 4 or 8 turns (R144). -/
def execFsqrt (d a : RegNo) (r t : BitVec 3) (s : State) : Out :=
  fpOp d (s.fpRound t r (sqrtF (ffmt (scalarTy t)).frac (s.fpVal t a))) (s.takes (fpTurns t))
/-- FMIN (R162). -/
def execFmin (d a b : RegNo) (t : BitVec 3) (s : State) : Out :=
  fpOp d (minMaxF (scalarTy t) false s.ftz (s.fpBits t a) (s.fpBits t b)) s
/-- FMAX (R162). -/
def execFmax (d a b : RegNo) (t : BitVec 3) (s : State) : Out :=
  fpOp d (minMaxF (scalarTy t) true s.ftz (s.fpBits t a) (s.fpBits t b)) s
/-- The sign bit of scalar bits. -/
def signBit (t : BitVec 3) (v : Nat) : Bool := v / 2 ^ (tyW (scalarTy t) - 1) % 2 == 1
/-- Scalar bits with the sign given (R163). -/
def withSign (t : BitVec 3) (v : Nat) (neg : Bool) : Nat :=
  v % 2 ^ (tyW (scalarTy t) - 1) + if neg then 2 ^ (tyW (scalarTy t) - 1) else 0
/-- FSGN (R163): the sign of b. -/
def execFsgn (d a b : RegNo) (t : BitVec 3) (s : State) : Out :=
  .next (s.wg d (wd (withSign t (s.fpBits t a) (signBit t (s.fpBits t b)))))
/-- FSGNN (R163): the inverse of the sign of b. -/
def execFsgnn (d a b : RegNo) (t : BitVec 3) (s : State) : Out :=
  .next (s.wg d (wd (withSign t (s.fpBits t a) (!signBit t (s.fpBits t b)))))
/-- FSGNX (R163): the exclusive or of both signs. -/
def execFsgnx (d a b : RegNo) (t : BitVec 3) (s : State) : Out :=
  .next (s.wg d (wd (withSign t (s.fpBits t a) (signBit t (s.fpBits t a) != signBit t (s.fpBits t b)))))
/-- FCMP (R164). -/
def execFcmp (d a b : RegNo) (c t : BitVec 3) (s : State) : Out :=
  let r := cmpF c.toNat (s.fpVal t a) (s.fpVal t b)
  fpOp d { bits := if r.1 then 1 else 0, fl := r.2 } s
/-- The register value of converted bits: i32 is sign-extended, every other narrow result zero-extended (R165). -/
def scalarOut (t : BitVec 3) (v : Nat) : Nat := if t = 6 then (sx (BitVec.ofNat 32 v)).toNat else v
/-- FCVT (R165): x is the destination type and y the source type. -/
def execFcvt (d a : RegNo) (r x y : BitVec 3) (sat : Bool) (s : State) : Out :=
  let c := convert (scalarTy y) (scalarTy x) (s.mode r) sat s.ftz (s.fpBits y a)
  fpOp d { bits := scalarOut x c.bits, fl := c.fl } s

end Sys2Proof.Machine
end

