-- ==== Sys2Proof/Machine/System.lean ====
section
/-! DEFINITION. The system instructions of a controller core (R429 to R436) and the services of SYS (R432); the entry into a
supervisor event (R421). On a strand core each raises PRIV (R61). -/

namespace Sys2Proof.Machine

open Sys2Proof

/-- An instruction of a controller core: PRIV on a strand core (R61). -/
def onController (s : State) (k : State → State) : Out := .next (if s.x.me.isCtl then k s else s.privC)

/-! ### Memory of a controller core (R418, R419) -/

/-- Reads translated pieces, each once, the first under key i. -/
def State.readPieces (s : State) (l : List (Word × Nat × Nat)) (k : State → List Byte → State) (i : Nat := 112) : State :=
  match l with
  | [] => k s []
  | (va, pa, n) :: r =>
    s.readOnce va n i (fun k s => k s pa) (fun s c => s.trapC c va) (fun s bs => s.readPieces r (fun s l => k s (bs ++ l)) (i + 1))
/-- Writes bytes, a multiple of 8, at a translated address: to control space at once, otherwise as a posted store. -/
def State.writeAny (s : State) (addr : Word) (pa : Nat) (bs : List Byte) (k : State → State) : State :=
  match s.homeOf pa with
  | .control =>
    k ((List.range (bs.length / 8)).foldl (fun s i => s.writeControl (paddockOf s.here) (pa + 8 * i) 8 (bfield bs (8 * i) 8)) s)
  | h => s.postOp (destOf s.myPasture h) 1 (.store (localOf pa) bs.length (BitVec.ofNat 2048 (leNat bs)) addr) k
/-- Writes translated pieces. -/
def State.writePieces (s : State) (l : List (Word × Nat × Nat)) (bs : List Byte) (k : State → State) : State :=
  match l with
  | [] => k s
  | (va, pa, n) :: r => s.writeAny va pa (bs.take n) (fun s => s.writePieces r (bs.drop n) k)
/-- Reads m blocks of n bytes under SV_ASP, for a service that answers instead of trapping where one cannot be read (R432). -/
def State.tryRead (s : State) (va : Word) (n i : Nat) (bad : State → State) (k : State → List Byte → State) : Nat → State
  | 0 => k s []
  | m + 1 =>
    s.readOnce va n i (fun k s => s.withXlate va needR (fun s r => match r with | .inl pa => k s pa | .inr _ => bad s))
      (fun s _ => bad s)
      (fun s bs => s.tryRead (va + wd n) n (i + 1) bad (fun s l => k s (bs ++ l)) m)
/-- The pasture that a register names, if it exists. -/
def State.pasOf (s : State) (w : Word) : Option Nat := if w.toNat < 56 && s.hasPas w.toNat then some w.toNat else none

/-! ### MINT, TLBINV, GSTOP (R429, R434, R436) -/

/-- The generation that MINT writes for a template, and whether the template names a target. -/
def State.mintGen (s : State) (e : List Byte) : Option Nat :=
  let q := s.pas (emPas e)
  let sel := emSel e
  let w := emTarget e
  if sel = 0xFE then some 0
  else if sel = 0xFF || selSlot sel then
    match q.binding (tgtRow w) (tgtCol w) with
    | none => none
    | some t => some (if sel = 0xFF then q.regenOf (tgtRow w) (tgtCol w) else (tget (s.tl t).occ (tgtSlot w) 0).toNat)
  else none
/-- MINT (R429). -/
def execMint (a b : RegNo) (s : State) : Out :=
  onController s (fun s =>
    let t := s.g a
    let d := s.g b
    if t.toNat % 16 != 0 then s.trapC cAlign t
    else if d.toNat % 16 != 0 then s.trapC cAlign d
    else s.withEarmarkAt t (fun s e =>
      if !s.hasPas (emPas e) || emReserved e then s.trapC cProt t
      else match s.mintGen e with
        | none => s.trapC cProt t
        | some g =>
          let e := recSet (e.take 10) 6 2 g
          s.withPa d needW (fun s pa => s.writeAny d pa (e ++ (s.pas (emPas e)).sealOf e) State.adv)))
/-- The C slot notes the pages of the entries that a shootdown drops now, and the number of the last access that may have used one. -/
def State.notePages (s : State) (p a n : Nat) : State :=
  let l := s.droppedPages p a n
  ((s.note 100 s.ids).note 101 l.length).note 102 (packElems 64 (l.flatMap (fun r => [r.1, r.2])))
/-- Waits, as w says, until every access of the pasture that was translated with one of those entries is performed; those that had
not left their tiles are translated again (R179). -/
def State.awaitPages (s : State) (p : Nat) (w : Wait) (k : State → State) : State :=
  let v := (s.noted 102).getD 0
  let l := (List.range ((s.noted 101).getD 0)).map (fun i => (elem v 64 (2 * i), elem v 64 (2 * i + 1)))
  if s.oldAccess p ((s.noted 100).getD 0) l then s.park w else k s
/-- Drops the translations of a range, once, and waits for the accesses made with them. -/
def State.invalidate (s : State) (p a n : Nat) (w : Wait) (k : State → State) : State :=
  (if (s.noted 100).isSome then s else (s.notePages p a n).shootdown p a n).awaitPages p w k
/-- TLBINV (R436, R179): it waits as FENCE.D, drops the entries, and completes when every access of the pasture that was
translated with one of them is performed. -/
def execTlbinv (a b : RegNo) (s : State) : Out :=
  onController s (fun s =>
    match s.pasOf (zx s.sv.asp) with
    | none => s.trapC cProt (zx s.sv.asp)
    | some p =>
      if (s.g a).toNat % 65536 != 0 || (s.g b).toNat % 65536 != 0 then s.trapC cAlign (s.g a)
      else s.withFence 2 (fun s => s.invalidate p (s.g a).toNat (s.g b).toNat (.acks 2) State.adv))
/-- GSTOP (R434). The spec names no value for its PROT: a free value (log 15). -/
def execGstop (a : RegNo) (s : State) : Out :=
  onController s (fun s =>
    match s.pasOf (s.g a) with
    | none => s.trapFree cProt
    | some p => (if (s.pas p).st == .running then s.gangStop p else s).adv)

/-! ### CTXLD and CTXST (R430, R431) -/

/-- The stopped strand that a SID names (R430). -/
def State.stoppedStrand (s : State) (sid : Word) : Option Strand :=
  (s.strandOf sid).filter (fun st => st.stop.isSome || (s.pas st.pasture).st == .stopped)
/-- CTXLD (R431). -/
def execCtxld (a b : RegNo) (s : State) : Out :=
  onController s (fun s =>
    let d := s.g a
    if d.toNat % 64 != 0 then s.trapC cAlign d
    else match s.stoppedStrand (s.g b) with
      | none => s.trapC cProt (s.g b)
      | some st => s.withParts needW (pageParts d 256) (fun s l => s.writePieces l st.foldImage State.adv))
/-- SW as CTXST takes it: INTRAP, the pin latch, [13:0], with RM 5, 6 or 7 as 0. -/
def ctxSw (old new : Word) : Word :=
  let low := if 5 ≤ nfield new.toNat 10 3 then setField new 10 3 0 else new
  setBit (setBit (setField old 0 14 (low.toNat % 2 ^ 14)) 21 (wbit new 21)) 18 (wbit new 18)
/-- A strand with its image replaced (R431); a new DEADLINE gives a new ED when the strand resumes (R223). -/
def Strand.replaced (st : Strand) (b : List Byte) : Strand :=
  let d : BitVec 40 := BitVec.ofNat 40 (bfield b 0xB0 5)
  { st with
    g := Vector.ofFn (fun (i : Fin 16) => if i.val = 0 then 0 else wd (bfield b (8 + 8 * i.val) 8))
    pc := BitVec.ofNat 53 (bfield b 0x88 8), sw := ctxSw st.sw (wd (bfield b 0x90 8)), vt := wd (bfield b 0x98 8)
    fmt := fmtOf (wd (bfield b 0xA0 4)), sca := BitVec.ofNat 32 (bfield b 0xA4 4), scb := BitVec.ofNat 32 (bfield b 0xA8 4)
    utv := wd (nfield (bfield b 8 8) 38 26 * 2 ^ 30 + bfield b 0xAC 4 % 2 ^ 27 * 8)
    deadline := d, budget := BitVec.ofNat 24 (bfield b 0xB5 3), grp := BitVec.ofNat 32 (bfield b 0xB8 4)
    utc := wd (bfield b 0xC0 8 % 2 ^ 10), utpc := wd (bfield b 0xC8 8), utval := wd (bfield b 0xD0 8)
    edDue := st.edDue || d != st.deadline }
/-- CTXST (R431). -/
def execCtxst (a b : RegNo) (s : State) : Out :=
  onController s (fun s =>
    let d := s.g a
    if d.toNat % 64 != 0 then s.trapC cAlign d
    else match s.stoppedStrand (s.g b) with
      | none => s.trapC cProt (s.g b)
      | some st =>
        s.withParts needR (pageParts d 256) (fun s l => s.readPieces l (fun s bs =>
          (s.onStrand st.sid (fun st => st.replaced bs)).adv)))

/-! ### SYS (R432) -/

/-- A service ends with its result in g1. -/
def State.answer (s : State) (r : Nat) : State := (s.wg 1 (wd r)).adv
/-- A service that acts on a strand. -/
def State.withStrand (s : State) (k : State → Strand → State) : State :=
  match s.strandOf (s.g 1) with
  | none => s.answer 1
  | some st => k s st
/-- A service that acts on a pasture. -/
def State.withPasture (s : State) (k : State → Nat → State) : State :=
  match s.pasOf (s.g 1) with
  | none => s.answer 1
  | some p => k s p
/-- RESUME: an escalated or held strand continues, with CONLY = 1 with its C slot alone. -/
def execResume (s : State) : Out :=
  onController s (fun s => s.withStrand (fun s st =>
    if st.stop.isNone then s.answer 2
    else
      let conly := wbit (s.g 2) 0
      ((s.onStrand st.sid (fun st => { st with stop := none, cOnly := st.cOnly || conly })).resumed st.sid).answer 0))
/-- KILL. -/
def execKill (s : State) : Out := onController s (fun s => s.withStrand (fun s st => (s.kill st true).answer 0))
/-- HOLD: the strand stops, or stays stopped. -/
def execHold (s : State) : Out :=
  onController s (fun s => s.withStrand (fun s st =>
    if st.stop.isSome then s.answer 0
    else ((s.dropFollowers st.sid).onStrand st.sid (fun st => { st with stop := some .held })).answer 0))
/-- GO: STOPPED to RUNNING (R425). -/
def execGo (s : State) : Out :=
  onController s (fun s => s.withPasture (fun s p =>
    if (s.pas p).st != .stopped then s.answer 2
    else (s.setRunning p).answer 0))
/-- DRAIN (R426). -/
def execDrain (s : State) : Out :=
  onController s (fun s => s.withPasture (fun s p =>
    if (s.pas p).st != .stopped then s.answer 2 else (s.drain p).answer 0))
/-- RESET (R427). -/
def execReset (s : State) : Out :=
  onController s (fun s => s.withPasture (fun s p =>
    if (s.pas p).st != .drained then s.answer 2 else (s.resetPas p).answer 0))
/-- CREATE (R424, R443). -/
def execCreate (s : State) : Out :=
  onController s (fun s =>
    if !s.committed then s.answer 2
    else if (s.g 1).toNat % 64 != 0 then s.answer 3
    else s.tryRead (s.g 1) 64 112 (·.answer 3) (fun s b => if s.pcbBad b then s.answer 3 else (s.create b).answer 0) 12)
/-- DESTROY (R427). -/
def execDestroy (s : State) : Out :=
  onController s (fun s => s.withPasture (fun s p =>
    if (s.pas p).st != .drained then s.answer 2 else (s.destroy p).answer 0))
/-- QCTL (R219): firmware's, and the model's only, way to open and close a class queue: R444 and R445 give the host no register for it
(DESIGN CHOICE, log 82). -/
def execQctl (s : State) : Out :=
  onController s (fun s => s.withPasture (fun s p =>
    if (s.pas p).st == .drained then s.answer 2
    else
      let m : BitVec 8 := (s.g 2).setWidth 8
      let opens := wbit (s.g 3) 0
      (s.updPas p (fun q => { q with
        opened := if opens then q.opened ||| m else q.opened &&& ~~~m, everOpen := q.everOpen || (opens && m != 0) })).answer 0))
/-- POST: a record of firmware into the pasture's event queue. -/
def execPost (s : State) : Out :=
  onController s (fun s => s.withPasture (fun s p =>
    if (s.g 2).toNat % 32 != 0 then s.answer 3
    else s.tryRead (s.g 2) 32 112 (·.answer 3) (fun s bs => (s.postRecord p bs).answer 0) 1))
/-- Step 7 of a SHRINK: a TLBINV over the whole pasture, GRID_SHRUNK, and RUNNING again. -/
def State.endShrink (s : State) (p : Nat) (was : Bool) : State :=
  s.invalidate p 0 0 (.shrink was) (fun s =>
    (s.afterShrink p was 0x25 (wd ((s.pas p).rows * 65536 + (s.pas p).cols))).answer 0)
/-- SHRINK (R438): the pasture, whatever its state, is stopped if it runs, the line falls quiet, and the line is retired, once. -/
def execShrink (s : State) : Out :=
  onController s (fun s => s.withPasture (fun s p =>
    let was : Bool := match s.x.src.wait with | some (.shrink w) => w | _ => (s.pas p).st == .running
    if (s.noted 103).isSome then s.endShrink p was
    else match (s.pas p).logical (s.g 2).toNat with
      | none => s.answer 1
      | some (r, c) =>
        let q := s.pas p
        if 2 < (s.g 3).toNat then s.answer 3
        else
          let leaves := s.leaves p
          let pages (l : List Nat) : Nat := l.foldl (fun n t => n + (s.pagesOn leaves t).length) 0
          let row : Bool := if s.g 3 = 1 then true else if s.g 3 = 2 then false
            else pages (q.line true r) < pages (q.line false c)
          let i := if row then r else c
          let s := if q.st == .running then s.gangStop p else s
          if !s.lineQuiet (q.line row i) then s.park (.shrink was)
          else match s.shrinkLine p row i with
            | none => (s.afterShrink p was 0x26 0).answer 4
            | some s => (s.note 103 1).endShrink p was))
/-- LOST (R439): a tile is declared failed, and its pasture's TLBINV completes (R179); one that has failed already is in the wrong
state. -/
def execLost (s : State) : Out :=
  onController s (fun s =>
    let t := (s.g 1).toNat
    let await (s : State) : State := match s.pasOfTile t with
      | some p => s.awaitPages p (.acks 2) (·.answer 0)
      | none => s.answer 0
    if Config.tiles ≤ t then s.answer 1
    else if (s.noted 100).isSome then await s
    else if (s.tl t).failed then s.answer 2
    else await (((s.pasOfTile t).elim s (fun p => s.notePages p 0 0)).failTile t))

/-! ### Supervisor events (R421) -/

/-- The core enters its handler with an event's values. -/
def State.enterEvent (s : State) (p c : Nat) (e : SvEvent) : State :=
  s.updCtl p c (fun k =>
    { ctx := { k.ctx with pc := BitVec.ofNat 53 (k.sv.vec.toNat / 8), wait := none, cOnly := false, pend := none }
      sv := { k.sv with epc := k.ctx.pcByte, cause := e.cause, sid := e.sid, spc := e.spc, val := e.val
                        past := BitVec.ofNat 8 e.past, inh := true, fault := none } })
/-- A core may take an event: its INH is 0, it runs, and its bundle is not half done. -/
def State.takesEvents (s : State) (p c : Nat) : Bool :=
  let k := s.ctl p c
  !k.sv.inh && !k.sv.halted && (s.pad p).boot % 2 == 1 && k.ctx.pend.isNone
/-- SUPERVISOR_EVENT_ENTRY (R421): a core of paddock inp.k takes its own pending fault (core inp.l), or the head of the queue,
core 0 before core 1. The spec names no SV_SID, SV_SPC and SV_PAST of a core's own fault beyond 0, the bundle and none. -/
def execSupervisorEventEntry (s : State) : Out :=
  let p := s.inp.k
  let c := s.inp.l
  if Config.paddocks ≤ p || 2 ≤ c then .next s
  else match (s.ctl p c).sv.fault with
    | some (n, v) =>
      if (s.ctl p c).sv.inh || (s.ctl p c).sv.halted then .next s
      else
        let k := s.ctl p c
        .next (s.enterEvent p c { cause := wd n, sid := 0, spc := k.ctx.pcByte, val := v, past := 0xFF })
    | none =>
      match (s.pad p).svq with
      | [] => .next s
      | e :: r =>
        if !s.takesEvents p c || (c = 1 && s.takesEvents p 0 && (s.ctl p 0).sv.fault.isNone) then .next s
        else .next ((s.updPad p (fun d => { d with svq := r })).enterEvent p c e)

end Sys2Proof.Machine
end

