-- ==== Sys2Proof/Machine/Dispatch.lean ====
section
/-! DEFINITION. Which meaning each instruction and event has: one arm per constructor. -/

namespace Sys2Proof.Machine

open Sys2Proof

def exec (i : Instr) (s : State) : Host.Outcome State Fault Refusal :=
  match i with
  | .nopC => Sys2Proof.Machine.execNopC s
  | .csrr d c => Sys2Proof.Machine.execCsrr d c s
  | .csrw a c => Sys2Proof.Machine.execCsrw a c s
  | .time d => Sys2Proof.Machine.execTime d s
  | .trap m => Sys2Proof.Machine.execTrap m s
  | .udecline => Sys2Proof.Machine.execUdecline s
  | .uret => Sys2Proof.Machine.execUret s
  | .follow a => Sys2Proof.Machine.execFollow a s
  | .leave => Sys2Proof.Machine.execLeave s
  | .jr a => Sys2Proof.Machine.execJr a s
  | .ret => Sys2Proof.Machine.execRet s
  | .homeof d a => Sys2Proof.Machine.execHomeof d a s
  | .lea d a m => Sys2Proof.Machine.execLea d a m s
  | .br o => Sys2Proof.Machine.execBr o s
  | .call o => Sys2Proof.Machine.execCall o s
  | .brc a b c o => Sys2Proof.Machine.execBrc a b c o s
  | .cmps a b c k => Sys2Proof.Machine.execCmps a b c k s
  | .cmpsi a c k m => Sys2Proof.Machine.execCmpsi a c k m s
  | .brl d a m => Sys2Proof.Machine.execBrl d a m s
  | .ld d a z m => Sys2Proof.Machine.execLd d a z m s
  | .st d a z m => Sys2Proof.Machine.execSt d a z m s
  | .ldp d a z m => Sys2Proof.Machine.execLdp d a z m s
  | .ldAcq d a z m => Sys2Proof.Machine.execLdAcq d a z m s
  | .stRel d a z p m => Sys2Proof.Machine.execStRel d a z p m s
  | .ldfe d a m => Sys2Proof.Machine.execLdfe d a m s
  | .ldff d a m => Sys2Proof.Machine.execLdff d a m s
  | .stef d a m => Sys2Proof.Machine.execStef d a m s
  | .stff d a m => Sys2Proof.Machine.execStff d a m s
  | .fempty a m => Sys2Proof.Machine.execFempty a m s
  | .ffull a m => Sys2Proof.Machine.execFfull a m s
  | .lrw d a m => Sys2Proof.Machine.execLrw d a m s
  | .sch d a m => Sys2Proof.Machine.execSch d a m s
  | .relr a m => Sys2Proof.Machine.execRelr a m s
  | .amop a b o z => Sys2Proof.Machine.execAmop a b o z s
  | .amoz a b => Sys2Proof.Machine.execAmoz a b s
  | .amor d a b o z => Sys2Proof.Machine.execAmor d a b o z s
  | .cas d a b z => Sys2Proof.Machine.execCas d a b z s
  | .get a b p => Sys2Proof.Machine.execGet a b p s
  | .put a b p => Sys2Proof.Machine.execPut a b p s
  | .getputExec => Sys2Proof.Machine.execGetputExec s
  | .ccwait a b => Sys2Proof.Machine.execCcwait a b s
  | .ccwaitLong a count => Sys2Proof.Machine.execCcwaitLong a count s
  | .ccwaitPoll => Sys2Proof.Machine.execCcwaitPoll s
  | .ccset a b => Sys2Proof.Machine.execCcset a b s
  | .fence p => Sys2Proof.Machine.execFence p s
  | .mig a => Sys2Proof.Machine.execMig a s
  | .pin => Sys2Proof.Machine.execPin s
  | .unpin => Sys2Proof.Machine.execUnpin s
  | .discard a b => Sys2Proof.Machine.execDiscard a b s
  | .pref a => Sys2Proof.Machine.execPref a s
  | .spawn d a => Sys2Proof.Machine.execSpawn d a s
  | .spawnw d a => Sys2Proof.Machine.execSpawnw d a s
  | .spawnwPoolRetry => Sys2Proof.Machine.execSpawnwPoolRetry s
  | .endStrand => Sys2Proof.Machine.execEndStrand s
  | .yield => Sys2Proof.Machine.execYield s
  | .join a => Sys2Proof.Machine.execJoin a s
  | .dlset a => Sys2Proof.Machine.execDlset a s
  | .sliceinfo d z => Sys2Proof.Machine.execSliceinfo d z s
  | .gbar n => Sys2Proof.Machine.execGbar n s
  | .garrive n => Sys2Proof.Machine.execGarrive n s
  | .gwait n => Sys2Proof.Machine.execGwait n s
  | .groupAccess => Sys2Proof.Machine.execGroupAccess s
  | .vldV d a m => Sys2Proof.Machine.execVldV d a m s
  | .vldW d a m => Sys2Proof.Machine.execVldW d a m s
  | .vstV d a m => Sys2Proof.Machine.execVstV d a m s
  | .vstW d a m => Sys2Proof.Machine.execVstW d a m s
  | .vmodeShort => Sys2Proof.Machine.execVmodeShort s
  | .vmodeLong => Sys2Proof.Machine.execVmodeLong s
  | .longUnitGrant => Sys2Proof.Machine.execLongUnitGrant s
  | .vclr => Sys2Proof.Machine.execVclr s
  | .vloop a n => Sys2Proof.Machine.execVloop a n s
  | .vloopLong n count => Sys2Proof.Machine.execVloopLong n count s
  | .vsync => Sys2Proof.Machine.execVsync s
  | .sequencerEntry => Sys2Proof.Machine.execSequencerEntry s
  | .sbind d a => Sys2Proof.Machine.execSbind d a s
  | .sfree d => Sys2Proof.Machine.execSfree d s
  | .badd a b p => Sys2Proof.Machine.execBadd a b p s
  | .baxpy a b p => Sys2Proof.Machine.execBaxpy a b p s
  | .bscale a b p => Sys2Proof.Machine.execBscale a b p s
  | .bmax a b p => Sys2Proof.Machine.execBmax a b p s
  | .bexps a b p => Sys2Proof.Machine.execBexps a b p s
  | .bsum a b p => Sys2Proof.Machine.execBsum a b p s
  | .bfill a b p => Sys2Proof.Machine.execBfill a b p s
  | .bankInstall => Sys2Proof.Machine.execBankInstall s
  | .bankCommandExec => Sys2Proof.Machine.execBankCommandExec s
  | .cpy a b p => Sys2Proof.Machine.execCpy a b p s
  | .cpyExec => Sys2Proof.Machine.execCpyExec s
  | .cpys d a p => Sys2Proof.Machine.execCpys d a p s
  | .cpysOperand => Sys2Proof.Machine.execCpysOperand s
  | .cpystat d z => Sys2Proof.Machine.execCpystat d z s
  | .mxldb a b p => Sys2Proof.Machine.execMxldb a b p s
  | .mxldbExec => Sys2Proof.Machine.execMxldbExec s
  | .mxrun a b p => Sys2Proof.Machine.execMxrun a b p s
  | .mxrunExec => Sys2Proof.Machine.execMxrunExec s
  | .mxdrain a b p => Sys2Proof.Machine.execMxdrain a b p s
  | .mxdrainExec => Sys2Proof.Machine.execMxdrainExec s
  | .mxwait a b => Sys2Proof.Machine.execMxwait a b s
  | .mxstat d z => Sys2Proof.Machine.execMxstat d z s
  | .mxsend a b p => Sys2Proof.Machine.execMxsend a b p s
  | .mxsendArrival => Sys2Proof.Machine.execMxsendArrival s
  | .scset a => Sys2Proof.Machine.execScset a s
  | .scsetExec => Sys2Proof.Machine.execScsetExec s
  | .scinv a => Sys2Proof.Machine.execScinv a s
  | .scinvExec => Sys2Proof.Machine.execScinvExec s
  | .scstat d z => Sys2Proof.Machine.execScstat d z s
  | .selopen a => Sys2Proof.Machine.execSelopen a s
  | .selcontextGrant => Sys2Proof.Machine.execSelcontextGrant s
  | .selpush a b => Sys2Proof.Machine.execSelpush a b s
  | .selemit a b => Sys2Proof.Machine.execSelemit a b s
  | .selreset => Sys2Proof.Machine.execSelreset s
  | .selopenExec => Sys2Proof.Machine.execSelopenExec s
  | .selpushExec => Sys2Proof.Machine.execSelpushExec s
  | .selemitExec => Sys2Proof.Machine.execSelemitExec s
  | .selresetExec => Sys2Proof.Machine.execSelresetExec s
  | .fpush a => Sys2Proof.Machine.execFpush a s
  | .fpushRel a => Sys2Proof.Machine.execFpushRel a s
  | .fpushExec => Sys2Proof.Machine.execFpushExec s
  | .flockRecordArrival => Sys2Proof.Machine.execFlockRecordArrival s
  | .fpop d a => Sys2Proof.Machine.execFpop d a s
  | .fpopExec => Sys2Proof.Machine.execFpopExec s
  | .stealRequest => Sys2Proof.Machine.execStealRequest s
  | .stealAnswer => Sys2Proof.Machine.execStealAnswer s
  | .inflightRegister => Sys2Proof.Machine.execInflightRegister s
  | .fdone => Sys2Proof.Machine.execFdone s
  | .fdoneExec => Sys2Proof.Machine.execFdoneExec s
  | .ffloor d => Sys2Proof.Machine.execFfloor d s
  | .fstat d z => Sys2Proof.Machine.execFstat d z s
  | .msend a b => Sys2Proof.Machine.execMsend a b s
  | .msendh a b => Sys2Proof.Machine.execMsendh a b s
  | .mpost a => Sys2Proof.Machine.execMpost a s
  | .mwait d a => Sys2Proof.Machine.execMwait d a s
  | .mprobe d a => Sys2Proof.Machine.execMprobe d a s
  | .mcancel a => Sys2Proof.Machine.execMcancel a s
  | .messageArrival => Sys2Proof.Machine.execMessageArrival s
  | .messageRetry => Sys2Proof.Machine.execMessageRetry s
  | .controllerMessage => Sys2Proof.Machine.execControllerMessage s
  | .handlerStart => Sys2Proof.Machine.execHandlerStart s
  | .hend => Sys2Proof.Machine.execHend s
  | .wake a => Sys2Proof.Machine.execWake a s
  | .wakeArrival => Sys2Proof.Machine.execWakeArrival s
  | .haltt a => Sys2Proof.Machine.execHaltt a s
  | .halttArrival => Sys2Proof.Machine.execHalttArrival s
  | .insp a b => Sys2Proof.Machine.execInsp a b s
  | .inspArrival => Sys2Proof.Machine.execInspArrival s
  | .inspReply => Sys2Proof.Machine.execInspReply s
  | .staleRefusal => Sys2Proof.Machine.execStaleRefusal s
  | .mint a b => Sys2Proof.Machine.execMint a b s
  | .tlbinv a b => Sys2Proof.Machine.execTlbinv a b s
  | .gstop a => Sys2Proof.Machine.execGstop a s
  | .ctxld a b => Sys2Proof.Machine.execCtxld a b s
  | .ctxst a b => Sys2Proof.Machine.execCtxst a b s
  | .sret => Sys2Proof.Machine.execSret s
  | .resume => Sys2Proof.Machine.execResume s
  | .kill => Sys2Proof.Machine.execKill s
  | .hold => Sys2Proof.Machine.execHold s
  | .go => Sys2Proof.Machine.execGo s
  | .drain => Sys2Proof.Machine.execDrain s
  | .reset => Sys2Proof.Machine.execReset s
  | .create => Sys2Proof.Machine.execCreate s
  | .destroy => Sys2Proof.Machine.execDestroy s
  | .qctl => Sys2Proof.Machine.execQctl s
  | .post => Sys2Proof.Machine.execPost s
  | .shrink => Sys2Proof.Machine.execShrink s
  | .lost => Sys2Proof.Machine.execLost s
  | .heartbeatMiss => Sys2Proof.Machine.execHeartbeatMiss s
  | .supervisorEventEntry => Sys2Proof.Machine.execSupervisorEventEntry s
  | .nopA => Sys2Proof.Machine.execNopA s
  | .add d a b => Sys2Proof.Machine.execAdd d a b s
  | .sub d a b => Sys2Proof.Machine.execSub d a b s
  | .and d a b => Sys2Proof.Machine.execAnd d a b s
  | .or d a b => Sys2Proof.Machine.execOr d a b s
  | .xor d a b => Sys2Proof.Machine.execXor d a b s
  | .andn d a b => Sys2Proof.Machine.execAndn d a b s
  | .shl d a b => Sys2Proof.Machine.execShl d a b s
  | .shr d a b => Sys2Proof.Machine.execShr d a b s
  | .sra d a b => Sys2Proof.Machine.execSra d a b s
  | .rot d a b => Sys2Proof.Machine.execRot d a b s
  | .mul d a b => Sys2Proof.Machine.execMul d a b s
  | .mulh d a b => Sys2Proof.Machine.execMulh d a b s
  | .mulhn d a b => Sys2Proof.Machine.execMulhn d a b s
  | .min d a b => Sys2Proof.Machine.execMin d a b s
  | .max d a b => Sys2Proof.Machine.execMax d a b s
  | .minn d a b => Sys2Proof.Machine.execMinn d a b s
  | .maxn d a b => Sys2Proof.Machine.execMaxn d a b s
  | .clz d a => Sys2Proof.Machine.execClz d a s
  | .ctz d a => Sys2Proof.Machine.execCtz d a s
  | .popc d a => Sys2Proof.Machine.execPopc d a s
  | .slt d a b => Sys2Proof.Machine.execSlt d a b s
  | .sltn d a b => Sys2Proof.Machine.execSltn d a b s
  | .seq d a b => Sys2Proof.Machine.execSeq d a b s
  | .div d a b => Sys2Proof.Machine.execDiv d a b s
  | .divn d a b => Sys2Proof.Machine.execDivn d a b s
  | .rem d a b => Sys2Proof.Machine.execRem d a b s
  | .remn d a b => Sys2Proof.Machine.execRemn d a b s
  | .bext d a l p => Sys2Proof.Machine.execBext d a l p s
  | .bins d a l p => Sys2Proof.Machine.execBins d a l p s
  | .sel d a b c => Sys2Proof.Machine.execSel d a b c s
  | .addi d a m => Sys2Proof.Machine.execAddi d a m s
  | .andi d a m => Sys2Proof.Machine.execAndi d a m s
  | .ori d a m => Sys2Proof.Machine.execOri d a m s
  | .xori d a m => Sys2Proof.Machine.execXori d a m s
  | .shli d a h => Sys2Proof.Machine.execShli d a h s
  | .shri d a h => Sys2Proof.Machine.execShri d a h s
  | .srai d a h => Sys2Proof.Machine.execSrai d a h s
  | .movi d m => Sys2Proof.Machine.execMovi d m s
  | .liw d imm => Sys2Proof.Machine.execLiw d imm s
  | .lih d imm => Sys2Proof.Machine.execLih d imm s
  | .brLong o => Sys2Proof.Machine.execBrLong o s
  | .calll o => Sys2Proof.Machine.execCalll o s
  | .leaLong d a disp => Sys2Proof.Machine.execLeaLong d a disp s
  | .fadd d a b r t => Sys2Proof.Machine.execFadd d a b r t s
  | .fsub d a b r t => Sys2Proof.Machine.execFsub d a b r t s
  | .fmul d a b r t => Sys2Proof.Machine.execFmul d a b r t s
  | .ffma d a b r t => Sys2Proof.Machine.execFfma d a b r t s
  | .fmin d a b t => Sys2Proof.Machine.execFmin d a b t s
  | .fmax d a b t => Sys2Proof.Machine.execFmax d a b t s
  | .fdiv d a b r t => Sys2Proof.Machine.execFdiv d a b r t s
  | .fsqrt d a r t => Sys2Proof.Machine.execFsqrt d a r t s
  | .fsgn d a b t => Sys2Proof.Machine.execFsgn d a b t s
  | .fsgnn d a b t => Sys2Proof.Machine.execFsgnn d a b t s
  | .fsgnx d a b t => Sys2Proof.Machine.execFsgnx d a b t s
  | .fcmp d a b c t => Sys2Proof.Machine.execFcmp d a b c t s
  | .fcvt d a r x y sat => Sys2Proof.Machine.execFcvt d a r x y sat s
  | .vadd cl d a b r e sb => Sys2Proof.Machine.execVadd cl d a b r e sb s
  | .vsub cl d a b r e sb => Sys2Proof.Machine.execVsub cl d a b r e sb s
  | .vmul cl d a b r e sb => Sys2Proof.Machine.execVmul cl d a b r e sb s
  | .vmin cl d a b r e sb => Sys2Proof.Machine.execVmin cl d a b r e sb s
  | .vmax cl d a b r e sb => Sys2Proof.Machine.execVmax cl d a b r e sb s
  | .vabs cl d a r e => Sys2Proof.Machine.execVabs cl d a r e s
  | .vneg cl d a r e => Sys2Proof.Machine.execVneg cl d a r e s
  | .vfma cl d a b r e sb => Sys2Proof.Machine.execVfma cl d a b r e sb s
  | .vfms cl d a b r e sb => Sys2Proof.Machine.execVfms cl d a b r e sb s
  | .vand cl d a b r e sb => Sys2Proof.Machine.execVand cl d a b r e sb s
  | .vor cl d a b r e sb => Sys2Proof.Machine.execVor cl d a b r e sb s
  | .vxor cl d a b r e sb => Sys2Proof.Machine.execVxor cl d a b r e sb s
  | .vshl cl d a b r e sb => Sys2Proof.Machine.execVshl cl d a b r e sb s
  | .vshr cl d a b r e sb => Sys2Proof.Machine.execVshr cl d a b r e sb s
  | .vcmp cl d a b r e sb cond => Sys2Proof.Machine.execVcmp cl d a b r e sb cond s
  | .vsel cl d a b r e sb => Sys2Proof.Machine.execVsel cl d a b r e sb s
  | .vbcast cl d a r e => Sys2Proof.Machine.execVbcast cl d a r e s
  | .vext cl d a b r e => Sys2Proof.Machine.execVext cl d a b r e s
  | .vperm cl d a b r e sb => Sys2Proof.Machine.execVperm cl d a b r e sb s
  | .vredAdd cl d a r e => Sys2Proof.Machine.execVredAdd cl d a r e s
  | .vredMin cl d a r e => Sys2Proof.Machine.execVredMin cl d a r e s
  | .vredMax cl d a r e => Sys2Proof.Machine.execVredMax cl d a r e s
  | .vdotIp cl d a b r e sb => Sys2Proof.Machine.execVdotIp cl d a b r e sb s
  | .vdotCos cl d a b r e sb => Sys2Proof.Machine.execVdotCos cl d a b r e sb s
  | .vdotCosn cl d a b r e sb => Sys2Proof.Machine.execVdotCosn cl d a b r e sb s
  | .vdotL2 cl d a b r e sb => Sys2Proof.Machine.execVdotL2 cl d a b r e sb s
  | .vcvt cl d a x r sat y => Sys2Proof.Machine.execVcvt cl d a x r sat y s
  | .vpack cl d a b r e sat y => Sys2Proof.Machine.execVpack cl d a b r e sat y s
  | .vunpack cl d a half r e y => Sys2Proof.Machine.execVunpack cl d a half r e y s
  | .vscale cl d a b r y => Sys2Proof.Machine.execVscale cl d a b r y s
  | .vrcp cl d a r e => Sys2Proof.Machine.execVrcp cl d a r e s
  | .vrcpn cl d a b r e sb => Sys2Proof.Machine.execVrcpn cl d a b r e sb s
  | .vrsq cl d a r e => Sys2Proof.Machine.execVrsq cl d a r e s
  | .vrsqn cl d a b r e sb => Sys2Proof.Machine.execVrsqn cl d a b r e sb s
  | .vexp2 cl d a r e => Sys2Proof.Machine.execVexp2 cl d a r e s
  | .vlog2 cl d a r e => Sys2Proof.Machine.execVlog2 cl d a r e s
  | .budget => Sys2Proof.Machine.execBudget s
  | .budgetGraceExpiry => Sys2Proof.Machine.execBudgetGraceExpiry s
  | .handlerBudget => Sys2Proof.Machine.execHandlerBudget s
  | .followTimeout => Sys2Proof.Machine.execFollowTimeout s
  | .migrationDepart => Sys2Proof.Machine.execMigrationDepart s
  | .contextArrival => Sys2Proof.Machine.execContextArrival s
  | .arrivalAck => Sys2Proof.Machine.execArrivalAck s
  | .migrationRetry => Sys2Proof.Machine.execMigrationRetry s
  | .arrivalBind => Sys2Proof.Machine.execArrivalBind s
  | .pinnedFetchSend => Sys2Proof.Machine.execPinnedFetchSend s
  | .pinnedFetchRequest => Sys2Proof.Machine.execPinnedFetchRequest s
  | .pinnedFetchReply => Sys2Proof.Machine.execPinnedFetchReply s
  | .postedOpArrival => Sys2Proof.Machine.execPostedOpArrival s
  | .postedAck => Sys2Proof.Machine.execPostedAck s
  | .failedAck => Sys2Proof.Machine.execFailedAck s
  | .walkComplete => Sys2Proof.Machine.execWalkComplete s
  | .packetDrop => Sys2Proof.Machine.execPacketDrop s
  | .refusalNotice => Sys2Proof.Machine.execRefusalNotice s
  | .retransmit => Sys2Proof.Machine.execRetransmit s
  | .class0TokenReturn => Sys2Proof.Machine.execClass0TokenReturn s
  | .commandAccept => Sys2Proof.Machine.execCommandAccept s
  | .completionReport => Sys2Proof.Machine.execCompletionReport s
  | .permitReclaim => Sys2Proof.Machine.execPermitReclaim s
  | .classQueueMove => Sys2Proof.Machine.execClassQueueMove s
  | .sliceBind => Sys2Proof.Machine.execSliceBind s
  | .treeSample => Sys2Proof.Machine.execTreeSample s
  | .treeResult => Sys2Proof.Machine.execTreeResult s
  | .stall => Sys2Proof.Machine.execStall s
  | .watch => Sys2Proof.Machine.execWatch s
  | .flockDomainSample => Sys2Proof.Machine.execFlockDomainSample s
  | .patrolScrub => Sys2Proof.Machine.execPatrolScrub s
  | .spanLinkTimeout => Sys2Proof.Machine.execSpanLinkTimeout s
  | .powerSample => Sys2Proof.Machine.execPowerSample s
  | .powerStepUp => Sys2Proof.Machine.execPowerStepUp s
  | .powerShareWrite => Sys2Proof.Machine.execPowerShareWrite s
  | .thermalStepDown => Sys2Proof.Machine.execThermalStepDown s
  | .thermalStepUp => Sys2Proof.Machine.execThermalStepUp s
  | .thermalStop => Sys2Proof.Machine.execThermalStop s
  | .powerOn => Sys2Proof.Machine.execPowerOn s
  | .featureWordWrite => Sys2Proof.Machine.execFeatureWordWrite s
  | .featureCommit => Sys2Proof.Machine.execFeatureCommit s
  | .attestationStart => Sys2Proof.Machine.execAttestationStart s
  | .attestationReportDone => Sys2Proof.Machine.execAttestationReportDone s
  | .launch => Sys2Proof.Machine.execLaunch s
  | .evqheadWrite => Sys2Proof.Machine.execEvqheadWrite s
  | .evdropClear => Sys2Proof.Machine.execEvdropClear s
  | .rorefClear => Sys2Proof.Machine.execRorefClear s
  | .lrefClear => Sys2Proof.Machine.execLrefClear s
  | .hostwakeWrite => Sys2Proof.Machine.execHostwakeWrite s
  | .registerWrite => Sys2Proof.Machine.execRegisterWrite s
  | .hostRead => Sys2Proof.Machine.execHostRead s
  | .hostWrite => Sys2Proof.Machine.execHostWrite s

end Sys2Proof.Machine
end

