-- ==== Sys2Proof/Machine/Issue.lean ====
section
/-! DEFINITION. How an agent issues one bundle (R53 to R56, R140, R143, R144, R231): who may issue, the fetch, the two slots
and the order of causes, the turns charged, following (R145, R146). A bundle runs in the issue latch. -/

namespace Sys2Proof.Machine

open Sys2Proof

/-- Waits whose C slot tries again when the strand's turn comes round: what they wait for only ever becomes true by the
action of other parties, or is a free place. The other waits end by an event of their own. -/
def Wait.retries : Wait → Bool
  | .acks _ | .queue | .seq | .stream | .bank | .mxidle | .shrink _ => true
  | _ => false
/-- Whether an agent may issue: in a slot of a RUNNING pasture, not stopped, ready or able to try again; a follower in its
leader's stream needs a bundle of it. A controller core runs unless stopped by its own faults. -/
def State.canIssue (s : State) : Agent → Bool
  | .strand t c n =>
    match s.inSlotAt t c n with
    | none => false
    | some st =>
      st.stop.isNone && (s.pas st.pasture).st == .running && s.hasPas st.pasture && !(s.tl t).failed
        && (match st.wait with | none => true | some w => Wait.retries w)
        && (match st.follow with
            | some f => !(f.joined && f.stream.isEmpty && st.pend.isNone)
            | none => true)
  | .ctl p c =>
    let k := s.ctl p c
    p < Config.paddocks && c < 2 && (s.pad p).boot % 2 == 1 && !k.sv.halted && k.sv.fault.isNone
      && (match k.ctx.wait with | none => true | some w => Wait.retries w)
/-- Takes an agent's context into the issue latch; a waiting C slot keeps the sources it had (R53), with what it has read or done,
unless it has travelled (R182). What the move asks of the issue stands in the latch already. -/
def State.checkOut (s : State) (st : Strand) : State :=
  let x := latchOf st
  { s with x := { x with
      me := { st with wait := none }
      got := false
      log := if st.arrived then [] else x.log
      only := s.x.only
      upTo := s.x.upTo } }
/-- The context an agent issues with. -/
def State.context (s : State) : Agent → Strand
  | .strand t c n => (s.inSlotAt t c n).getD {}
  | .ctl p c => (s.ctl p c).ctx

/-- The bundle's two words into the latch, from a domain physical address. -/
def State.latchWords (s : State) (v : Nat) : State :=
  { s with x := { s.x with w0 := BitVec.ofNat 32 v, w1 := BitVec.ofNat 32 (v / 2 ^ 32), got := true } }
/-- The bytes of a bundle as fetch may still see them: those that were on the page when the mapping came into use (R180). -/
def CodeMap.bundle (c : CodeMap) (m : Memory) (a : Nat) : Nat :=
  leNat ((List.range 8).map (fun i =>
    match c.old.find? (fun e => e.1 == a + i) with | some e => e.2 | none => memGet m (a + i)))
/-- A strand's bundle at a local address, of which a fetch has brought the 8 bytes new: those, or, until a TLBINV of the executable
mapping, the bytes it had before they were written, one or the other (R180): which of the two is a free value (log 15). -/
def State.readCode (s : State) (a new : Nat) : State :=
  let st := s.x.me
  match s.code.find? (fun c => c.asp == st.pasture && c.base == st.pcByte.toNat / 2 ^ c.bits * 2 ^ c.bits) with
  | none =>
    match tlbFind (s.tl s.here).tlb st.pasture st.pcByte.toNat with
    | some e => { (s.latchWords new) with code := { asp := e.asp, base := e.base, bits := e.bits, page := localOf e.pa } :: s.code }
    | none => s.latchWords new
  | some c =>
    let old := c.bundle s.mem a
    if old = new then s.latchWords new
    else
      let (v, s) := s.takeFree
      s.latchWords (if v.toNat % 2 = 0 then old else new)
/-- A strand's fetch at a domain physical address (R180, R190): a pinned fetch, which its own tile performs and counts at once, unless
an installed bank command holds the bundle (R287), whose wait is counted once (R291); another home's bundle comes to the fetch
buffer of the core, from which one issue takes it (log 84). -/
def State.fetchCode (s : State) (pa : Nat) : State :=
  let va := s.x.me.pcByte
  let a := localOf pa
  let far : State :=
    let c := s.x.me.core
    let buf := tget (s.tl s.here).fbuf c []
    match buf.find? (·.1 == pa) with
    | some e =>
      let s := s.updTl s.here (fun x => { x with fbuf := tset x.fbuf c (ldel (· == e) buf) })
      (match s.homeOf pa with | .device _ => s.latchWords e.2 | _ => s.readCode a e.2)
    | none => s.stall (.fetch va pa .code)
  match s.homeOf pa with
  | .tile t =>
    if t != s.here then far
    else if s.bankHeld a 8 then (if s.x.src.wait == some .bank then s else s.bumpHeld a).stall .bank
    else if s.badAt a 8 then s.memErr va a
    else
      let s := (s.bump t (0x100 + 48) 1).correct a 8
      s.readCode a (s.rd a 8)
  | _ => far
/-- Fetches the bundle at PC: a strand through its tile's TLB with X and W = 0 (R43, R178, R180); a controller core from its
SRAM, and beyond it a free value (log 4). A waiting C slot keeps the words it issued with, unless it has travelled (R182). -/
def State.fetch (s : State) : State :=
  let st := s.x.me
  match st.pend, st.arrived with
  | some p, false => { s with x := { s.x with w0 := p.w0, w1 := p.w1, got := true } }
  | _, _ =>
    match st.place with
    | .ctl p _ =>
      if st.pcByte.toNat < 2 ^ 20 then s.latchWords (s.rd (sramKey p st.pcByte.toNat) 8)
      else if nfield st.pcByte.toNat 56 8 != 0 then s.trapC cXlate st.pcByte
      else let (v, s) := s.takeFree; s.latchWords v.toNat
    | _ => s.withPa st.pcByte { x := true } State.fetchCode

/-- A follower whose next bundle is not the next of the stream leaves (R146). -/
def Strand.leaveIfOff (st : Strand) : Strand :=
  match st.follow with
  | some f => if f.joined && st.pend.isNone && (f.stream.head?.any (· != st.pc)) then st.leave else st
  | none => st

/-- The state a meaning answers with, and a stop passed on. -/
def andThen (o : Out) (k : State → Out) : Out :=
  match o with
  | .next s => k s
  | o => o
/-- Whether an outcome's trap has a given cause. -/
def State.hasTrap (s : State) (c : Nat) : Bool := s.x.trap.any (·.cause == c)
/-- The bundle has not issued: it waits for a sequencer entry or a stream operand, with nothing performed (R255, R261). A FOLLOW that
joins has issued, and waits at the bundle after it (R145). -/
def State.stalled (s : State) : Bool := s.x.me.wait.isSome && s.x.me.pend.isNone && s.x.me.wait != some .follow

/-- A first issue of two slots: C and A are tried on the state before the bundle, the first cause in the order of R56 is
taken, and otherwise the A slot is performed and then the C slot. The A slot's turns are charged where it is performed or
traps itself, and are spent where they bring a handler slot to its limit (R410); a bundle stopped by its C slot, an ILLEGAL slot or
ILLEGAL_BUNDLE is charged one (log 23). A multi-turn bundle that is abandoned has taken its turns and changed nothing (R144). The A
slot comes first throughout: where it writes a short vector register and the C slot is VCLR, which names no destination (R53), VCLR
clears what A wrote (DESIGN CHOICE, log 82). -/
def runPair (c a : Instr) (s : State) : Out :=
  andThen (exec c s) (fun rc =>
  andThen (exec a s) (fun ra =>
    let n := ra.x.turns
    let s1 := (s.charge 1).countIssue
    let sn := (s.charge n).countIssue
    if s.x.me.hslot && 4096 ≤ s.x.me.hturns + n then exec .handlerBudget (s.charge n)
    else if rc.hasTrap cIllegal then exec c s1
    else if ra.hasTrap cIllegal then exec a s1
    else if conflict c a then
      (let (v, s1) := s1.takeFree; .next (s1.trapC cIllegalBundle v))
    else if rc.x.trap.isSome then exec c s1
    else if rc.stalled then .next rc
    else if 0 < s.x.upTo && s.x.upTo < n && !ra.stalled then .next (s.charge s.x.upTo).countBundle
    else if ra.x.trap.isSome then exec a sn
    else if ra.stalled then .next ra
    else andThen (exec a sn) (fun s2 => exec c { s2 with x := { s2.x with aDone := true } })))
/-- A first issue that performs the C slot alone (R55, R151, R182), or a long instruction. -/
def runSingle (c : Instr) (s : State) : Out :=
  andThen (exec c s) (fun rc =>
    if s.x.me.hslot && 4096 ≤ s.x.me.hturns + 1 then exec .handlerBudget (s.charge 1)
    else if rc.stalled then .next rc
    else
      let s := (s.charge 1).countIssue
      exec c (s.upd (fun st => { st with arrived := false })))
/-- The bundle in the latch. -/
def runBundle (s : State) : Out :=
  let w0 := s.x.w0.toNat
  let w1 := s.x.w1.toNat
  let bad (slotA : Bool) : Out :=
    .next ((s.charge 1).countIssue.trapAt slotA cIllegal (zx (if slotA then s.x.w1 else s.x.w0)))
  match (if w0 < 2147483648 then decodeC w0 else decodeLong w0 w1) with
  | .error _ => bad false
  | .ok c =>
    if !s.permits false c then bad false
    else if s.x.me.pend.isSome && !s.x.me.arrived then exec c s
    else if s.x.aDone || 2147483648 ≤ w0 then runSingle c s
    else match decodeA w1 with
      | .error _ =>
        andThen (exec c s) (fun rc => if rc.hasTrap cIllegal then exec c (s.charge 1).countIssue else bad true)
      | .ok a =>
        if !s.permits true a then
          andThen (exec c s) (fun rc => if rc.hasTrap cIllegal then exec c (s.charge 1).countIssue else bad true)
        else runPair c a s

/-- Puts the issuing context back and blanks the latch. -/
def State.finishIssue (s : State) : State :=
  let st := s.x.me.leaveIfOff
  { (s.checkIn st s.x.gone) with x := {} }
/-- One issue of an agent that may issue: the BUDGET trap where BUDGET is 0 (R148, R153), else the bundle at PC. -/
def issue (a : Agent) (s : State) : Out :=
  let st := s.context a
  let s := s.checkOut st.leaveIfOff
  let again := st.pend.isSome && !st.arrived
  let done :=
    if !st.isCtl && !st.hslot && !again && st.budget = 0 then
      (if st.grace then exec .budgetGraceExpiry s else exec .budget s)
    else
      let f := s.fetch
      if f.x.got then runBundle f
      else if f.x.trap.isSome && !again then .next ((s.charge 1).countIssue.fetch)
      else .next f
  andThen done (fun s => .next s.finishIssue)

end Sys2Proof.Machine
end

