-- ==== Sys2Proof/Machine/Program.lean ====
section
/-! DEFINITION. Time passing (R37, R232), and the placing of a program where the next step runs it (log 8). -/

namespace Sys2Proof.Machine

open Sys2Proof

/-- The watch timer of a strand runs in every state but STOPPED (R232, R425). -/
def State.tick (s : State) (n : Nat) : State :=
  { s with
    now := s.now + n
    strands := s.strands.map (fun st =>
      if (s.pas st.pasture).st == .stopped then st else { st with watch := st.watch + n }) }

/-- The pasture of a placed program: paddock P0 alone, with the settings of R423's defaults. -/
def placedPasture : Pasture := { pcb := {} }
/-- Virtual and physical page of a placed program's code: 64 KiB at 0x1_0000 of tile 0, X only; its data page is at 0. -/
def placedTlb : List TlbEntry :=
  [{ asp := 0, base := 0x10000, bits := 16, pa := 0x10000, r := false, w := false, x := true, s := false },
   { asp := 0, base := 0, bits := 16, pa := 0, r := true, w := true, x := false, s := false }]
/-- Whether a word is a system instruction: major 0x32 with bit 31 clear (R61, R64). -/
def isSystemWord (w0 : Nat) : Bool := w0 / 2 ^ 25 == 0x32
/-- The state with the table word w placed (log 8). -/
def State.place (s : State) (_nbits w : Nat) : State :=
  let (w0, w1) := tableWords w
  let bytes := leBytes 4 w0 ++ leBytes 4 w1
  if isSystemWord w0 then
    { (s.updCtl 0 0 (fun k => { k with
          ctx := { k.ctx with pc := 0, wait := none, cOnly := false, pend := none }
          sv := { k.sv with halted := false, fault := none } })) with
      mem := memPut s.mem (sramKey 0 0) bytes
      sched := []
      cur := .ctl 0 0 }
  else
    let st : Strand := { pasture := 0, place := .slot 0 0 0, pc := BitVec.ofNat 53 (0x10000 / 8), budget := 0xFFFFFF }
    let s := if s.hasPas 0 then s else { s with pastures := tset s.pastures 0 placedPasture }
    let s := s.updTl 0 (fun x => { x with tlb := placedTlb })
    { s with
      mem := memPut s.mem 0x10000 bytes
      strands := st :: s.strands.filter (fun x => x.place != .slot 0 0 0 && x.sid != 0)
      sched := []
      cur := .strand 0 0 0 }

end Sys2Proof.Machine
end

