-- ==== Sys2Proof/Machine/Step.lean ====
section
/-! DEFINITION. One step of the device: the next move of the schedule, or an issue of the agent that moves by default. -/

namespace Sys2Proof.Machine

open Sys2Proof

/-- One step (log 2): an agent issues a bundle, an event of the part comes about, or time passes. A move that is not
possible changes nothing but the schedule. With the schedule empty the default agent issues; the machine stops where it
cannot. -/
def step (s : State) : Host.Outcome State Fault Refusal :=
  match s.sched with
  | [] => if s.canIssue s.cur then issue s.cur s else .fault .nothingMoves
  | .issue a :: r => if s.canIssue a then issue a { s with sched := r } else .next { s with sched := r }
  | .part a ws :: r =>
    if s.canIssue a then issue a { s with sched := r, x := { s.x with only := ws } } else .next { s with sched := r }
  | .turns a n :: r =>
    if s.canIssue a then issue a { s with sched := r, x := { s.x with upTo := n } } else .next { s with sched := r }
  | .event i inp :: r => exec i { s with sched := r, inp := inp }
  | .tick n :: r => .next ({ s with sched := r }.tick n)

/-- The state with an instruction placed where the very next step fetches and runs it (log 8): a system instruction in the
SRAM of controller core 0 of P0, any other in a strand of a pasture on that paddock. -/
def State.withFetchWord (s : State) (nbits w : Nat) : State := s.place nbits w

end Sys2Proof.Machine
end

