-- ==== Sys2Proof/Safety.lean ====
section
/-! DEFINITION. What counts as a safe run, and the terms the statements use: what an instruction changes and what it leaves
alone, and when an access is performed where the issuing agent stands. -/

namespace Sys2Proof.Machine

open Sys2Proof

/-- Every TLB entry has one of the three page sizes (R21, R175) and a page aligned to it (R176). -/
def TlbEntry.wf (e : TlbEntry) : Bool :=
  (e.bits == 16 || e.bits == 21 || e.bits == 29) && e.base % 2 ^ e.bits == 0 && e.pa % 2 ^ e.bits == 0
/-- A meaning's outcome is a next state. -/
def isNext (o : Out) : Prop := ∃ t, o = .next t

/-! ### What changes -/

/-- Every byte of memory reads as before. -/
def SameMem (s t : State) : Prop := ∀ a, memGet t.mem a = memGet s.mem a
/-- Every byte of memory outside n bytes at a reads as before. -/
def SameMemBut (s t : State) (a n : Nat) : Prop := ∀ b, b < a ∨ a + n ≤ b → memGet t.mem b = memGet s.mem b
/-- The registers of t are those of s, but register d, which holds v; g0 stays 0 (R12, R48). -/
def RegSet (s t : Strand) (d : RegNo) (v : Word) : Prop :=
  t.gr d = (if d = 0 then 0 else v) ∧ ∀ r, r ≠ d → t.gr r = s.gr r
/-- The issuing context after its bundle is complete, with other general registers. -/
def Strand.done (st : Strand) (g : Vector Word 16) (pc : BitVec 53) : Strand :=
  { st with g := g, pc := pc, wait := none, cOnly := false, pend := none }

/-- An A-slot instruction answers a next state in which register d alone has changed, to v, and the bundle takes n turns.
Flags, PC, every special register, memory and everything outside the issuing context stand as before. -/
def AWrites (i : Instr) (s : State) (d : RegNo) (v : Word) (n : Nat) : Prop :=
  ∃ t, exec i s = .next t ∧ RegSet s.x.me t.x.me d v
    ∧ t = { s with x := { s.x with me := { s.x.me with g := t.x.me.g }, turns := n } } ∧ SameMem s t
/-- A C-slot instruction answers a next state in which register d has changed, to v, and PC is the next bundle; all else
stands as before. -/
def CWrites (i : Instr) (s : State) (d : RegNo) (v : Word) : Prop :=
  ∃ t, exec i s = .next t ∧ RegSet s.x.me t.x.me d v
    ∧ t = { s with x := { s.x with me := s.x.me.done t.x.me.g (s.x.me.pc + 1) } } ∧ SameMem s t
/-- A C-slot instruction answers a next state in which PC alone has changed. -/
def Goes (i : Instr) (s : State) (pc : BitVec 53) : Prop :=
  exec i s = .next { s with x := { s.x with me := s.x.me.done s.x.me.g pc } }
/-- A C-slot instruction answers a next state in which the issuing context alone has changed, to st with PC at the next
bundle. -/
def Becomes (i : Instr) (s : State) (st : Strand) : Prop :=
  exec i s = .next { s with x := { s.x with me := st.advance } }
/-- The state with what the C slot has noted (R12, R53; log 63), which lasts until its bundle is complete. -/
def State.noting (s : State) (log : Tbl Nat) : State := { s with x := { s.x with log := log } }
/-- A C-slot instruction that notes what it reads on the way answers a next state in which register d has changed, to v, and
PC is the next bundle; all else stands as before. -/
def CWritesNoting (i : Instr) (s : State) (d : RegNo) (v : Word) : Prop :=
  ∃ t, exec i s = .next t ∧ RegSet s.x.me t.x.me d v
    ∧ t = { s with x := { s.x with me := s.x.me.done t.x.me.g (s.x.me.pc + 1), log := t.x.log } } ∧ SameMem s t
/-- Such an instruction takes a trap. -/
def Traps (i : Instr) (s : State) (cause : Nat) (val : Word) : Prop := ∃ log, exec i s = .next ((s.noting log).trapC cause val)
/-- The bundle waits: nothing but the wait, its order and the captured sources has changed. -/
def Waits (i : Instr) (s : State) (w : Wait) : Prop := exec i s = .next (s.park w)

/-! ### Where an access is performed -/

/-- The issuing strand's TLB maps an address with the rights needed, to a physical address it may use (R24, R178). -/
def mapsTo (s : State) (va : Word) (n : Need) (pa : Nat) : Bool :=
  !s.x.me.isCtl && nfield va.toNat 56 8 == 0
    && (match tlbFind (s.tl s.here).tlb s.x.me.pasture va.toNat with
        | some e => (match s.checkEntry s.x.me.pasture e va.toNat n with | .inl q => q == pa | .inr _ => false)
        | none => false)
/-- The home of n bytes is the strand's own tile; no hold and no error stands in the way (R95, R100, R181, R213, R287). -/
def isLocal (s : State) (pa n : Nat) : Bool :=
  s.homeOf pa == .tile s.here && !s.seqHolds pa n && !s.bankHolds (localOf pa) n && !s.badAt (localOf pa) n
/-- A local access of n bytes at an aligned address. -/
def localAccess (s : State) (va : Word) (n : Nat) (need : Need) (pa : Nat) : Bool :=
  va.toNat % n == 0 && mapsTo s va need pa && isLocal s pa n
/-- No word of n bytes holds a correctable error, so that a read counts none (R213). -/
def clean (s : State) (a n : Nat) : Bool := s.corr.all (fun w => !(wordsOf a n).contains w)

end Sys2Proof.Machine
end

