-- ==== Sys2Proof/Certificates/Slice0/Obligations.lean ====
section
/-! DEFINITION. The statements for the provers. Each names the rules of spec/ it formalises; the words of an instruction are
written out from the encoding rules, and a result is given in numbers wherever the rule gives it so. -/

open Sys2Proof Sys2Proof.Machine

/-! ### Words -/

namespace Sys2Proof

/-- An A-slot word in AR format (R45). -/
def arWord (major : Nat) (d a b : RegNo) (f : Nat) : Nat :=
  major * 2 ^ 26 + d.toNat * 2 ^ 22 + a.toNat * 2 ^ 18 + b.toNat * 2 ^ 14 + f

/-- An A-slot word in AI format (R45). -/
def aiWord (major : Nat) (d a : RegNo) (i : Nat) : Nat := major * 2 ^ 26 + d.toNat * 2 ^ 22 + a.toNat * 2 ^ 18 + i

end Sys2Proof

/-- Encode and decode agree (R41 to R49, R60, R64, R67, R70): every well-formed instruction that has a word is read back from
it, with every operand at every value. -/
def Obligations.EncodedInstructionsDecode : Prop :=
  ∀ i : Instr, i.wf = true → encode i ≠ .event → decodeOne (encode i) = .ok i

/-- Decode and encode agree the other way (R10, R60): a word that is accepted is the word of the instruction it stands for, so
that no reserved bit is ignored; and what is accepted is well formed. -/
def Obligations.AcceptedWordsAreEncodings : Prop :=
  ∀ w0 w1 : Nat, w0 < 2 ^ 32 → w1 < 2 ^ 32 → ∀ i : Instr,
    (w0 < 2 ^ 31 → decodeC w0 = .ok i → i.wf = true ∧ encode i = .c w0)
    ∧ (decodeA w1 = .ok i → i.wf = true ∧ encode i = .a w1)
    ∧ (2 ^ 31 ≤ w0 → decodeLong w0 w1 = .ok i → i.wf = true ∧ encode i = .long w0 w1)

/-! ### Integer instructions -/

/-- R155: the code of each three-register instruction, its result in numbers, and that it changes nothing but its destination
(a destination of g0 is discarded). -/
def Obligations.IntegerResults : Prop :=
  ∀ (s : State) (d ra rb : RegNo),
    let a := s.g ra
    let b := s.g rb
    let n := b.toNat % 64
    let op (f : Nat) (i : Instr) (v : Word) : Prop := decodeA (arWord 1 d ra rb f) = .ok i ∧ AWrites i s d v s.x.turns
    let op1 (f : Nat) (i : Instr) (v : Word) : Prop :=
      decodeA (arWord 1 d ra 0 f) = .ok i ∧ AWrites i s d v s.x.turns
        ∧ (rb ≠ 0 → decodeA (arWord 1 d ra rb f) = .error .reserved)
    op 0 (.add d ra rb) (wd (a.toNat + b.toNat))
    ∧ op 1 (.sub d ra rb) (BitVec.ofInt 64 (a.toInt - b.toInt))
    ∧ op 2 (.and d ra rb) (a &&& b)
    ∧ op 3 (.or d ra rb) (a ||| b)
    ∧ op 4 (.xor d ra rb) (a ^^^ b)
    ∧ op 5 (.andn d ra rb) (a &&& ~~~ b)
    ∧ op 6 (.shl d ra rb) (wd (a.toNat * 2 ^ n))
    ∧ op 7 (.shr d ra rb) (wd (a.toNat / 2 ^ n))
    ∧ op 8 (.sra d ra rb) (BitVec.ofInt 64 (a.toInt / 2 ^ n))
    ∧ op 9 (.rot d ra rb) (wd (a.toNat * 2 ^ n + a.toNat / 2 ^ (64 - n)))
    ∧ op 10 (.mul d ra rb) (wd (a.toNat * b.toNat))
    ∧ op 11 (.mulh d ra rb) (BitVec.ofInt 64 (a.toInt * b.toInt / 2 ^ 64))
    ∧ op 12 (.mulhn d ra rb) (wd (a.toNat * b.toNat / 2 ^ 64))
    ∧ op 13 (.min d ra rb) (BitVec.ofInt 64 (min a.toInt b.toInt))
    ∧ op 14 (.max d ra rb) (BitVec.ofInt 64 (max a.toInt b.toInt))
    ∧ op 15 (.minn d ra rb) (wd (min a.toNat b.toNat))
    ∧ op 16 (.maxn d ra rb) (wd (max a.toNat b.toNat))
    ∧ (∃ z, op1 17 (.clz d ra) (wd z)
        ∧ (if a = 0 then z = 64 else z ≤ 63 ∧ 2 ^ (63 - z) ≤ a.toNat ∧ a.toNat < 2 ^ (64 - z)))
    ∧ (∃ z, op1 18 (.ctz d ra) (wd z)
        ∧ (if a = 0 then z = 64 else 2 ^ z ∣ a.toNat ∧ ¬ 2 ^ (z + 1) ∣ a.toNat))
    ∧ op1 19 (.popc d ra) (wd ((List.range 64).filter (fun i => a.getLsbD i)).length)
    ∧ op 20 (.slt d ra rb) (if a.toInt < b.toInt then 1 else 0)
    ∧ op 21 (.sltn d ra rb) (if a.toNat < b.toNat then 1 else 0)
    ∧ op 22 (.seq d ra rb) (if a = b then 1 else 0)

/-- R156: the four divisions, their corner cases, their 8 turns, and that they raise no flag and no trap. -/
def Obligations.DivisionResults : Prop :=
  ∀ (s : State) (d ra rb : RegNo),
    let a := s.g ra
    let b := s.g rb
    let op (f : Nat) (i : Instr) (v : Word) : Prop := decodeA (arWord 2 d ra rb f) = .ok i ∧ AWrites i s d v 8
    op 0 (.div d ra rb) (if b = 0 then BitVec.ofInt 64 (-1) else BitVec.ofInt 64 (a.toInt.tdiv b.toInt))
    ∧ op 1 (.divn d ra rb) (if b = 0 then BitVec.ofInt 64 (-1) else wd (a.toNat / b.toNat))
    ∧ op 2 (.rem d ra rb) (if b = 0 then a else BitVec.ofInt 64 (a.toInt.tmod b.toInt))
    ∧ op 3 (.remn d ra rb) (if b = 0 then a else wd (a.toNat % b.toNat))

/-- R157: BEXT and BINS bit by bit, their code, and the field that reaches beyond bit 63, which is ILLEGAL. -/
def Obligations.BitFieldResults : Prop :=
  ∀ (s : State) (d ra : RegNo) (l p : BitVec 6),
    let len := l.toNat + 1
    let pos := p.toNat
    let word (h : Nat) : Nat := arWord 3 d ra 0 (h * 2 ^ 12 + l.toNat * 2 ^ 6 + pos)
    (64 < pos + len → decodeA (word 0) = .error .illegalField ∧ decodeA (word 1) = .error .illegalField)
    ∧ decodeA (word 2) = .error .unassigned ∧ decodeA (word 3) = .error .unassigned
    ∧ (pos + len ≤ 64 →
        decodeA (word 0) = .ok (.bext d ra l p) ∧ decodeA (word 1) = .ok (.bins d ra l p)
        ∧ (∃ v, AWrites (.bext d ra l p) s d v s.x.turns
            ∧ ∀ i, i < 64 → v.getLsbD i = (decide (i < len) && (s.g ra).getLsbD (pos + i)))
        ∧ (∃ v, AWrites (.bins d ra l p) s d v s.x.turns
            ∧ ∀ i, i < 64 → v.getLsbD i =
                (if pos ≤ i ∧ i < pos + len then (s.g ra).getLsbD (i - pos) else (s.g d).getLsbD i)))

namespace Sys2Proof

/-- R158: SEL, all three sources read before the write. -/
def SelectResult : Prop :=
  ∀ (s : State) (d ra rb rc : RegNo),
    decodeA (arWord 4 d ra rb rc.toNat) = .ok (.sel d ra rb rc)
    ∧ AWrites (.sel d ra rb rc) s d (if s.g rc ≠ 0 then s.g ra else s.g rb) s.x.turns

/-- R159: the immediate forms, with their codes. -/
def ImmediateResults : Prop :=
  ∀ (s : State) (d ra : RegNo) (i : BitVec 18) (h : BitVec 6),
    let a := s.g ra
    let op (f : Nat) (i : Instr) (w v : Word) : Prop := decodeA (aiWord f d ra w.toNat) = .ok i ∧ AWrites i s d v s.x.turns
    op 5 (.addi d ra i) (zx i) (BitVec.ofInt 64 (a.toInt + i.toInt))
    ∧ op 6 (.andi d ra i) (zx i) (a &&& BitVec.ofInt 64 i.toInt)
    ∧ op 7 (.ori d ra i) (zx i) (a ||| BitVec.ofInt 64 i.toInt)
    ∧ op 8 (.xori d ra i) (zx i) (a ^^^ BitVec.ofInt 64 i.toInt)
    ∧ op 9 (.shli d ra h) (zx h) (wd (a.toNat * 2 ^ h.toNat))
    ∧ op 9 (.shri d ra h) (wd (2 ^ 16 + h.toNat)) (wd (a.toNat / 2 ^ h.toNat))
    ∧ op 9 (.srai d ra h) (wd (2 ^ 17 + h.toNat)) (BitVec.ofInt 64 (a.toInt / 2 ^ h.toNat))
    ∧ decodeA (aiWord 10 d 0 i.toNat) = .ok (.movi d i)
    ∧ (ra ≠ 0 → decodeA (aiWord 10 d ra i.toNat) = .error .reserved)
    ∧ AWrites (.movi d i) s d (BitVec.ofInt 64 i.toInt) s.x.turns

end Sys2Proof

/-- R158 and R159: SEL and the immediate forms. -/
def Obligations.SelectAndImmediates : Prop := SelectResult ∧ ImmediateResults

/-! ### Long immediates, addresses, branches -/

namespace Sys2Proof

/-- A C-slot word in CI format, or word 0 of a long instruction with the same register fields (R44, R46). -/
def ciWord (major : Nat) (d a : RegNo) (i : Nat) : Nat := major * 2 ^ 25 + d.toNat * 2 ^ 21 + a.toNat * 2 ^ 17 + i

/-- Word 0 of a long instruction (R46). -/
def longWord (op : Nat) (d a : RegNo) : Nat := 2 ^ 31 + ciWord op d a 0

/-- A C-slot word in CR format (R44, R47). -/
def crWord (major : Nat) (d a b : RegNo) (sub aux : Nat) : Nat := ciWord major d a (b.toNat * 2 ^ 13 + sub * 2 ^ 9 + aux)

/-- A C-slot instruction that answers a next state with register d written and PC at another bundle; all else as before. -/
def Links (i : Instr) (s : State) (d : RegNo) (v : Word) (pc : BitVec 53) : Prop :=
  ∃ t : State, exec i s = .next t ∧ RegSet s.x.me t.x.me d v
    ∧ t = { s with x := { s.x with me := s.x.me.done t.x.me.g pc } } ∧ SameMem s t

/-- The conditions of R58, in numbers. -/
def Holds (c : BitVec 3) (a b : Word) : Prop :=
  match c.toNat with
  | 0 => a = b
  | 1 => a ≠ b
  | 2 => a.toInt < b.toInt
  | 3 => b.toInt ≤ a.toInt
  | 4 => a.toNat < b.toNat
  | 5 => b.toNat ≤ a.toNat
  | 6 => ∃ i, i < 64 ∧ a.getLsbD i = true ∧ b.getLsbD i = true
  | _ => ∀ i, i < 64 → ¬ (a.getLsbD i = true ∧ b.getLsbD i = true)

/-- R166 and R168: LEA in both forms, LIW and LIH, with their codes; none of them ever traps. -/
def AddressesAndLongImmediates : Prop :=
  ∀ (s : State) (d a : RegNo) (i : BitVec 17) (w : W32),
    decodeC (ciWord 1 d a i.toNat) = .ok (.lea d a i)
    ∧ CWrites (.lea d a i) s d (BitVec.ofInt 64 ((s.g a).toInt + i.toInt))
    ∧ decodeLong (longWord 5 d a) w.toNat = .ok (.leaLong d a w)
    ∧ CWrites (.leaLong d a w) s d (BitVec.ofInt 64 ((s.g a).toInt + w.toInt))
    ∧ decodeLong (longWord 0 d 0) w.toNat = .ok (.liw d w)
    ∧ CWrites (.liw d w) s d (BitVec.ofInt 64 w.toInt)
    ∧ decodeLong (longWord 1 d 0) w.toNat = .ok (.lih d w)
    ∧ CWrites (.lih d w) s d (wd ((s.g d).toNat % 2 ^ 32 + w.toNat * 2 ^ 32))

/-- R57, R58, R59, R169, R173 and R62: where a bundle goes next, when a link is written, and the two NOPs. -/
def BranchesAndSkips : Prop :=
  ∀ (s : State) (a b : RegNo) (c : BitVec 3) (k : BitVec 2) (o14 : BitVec 14) (o25 : BitVec 25) (o32 : W32)
    (i12 : BitVec 12),
    let pc := s.x.me.pc
    let rel (o : Int) : BitVec 53 := BitVec.ofInt 53 (pc.toNat + o)
    let link : Word := wd ((pc.toNat + 1) % 2 ^ 53 * 8)
    Goes .nopC s (pc + 1)
    ∧ exec .nopA s = .next s
    ∧ Goes (.br o25) s (rel o25.toInt)
    ∧ Goes (.brLong o32) s (rel o32.toInt)
    ∧ Links (.call o25) s 15 link (rel o25.toInt)
    ∧ Links (.calll o32) s 15 link (rel o32.toInt)
    ∧ (Holds c (s.g a) (s.g b) → Goes (.brc a b c o14) s (rel o14.toInt) ∧ Goes (.cmps a b c k) s (pc + 1))
    ∧ (¬ Holds c (s.g a) (s.g b) → Goes (.brc a b c o14) s (pc + 1) ∧ Goes (.cmps a b c k) s (rel (1 + k.toNat)))
    ∧ (Holds c (s.g a) (sx i12) → Goes (.cmpsi a c k i12) s (pc + 1))
    ∧ (¬ Holds c (s.g a) (sx i12) → Goes (.cmpsi a c k i12) s (rel (1 + k.toNat)))

/-- R57 and R169: jumps to a byte address. A misaligned target is ALIGN, before XLATE; neither writes a link. -/
def JumpsToByteAddresses : Prop :=
  ∀ (s : State) (d a : RegNo) (i : BitVec 17) (t : Word),
    let link : Word := wd ((s.x.me.pc.toNat + 1) % 2 ^ 53 * 8)
    let outcome (j : Instr) (ok : Prop) : Prop :=
      (t.toNat % 8 ≠ 0 → exec j s = .next (s.trapC cAlign t))
      ∧ (t.toNat % 8 = 0 → 2 ^ 56 ≤ t.toNat → exec j s = .next (s.trapC cXlate t))
      ∧ (t.toNat % 8 = 0 → t.toNat < 2 ^ 56 → ok)
    let pc := BitVec.ofNat 53 (t.toNat / 8)
    (t = s.g a → outcome (.jr a) (Goes (.jr a) s pc))
    ∧ (t = s.g 15 → outcome .ret (Goes .ret s pc))
    ∧ (t = s.g a + sx i → outcome (.brl d a i) (Links (.brl d a i) s d link pc))

end Sys2Proof

/-- R57 to R59, R62, R169, R173: every branch, jump, skip and NOP. -/
def Obligations.ControlTransfers : Prop := BranchesAndSkips ∧ JumpsToByteAddresses

namespace Sys2Proof

/-- R167: HOMEOF returns DEVICE, REGION and TILE of a mapped address and whether the device is this one, whatever the rights
of the page and whatever the region. -/
def HomeofResult : Prop :=
  ∀ (s : State) (d a : RegNo) (pa : Nat), mapsTo s (s.g a) needNone pa = true →
    CWrites (.homeof d a) s d
      (wd (pa / 2 ^ 29 % 2 ^ 27 + if pa / 2 ^ 45 % 2 ^ 11 = s.devnum.toNat then 2 ^ 27 else 0))

end Sys2Proof

/-- R166 to R168: addresses, long immediates and homes. -/
def Obligations.AddressesAndHomes : Prop := AddressesAndLongImmediates ∧ HomeofResult

/-! ### Control registers and time -/

/-- R50, R51, R170: what CSRR returns on a strand core, by number, as it stood before the bundle; numbers 0x80 up are PRIV and
an unlisted number is ILLEGAL. -/
def Obligations.ControlRegisterReads : Prop :=
  ∀ (s : State) (d : RegNo), s.x.me.isCtl = false → s.x.src.isCtl = false →
    let st := s.x.src
    let gives (n : Nat) (v : Word) : Prop := CWrites (.csrr d (BitVec.ofNat 8 n)) s d v
    gives 0x00 (wd (8 * st.pc.toNat))
    ∧ (∃ v, gives 0x01 v ∧ ∀ i, i < 64 → v.getLsbD i = (if i = 18 then st.pinReason else st.sw.getLsbD i))
    ∧ gives 0x02 st.vt ∧ gives 0x03 st.fmt ∧ gives 0x04 (zx st.sca) ∧ gives 0x05 (zx st.scb)
    ∧ gives 0x06 (zx st.budget) ∧ gives 0x07 (zx st.deadline) ∧ gives 0x08 (zx st.grp) ∧ gives 0x09 st.sid
    ∧ gives 0x0A (wd st.tile)
    ∧ gives 0x10 st.utv ∧ gives 0x11 st.utc ∧ gives 0x12 st.utpc ∧ gives 0x13 st.utval
    ∧ (∀ n : BitVec 8, 0x80 ≤ n.toNat → exec (.csrr d n) s = .next s.privC)
    ∧ (∀ n : BitVec 8, (0x0B ≤ n.toNat ∧ n.toNat < 0x10) ∨ (0x14 ≤ n.toNat ∧ n.toNat < 0x80) →
        exec (.csrr d n) s = .next s.illegalC)

/-- R9, R50, R51, R53, R124, R170: what CSRW changes on a strand core: the named register alone, its writable fields alone;
the flags that the A slot raised are ORed in; read-only registers ignore it; a rounding mode of 5, 6 or 7 is PRIV and changes
nothing else. -/
def Obligations.ControlRegisterWrites : Prop :=
  ∀ (s : State) (a : RegNo), s.x.me.isCtl = false →
    let st := s.x.me
    let v := s.g a
    let becomes (n : Nat) (st' : Strand) : Prop := Becomes (.csrw a (BitVec.ofNat 8 n)) s st'
    (v.toNat / 2 ^ 10 % 8 < 5 → ∃ sw : Word, becomes 0x01 { st with sw := sw }
        ∧ ∀ i, i < 64 → sw.getLsbD i = ((if i < 14 then v.getLsbD i else st.sw.getLsbD i) || (decide (i < 5) && s.x.aflags.getLsbD i)))
    ∧ (5 ≤ v.toNat / 2 ^ 10 % 8 → exec (.csrw a 0x01) s = .next s.privC)
    ∧ becomes 0x02 { st with vt := v }
    ∧ (∃ f : Word, becomes 0x03 { st with fmt := f }
        ∧ ∀ i, i < 64 → f.getLsbD i = (decide (10 ≤ i ∧ i < 32) && v.getLsbD i
            && !(decide (13 ≤ i ∧ i < 16) && (v.toNat / 2 ^ 13 % 8 == 5 || v.toNat / 2 ^ 13 % 8 == 6))))
    ∧ becomes 0x04 { st with sca := v.setWidth 32 }
    ∧ becomes 0x05 { st with scb := v.setWidth 32 }
    ∧ becomes 0x10 { st with utv := wd (v.toNat / 8 * 8) }
    ∧ becomes 0x11 { st with utc := wd (v.toNat % 2 ^ 10) }
    ∧ becomes 0x12 { st with utpc := v } ∧ becomes 0x13 { st with utval := v }
    ∧ (∀ n ∈ [0x00, 0x06, 0x07, 0x08, 0x09, 0x0A], becomes n st)
    ∧ (∀ n : BitVec 8, 0x80 ≤ n.toNat → exec (.csrw a n) s = .next s.privC)
    ∧ (∀ n : BitVec 8, (0x0B ≤ n.toNat ∧ n.toNat < 0x10) ∨ (0x14 ≤ n.toNat ∧ n.toNat < 0x80) →
        exec (.csrw a n) s = .next s.illegalC)

/-- R418 to R420: the supervisor registers of a controller core, read and written by CSRR and CSRW; the strand registers it
has not read 0; SRET outside an event is ILLEGAL, and otherwise returns to SV_EPC with INH 0 (R433). -/
def Obligations.SupervisorRegisters : Prop :=
  ∀ (s : State) (d a : RegNo) (p c : Nat), s.x.me.place = .ctl p c → s.x.src.place = .ctl p c →
    let v := (s.ctl p c).sv
    let x := s.g a
    let gives (n : Nat) (w : Word) : Prop := CWrites (.csrr d (BitVec.ofNat 8 n)) s d w
    let puts (n : Nat) (w : Sv) : Prop :=
      exec (.csrw a (BitVec.ofNat 8 n)) s =
        .next { s with ctls := tset s.ctls (2 * p + c) { s.ctl p c with sv := w }, x := { s.x with me := s.x.me.advance } }
    gives 0x80 v.vec ∧ gives 0x81 v.epc ∧ gives 0x82 v.cause ∧ gives 0x83 v.sid ∧ gives 0x84 v.spc ∧ gives 0x85 v.val
    ∧ gives 0x86 (zx v.past) ∧ gives 0x87 (zx v.asp)
    ∧ gives 0x88 (wd (p * 256 + c * 2 + if v.inh then 1 else 0)) ∧ gives 0x89 (zx s.devnum)
    ∧ gives 0x8A (wd (min 256 (s.pad p).svq.length))
    ∧ gives 0x06 0 ∧ gives 0x07 0 ∧ gives 0x08 0 ∧ gives 0x09 0
    ∧ puts 0x80 { v with vec := wd (x.toNat / 8 * 8) } ∧ puts 0x81 { v with epc := wd (x.toNat / 8 * 8) }
    ∧ puts 0x82 { v with cause := wd (x.toNat / 2 ^ 16 % 4 * 2 ^ 16 + x.toNat % 2 ^ 9) }
    ∧ puts 0x83 { v with sid := x } ∧ puts 0x84 { v with spc := x } ∧ puts 0x85 { v with val := x }
    ∧ puts 0x86 { v with past := x.setWidth 8 }
    ∧ puts 0x87 { v with asp := if x.toNat % 256 < 56 then x.setWidth 8 else 0xFF, tlb := [] }
    ∧ puts 0x88 v ∧ puts 0x89 v ∧ puts 0x8A v
    ∧ (v.inh = false → exec .sret s = .next s.illegalC)
    ∧ (v.inh = true → exec .sret s =
        .next { s with ctls := tset s.ctls (2 * p + c) { s.ctl p c with sv := { v with inh := false } }
                       x := { s.x with me := s.x.me.jump (BitVec.ofNat 53 (v.epc.toNat / 8)) } })

/-- R37, R171: TIME returns pasture time, or the device time base on a controller core; time does not go back as it passes,
and once a stamp has been received a tile's pasture time is later than the stamp. That a tile below the epoch reads 0 (log 69), its free
skew and its half rate (log 10) are the model's choices. -/
def Obligations.TimeRuns : Prop :=
  (∀ (s : State) (d : RegNo), s.x.me.isCtl = false →
      CWrites (.time d) s d (wd (s.tileTime s.x.me.tile - (s.pas s.x.me.pasture).epoch)))
  ∧ (∀ (s : State) (d : RegNo), s.x.me.isCtl = true → CWrites (.time d) s d (wd (s.tileTime s.x.me.tile)))
  ∧ (∀ (s : State) (p t n : Nat), s.pasTime p t ≤ (s.tick n).pasTime p t)
  ∧ (∀ (s : State) (p t stamp : Nat), stamp < (s.receive p t stamp).pasTime p t
      ∧ s.pasTime p t ≤ (s.receive p t stamp).pasTime p t)

/-! ### Traps -/

namespace Sys2Proof

/-- R52, R54 to R56, R148, R149: a trap of a strand that has a handler and is not in it. The handler is entered with UTPC, UTC,
UTVAL, INTRAP 1 and FOLLOWING 0; the followers leave; nothing else changes, but that an uncorrectable error posts its event
(R214). The grace mark beside BUDGET is the model's own (log 17). -/
def TrapEntersHandler : Prop :=
  ∀ (s : State) (slotA : Bool) (cause : Nat) (val : Word), s.x.me.isCtl = false → s.x.me.hslot = false →
    s.x.me.inTrap = false → s.x.me.utv ≠ 0 → cause ≠ cHandlerBudget → cause ≠ cHandlerPark →
    let st := s.x.me
    let s0 : State := { s with x := { s.x with trap := some { cause := cause, val := val } } }
    let u := if cause = cMemerr then s0.post st.pasture st.tile cMemerr st.evClass st.tile st.sid val else s0
    let t := s.trapAt slotA cause val
    (∃ sw : Word, t = { (u.dropFollowers st.sid) with x := { u.x with me := { st with
        sw := sw, utpc := wd (8 * st.pc.toNat)
        utc := wd ((if slotA then 512 else 0) + (if s.x.aDone then 256 else 0) + cause), utval := val
        pc := BitVec.ofNat 53 (st.utv.toNat / 8)
        budget := if cause = cBudget then 256 else st.budget, grace := if cause = cBudget then true else st.grace
        follow := none, wait := none, cOnly := false, pend := none, arrived := false } } }
      ∧ ∀ i, i < 64 → sw.getLsbD i = (if i = 21 then true else if i = 22 then false else st.sw.getLsbD i))
    ∧ (cause ≠ cMemerr → SameMem s t)

/-- R149, R150, R421: a trap of a handler slot, of a strand in its handler or without one, or of a handler's budget or parking
stops the strand: UTV, UTC, UTPC, UTVAL, PC and every register stand, and the supervisor of its paddock receives the cause, the
PC, the value and CONLY. -/
def TrapEscalates : Prop :=
  ∀ (s : State) (slotA : Bool) (cause : Nat) (val : Word), s.x.me.isCtl = false →
    (s.x.me.hslot = true ∨ s.x.me.inTrap = true ∨ s.x.me.utv = 0 ∨ cause = cHandlerBudget ∨ cause = cHandlerPark) →
    cause ≠ cMemerr →
    let st := s.x.me
    let t := s.trapAt slotA cause val
    let q := paddockOf st.tile
    (∃ sw : Word, t.x = { s.x with trap := some { cause := cause, val := val }, me := { st with
        sw := sw, stop := some .escalated, follow := none, wait := none, cOnly := false, pend := none, arrived := false } }
      ∧ ∀ i, i < 64 → sw.getLsbD i = (if i = 22 then false else st.sw.getLsbD i))
    ∧ t.paddocks = tset s.paddocks q { s.pad q with svq := (s.pad q).svq ++
        [{ cause := wd (2 ^ 16 + (if s.x.aDone then 256 else 0) + cause), sid := st.sid, spc := wd (8 * st.pc.toNat)
           val := val, past := st.pasture }] }
    ∧ t.strands = (s.dropFollowers st.sid).strands ∧ t.tiles = s.tiles ∧ t.pastures = s.pastures ∧ t.cmds = s.cmds
    ∧ t.mesh = s.mesh ∧ t.unacked = s.unacked ∧ SameMem s t

end Sys2Proof

/-- R148 to R150: taking a trap. -/
def Obligations.TakingATrap : Prop := TrapEntersHandler ∧ TrapEscalates

/-- R151, R152, R172, R433 and R62: TRAP, the return from a handler and the trap passed on. URET of a bad UTPC traps while
INTRAP is still 1, ALIGN before XLATE. -/
def Obligations.TrapAndReturn : Prop :=
  ∀ (s : State) (i : BitVec 8), s.x.me.isCtl = false →
    let st := s.x.me
    decodeC (crWord 0 0 0 0 4 i.toNat) = .ok (.trap i)
    ∧ exec (.trap i) s = .next (s.trapC cTrap (zx i))
    ∧ (st.inTrap = false → exec .uret s = .next s.illegalC ∧ exec .udecline s = .next s.illegalC)
    ∧ (st.inTrap = true → st.utpc.toNat % 8 ≠ 0 → exec .uret s = .next (s.trapC cAlign st.utpc))
    ∧ (st.inTrap = true → st.utpc.toNat % 8 = 0 → 2 ^ 56 ≤ st.utpc.toNat → exec .uret s = .next (s.trapC cXlate st.utpc))
    ∧ (st.inTrap = true → st.utpc.toNat % 8 = 0 → st.utpc.toNat < 2 ^ 56 → ∃ sw : Word,
        exec .uret s = .next { s with x := { s.x with me := { st with
          sw := sw, pc := BitVec.ofNat 53 (st.utpc.toNat / 8), wait := none, cOnly := st.utc.getLsbD 8, pend := none } } }
        ∧ ∀ j, j < 64 → sw.getLsbD j = (if j = 21 then false else st.sw.getLsbD j))
    ∧ (st.inTrap = true → ∃ t : State, exec .udecline s = .next t
        ∧ t.x.me.stop = some .escalated ∧ t.x.me.inTrap = true ∧ t.x.me.pc = st.pc ∧ t.x.me.g = st.g
        ∧ t.x.me.utc = st.utc ∧ t.x.me.utpc = st.utpc ∧ t.x.me.utval = st.utval ∧ SameMem s t
        ∧ (t.pad (paddockOf st.tile)).svq = (s.pad (paddockOf st.tile)).svq ++
            [{ cause := wd (2 ^ 16 + (if st.utc.getLsbD 8 then 256 else 0) + st.utc.toNat % 256), sid := st.sid
               spc := st.utpc, val := st.utval, past := st.pasture }])

/-- R61, R148, R410, R418: privilege. A system instruction on a strand core is PRIV; FOLLOW and YIELD in a handler slot are
ILLEGAL; and a bundle whose instruction the issuing agent may not execute is ILLEGAL. That it is charged one turn is the model's reading
(log 23). -/
def Obligations.Privilege : Prop :=
  ∀ (s : State) (a b : RegNo), s.x.me.isCtl = false →
    (∀ i ∈ [Instr.mint a b, .tlbinv a b, .gstop a, .ctxld a b, .ctxst a b, .sret, .resume, .kill, .hold, .go, .drain, .reset,
        .create, .destroy, .qctl, .post, .shrink, .lost], exec i s = .next s.privC)
    ∧ (s.x.me.hslot = true → exec (.follow a) s = .next s.illegalC ∧ exec .yield s = .next s.illegalC)
    ∧ (∀ c, s.x.w0.toNat < 2 ^ 31 → decodeC s.x.w0.toNat = .ok c → s.permits false c = false →
        runBundle s = .next ((s.charge 1).countIssue.trapAt false cIllegal (zx s.x.w0)))

/-! ### Following -/

namespace Sys2Proof

/-- R145: the strand that FOLLOW of slot n follows stands in a slot 0 to 13 of the issuing strand's core, not the issuing strand's
own, with FOLLOWING = 0 and INTRAP = 0; and the issuing strand has INTRAP = 0. -/
def Leads (s : State) (n : Nat) (l : Strand) : Prop :=
  n ≤ 13 ∧ n ≠ s.x.me.slotNo ∧ s.x.me.inTrap = false
    ∧ s.strands.find? (fun st => st.place == .slot s.here s.x.me.core n) = some l ∧ l.following = false ∧ l.inTrap = false

/-- R145, R147: FOLLOW waits for the leader's stream, FOLLOWING set and PC at the next bundle, where the conditions hold, and
otherwise has no effect; LEAVE ends following, or every following of the strand. -/
def FollowAndLeave : Prop :=
  (∀ (s : State) (a : RegNo) (l : Strand), s.x.me.hslot = false → Leads s (s.g a).toNat l →
      ∃ t sw, exec (.follow a) s = .next t
        ∧ t.x.me = { s.x.me with
            sw := sw, pc := s.x.me.pc + 1, cOnly := false, pend := none, follow := some { leader := l.sid }
            wait := some .follow, parkedAt := s.ids }
        ∧ (∀ i, i < 64 → sw.getLsbD i = (if i = 22 then true else s.x.me.sw.getLsbD i)) ∧ SameMem s t)
  ∧ (∀ (s : State) (a : RegNo), s.x.me.hslot = false → (¬ ∃ l, Leads s (s.g a).toNat l) →
      Goes (.follow a) s (s.x.me.pc + 1))
  ∧ (∀ s : State, s.x.me.following = true → ∃ (t : State) (sw : Word), exec .leave s = .next t
      ∧ t = { s with x := { s.x with me := { s.x.me with
          sw := sw, follow := none, pc := s.x.me.pc + 1, wait := none, cOnly := false, pend := none } } }
      ∧ ∀ i, i < 64 → sw.getLsbD i = (if i = 22 then false else s.x.me.sw.getLsbD i))
  ∧ (∀ s : State, s.x.me.following = false → ∃ t : State, exec .leave s = .next t
      ∧ t.x.me = s.x.me.done s.x.me.g (s.x.me.pc + 1) ∧ SameMem s t
      ∧ t.strands = s.strands.map (fun f => if f.follow.any (·.leader == s.x.me.sid) then f.leave else f))

/-- What a follower that leaves keeps and loses: it goes on alone at its own PC. -/
def Left (f g : Strand) : Prop :=
  g.follow = none ∧ g.following = false ∧ g.wait ≠ some .follow ∧ g.g = f.g ∧ g.pc = f.pc

/-- R145, R146: what the issue of its leader's bundle at p does to a follower. One that has not joined joins where p is its own
PC, and goes on; it leaves when 1,024 bundles have gone by without that. One that has joined has p behind what it has not issued
yet, and leaves when that would be more than 16 bundles, or when it has issued all of it and p is not its own PC. Any
other strand hears nothing. -/
def LeaderIsHeard : Prop :=
  (∀ (f : Strand) (k : Follow) (p : BitVec 53), f.follow = some k → k.joined = false → f.wait = some .follow →
      (f.pc = p → f.hear k.leader p = { f with follow := some { k with joined := true, stream := [p] }, wait := none })
      ∧ (f.pc ≠ p → k.seen + 1 < 1024 → f.hear k.leader p = { f with follow := some { k with seen := k.seen + 1 } })
      ∧ (f.pc ≠ p → 1024 ≤ k.seen + 1 → Left f (f.hear k.leader p)))
  ∧ (∀ (f : Strand) (k : Follow) (p : BitVec 53), f.follow = some k → k.joined = true →
      (16 ≤ k.stream.length → Left f (f.hear k.leader p))
      ∧ (k.stream = [] → f.pend = none → f.pc ≠ p → Left f (f.hear k.leader p))
      ∧ (k.stream.length < 16 → k.stream ≠ [] ∨ f.pc = p →
          f.hear k.leader p = { f with follow := some { k with stream := k.stream ++ [p] } }))
  ∧ (∀ (f : Strand) (sid : Word) (p : BitVec 53), (∀ k, f.follow = some k → k.leader ≠ sid) → f.hear sid p = f)
  ∧ (∀ (s : State) (st : Strand) (f : Follow), s.strandOf s.inp.sid = some st → st.follow = some f → f.joined = false →
      1024 ≤ f.seen → ∃ (t : State) (st' : Strand), exec .followTimeout s = .next t ∧ t.strandOf s.inp.sid = some st'
        ∧ Left st st' ∧ SameMem s t)

end Sys2Proof

/-- R145, R147: FOLLOW joins the strand of another slot of the core where the conditions hold, and otherwise has no effect;
LEAVE ends following, or every following of the strand; a follower hears its leader's bundles, and one that has waited for 1,024 of
them leaves. -/
def Obligations.Following : Prop := FollowAndLeave ∧ LeaderIsHeard

/-! ### Memory -/

namespace Sys2Proof

/-- A read: register d holds v and PC is the next bundle; of the rest of the machine only what a correctable error leaves
(R213) differs, so memory stands as it was. -/
def ReadsInto (i : Instr) (s : State) (key n : Nat) (d : RegNo) (v : Word) : Prop :=
  ∃ t : State, exec i s = .next t ∧ RegSet s.x.me t.x.me d v
    ∧ t = { (s.correct key n) with x := { s.x with me := s.x.me.done t.x.me.g (s.x.me.pc + 1) } } ∧ SameMem s t

/-- What a write at a home leaves alone: everything but memory, the strands that wait on the written words, and the records of
errors, of write-backs and of fetches (R180, R205, R210, R213). -/
def KeepsRest (s t : State) : Prop :=
  t.tiles = s.tiles ∧ t.ctls = s.ctls ∧ t.paddocks = s.paddocks ∧ t.pastures = s.pastures ∧ t.empties = s.empties
    ∧ t.cmds = s.cmds ∧ t.mesh = s.mesh ∧ t.unacked = s.unacked ∧ t.dropped = s.dropped ∧ t.resend = s.resend
    ∧ t.seqNext = s.seqNext ∧ t.seqExp = s.seqExp ∧ t.now = s.now ∧ t.feat2 = s.feat2 ∧ t.devnum = s.devnum
    ∧ t.strands.map (·.sid) = s.strands.map (·.sid)

/-- A store of n bytes of v at a local address: those bytes alone change, and of the issuing agent PC alone; one of less than a word
reads the word, and counts its correctable error (R213, R214). -/
def StoresAt (i : Instr) (s : State) (key n v : Nat) : Prop :=
  ∃ t : State, exec i s = .next t ∧ memRead t.mem key n = v % 2 ^ (8 * n) ∧ SameMemBut s t key n
    ∧ t.x = { s.x with me := s.x.me.done s.x.me.g (s.x.me.pc + 1) } ∧ KeepsRest (if n % 8 = 0 then s else s.correct key n) t

end Sys2Proof

/-- Reading one byte after a write gives what was written, and every other byte what it held; writing keeps the canonical form
of memory (R6, R79). -/
def Obligations.MemoryReadAfterWrite : Prop :=
  (∀ (m : Memory) (a b : Nat) (v : Byte), m.wf = true →
      memGet (memSet m a v) b = (if b = a then v else memGet m b) ∧ (memSet m a v).wf = true)
  ∧ (∀ (m : Memory) (a n v : Nat), m.wf = true →
      memRead (memPut m a (leBytes n v)) a n = v % 2 ^ (8 * n) ∧ (memPut m a (leBytes n v)).wf = true
      ∧ ∀ b, b < a ∨ a + n ≤ b → memGet (memPut m a (leBytes n v)) b = memGet m b)
  ∧ (∀ m m' : Memory, m.wf = true → m'.wf = true → (∀ a, memGet m a = memGet m' a) → m = m')

/-- R63, R65, R92, R191: a local LD, LDP or LD.ACQ writes the bytes at its effective address, sign- or zero-extended by its
cls, and changes nothing else. -/
def Obligations.LocalLoads : Prop :=
  ∀ (s : State) (d a : RegNo) (z : BitVec 3) (o : BitVec 14) (pa : Nat), z.toNat ≠ 7 →
    let n : Nat := [1, 2, 4, 8, 1, 2, 4].getD z.toNat 8
    let ea := s.g a + BitVec.ofInt 64 (o.toInt * n)
    localAccess s ea n needR pa = true →
    let raw := memRead s.mem (localOf pa) n
    let v : Word := if z.toNat < 3 then BitVec.ofInt 64 (signedOf (8 * n) raw) else wd raw
    ReadsInto (.ld d a z o) s (localOf pa) n d v ∧ ReadsInto (.ldp d a z o) s (localOf pa) n d v
    ∧ ReadsInto (.ldAcq d a z o) s (localOf pa) n d v

/-- R63, R65, R91, R191, R206: a local ST, ST.REL (once its release is over) or CCSET stores the low bytes of its register at
its effective address, and changes no other byte, no register and no flag. -/
def Obligations.LocalStores : Prop :=
  ∀ (s : State) (d a b : RegNo) (z : BitVec 3) (p : BitVec 2) (o : BitVec 14) (o' : BitVec 12) (pa : Nat), z.toNat ≠ 7 →
    s.mem.wf = true →
    let n : Nat := [1, 2, 4, 8, 1, 2, 4].getD z.toNat 8
    (localAccess s (s.g a + BitVec.ofInt 64 (o.toInt * n)) n needW pa = true →
      StoresAt (.st d a z o) s (localOf pa) n (s.g d).toNat)
    ∧ (localAccess s (s.g a + BitVec.ofInt 64 (o'.toInt * n)) n needW pa = true → s.drained p = true → s.x.me.fail = none →
      StoresAt (.stRel d a z p o') s (localOf pa) n (s.g d).toNat)
    ∧ (localAccess s (s.g a) 8 needW pa = true → StoresAt (.ccset a b) s (localOf pa) 8 (s.g b).toNat)

/-- R21, R63, R66, R177, R178: a misaligned access is ALIGN, before an address with bits [63:56] set, which is XLATE; a page
without the right is PROT. Each traps with the address. -/
def Obligations.AddressTraps : Prop :=
  ∀ (s : State) (d a b : RegNo) (o : BitVec 14) (z : BitVec 3) (op : RegNo) (w : BitVec 2), s.x.me.isCtl = false →
    let n := clsBytes z
    let m := szBytes w
    let ea := s.g a + sx o * wd n
    let ea8 := s.g a + sx o * 8
    let g := s.g a
    let accesses : List (Instr × Word × Nat × Need) :=
      [(.ld d a z o, ea, n, needR), (.ldp d a z o, ea, n, needR), (.ldAcq d a z o, ea, n, needR), (.st d a z o, ea, n, needW),
       (.ldfe d a o, ea8, 8, needRW), (.ldff d a o, ea8, 8, needR), (.stef d a o, ea8, 8, needRW),
       (.stff d a o, ea8, 8, needW), (.fempty a o, ea8, 8, needW), (.ffull a o, ea8, 8, needW),
       (.sch d a o, ea8, 8, needRW), (.relr a o, ea8, 8, needRW),
       (.amop a b op w, g, m, needRW), (.amor d a b op w, g, m, needRW), (.cas d a b w, g, m, needRW),
       (.amoz a b, g, 16, needRW), (.ccwait a b, g, 8, needR), (.ccset a b, g, 8, needW), (.join a, g, 8, needR)]
    let denied (e : TlbEntry) : Prop :=
      tlbFind (s.tl s.here).tlb s.x.me.pasture ea8.toNat = some e ∧ s.badFor s.x.me.pasture (e.addr ea8.toNat) = false
        ∧ (e.r = false ∨ e.w = false ∨ e.s = true)
    -- LRW that traps is no longer among those to be given the reservation (R198)
    let lrw (cause : Nat) : Prop := exec (.lrw d a o) s =
      .next (if s.x.me.rsv then s.trapC cause ea8 else (s.trapC cause ea8).release s.here s.x.me.sid)
    (ea8.toNat % 8 ≠ 0 → lrw cAlign) ∧ (ea8.toNat % 8 = 0 → 2 ^ 56 ≤ ea8.toNat → lrw cXlate)
    ∧ (∀ e, ea8.toNat % 8 = 0 → ea8.toNat < 2 ^ 56 → denied e → lrw cProt)
    ∧ ∀ x ∈ accesses,
      (x.2.1.toNat % x.2.2.1 ≠ 0 → exec x.1 s = .next (s.trapC cAlign x.2.1))
      ∧ (x.2.1.toNat % x.2.2.1 = 0 → 2 ^ 56 ≤ x.2.1.toNat → exec x.1 s = .next (s.trapC cXlate x.2.1))
      ∧ (∀ e, x.2.1.toNat % x.2.2.1 = 0 → x.2.1.toNat < 2 ^ 56 →
          tlbFind (s.tl s.here).tlb s.x.me.pasture x.2.1.toNat = some e →
          s.badFor s.x.me.pasture (e.addr x.2.1.toNat) = false →
          ((x.2.2.2.r = true ∧ e.r = false) ∨ (x.2.2.2.w = true ∧ e.w = false) ∨ e.s = true) →
          exec x.1 s = .next (s.trapC cProt x.2.1))

namespace Sys2Proof

/-- R26, R87, R181, R190, R198: a read of another tile of the device. An unpinned strand waits to leave for it; a pinned one,
and LDP, fetch; a strand that holds a reservation takes RSV_LEAVE and keeps everything. -/
def RemoteReads : Prop :=
  ∀ (s : State) (d a : RegNo) (z : BitVec 3) (o : BitVec 14) (pa t : Nat), s.x.me.isCtl = false →
    let n := clsBytes z
    let ea := s.ea a o n
    let r : Req := .load n (decide (z.toNat < 3)) d
    ea.toNat % n = 0 → mapsTo s ea needR pa = true → s.homeOf pa = .tile t → t ≠ s.here →
    (s.x.me.rsv = true → ∀ i ∈ [Instr.ld d a z o, .ldp d a z o, .ldAcq d a z o], exec i s = .next (s.trapC cRsvLeave ea))
    ∧ (s.x.me.rsv = false → Waits (.ldp d a z o) s (.fetch ea pa r))
    ∧ (s.x.me.rsv = false → s.x.me.pinReason = false → Waits (.ld d a z o) s (.depart t) ∧ Waits (.ldAcq d a z o) s (.depart t))
    ∧ (s.x.me.rsv = false → s.x.me.pinReason = true →
        Waits (.ld d a z o) s (.fetch ea pa r) ∧ Waits (.ldAcq d a z o) s (.fetch ea pa r))

/-- What a wait leaves (R53, R55): the C slot of the bundle waits with the sources it had; PC, the registers and every byte of
memory stand. The record of the waiting bundle, with its sources, words and what it has read (logs 22, 63), and the order number of the
wait (log 21) are the model's choices. -/
def WaitingKeepsTheBundle : Prop :=
  ∀ (s : State) (w : Wait), let t := s.park w
    t = { s with ids := s.ids + 1, x := { s.x with me := { s.x.me with
            wait := some w, cOnly := true, parkedAt := s.ids
            pend := some { w0 := s.x.w0, w1 := s.x.w1, g := s.x.src.g, v := s.x.src.v, log := s.x.log } } } }
    ∧ SameMem s t

/-- R82, R192, R388: a store to another tile is posted: one packet with the bytes, numbered for its home and kept until it is
acknowledged; no byte of memory changes and the bundle is complete. With 32 of its operations outstanding it waits. -/
def RemoteStores : Prop :=
  ∀ (s : State) (d a : RegNo) (z : BitVec 3) (o : BitVec 14) (pa t : Nat), s.x.me.isCtl = false →
    let n := clsBytes z
    let ea := s.ea a o n
    ea.toNat % n = 0 → mapsTo s ea needW pa = true → s.homeOf pa = .tile t → t ≠ s.here → t < 16384 → s.x.me.rsv = false →
    s.seqHolds pa n = false → s.ownHolds (localOf pa) n = false →
    (s.postRoom s.x.me.party s.here = true → ∃ (u : State) (k : Packet), exec (.st d a z o) s = .next u
      ∧ u.unacked = s.unacked ++ [k] ∧ (∃ c, u.mesh = s.mesh ++ [{ k with cls := c }])
      ∧ k.body = .post (.store (localOf pa) n (BitVec.ofNat 2048 (s.g d).toNat) ea) ∧ k.party = s.x.me.party ∧ k.src = s.here
      ∧ k.dst = (s.pas s.x.me.pasture).forward t ∧ k.seq = seqGet s.seqNext k.party k.dst
      ∧ seqGet u.seqNext k.party k.dst = k.seq + 1
      ∧ u.x = { s.x with me := s.x.me.done s.x.me.g (s.x.me.pc + 1) } ∧ SameMem s u)
    ∧ (s.postRoom s.x.me.party s.here = false → Waits (.st d a z o) s (.acks 4))

end Sys2Proof

/-- R26, R55, R82, R87, R181, R190, R192: plain accesses to other tiles. The record of a waiting bundle is the model's choice (logs 21, 22,
63). -/
def Obligations.RemoteAccesses : Prop := RemoteReads ∧ WaitingKeepsTheBundle ∧ RemoteStores

namespace Sys2Proof

/-- R194 to R196: the full/empty accesses on a local word that no listed access waits for. Each sets the word's state with its
data, and one that finds the other state waits on the word's list. -/
def FullEmptyAlone : Prop :=
  ∀ (s : State) (d a : RegNo) (o : BitVec 14) (pa : Nat), s.mem.wf = true → s.x.me.hslot = false →
    let ea := s.g a + sx o * 8
    let key := localOf pa
    let w := key / 8
    localAccess s ea 8 needRW pa = true → (s.tl (tileOf key)).fe.all (fun f => f.pa / 8 != w) = true → s.corr = [] →
    s.drained 2 = true → s.x.me.fail = none →
    let v := wd (memRead s.mem key 8)
    let loads (i : Instr) (emptied : Bool) : Prop := ∃ t : State, exec i s = .next t ∧ RegSet s.x.me t.x.me d v
      ∧ t.x = { s.x with me := s.x.me.done t.x.me.g (s.x.me.pc + 1) } ∧ SameMem s t ∧ t.tiles = s.tiles
      ∧ ∀ b, t.isFull b = (if b / 8 = w then !emptied else s.isFull b)
    let stores (i : Instr) : Prop := ∃ t : State, exec i s = .next t ∧ memRead t.mem key 8 = (s.g d).toNat ∧ SameMemBut s t key 8
      ∧ t.x = { s.x with me := s.x.me.done s.x.me.g (s.x.me.pc + 1) } ∧ t.tiles = s.tiles
      ∧ ∀ b, t.isFull b = (if b / 8 = w then true else s.isFull b)
    let sets (i : Instr) (full : Bool) : Prop := ∃ t : State, exec i s = .next t ∧ SameMem s t
      ∧ t.x = { s.x with me := s.x.me.done s.x.me.g (s.x.me.pc + 1) } ∧ t.tiles = s.tiles
      ∧ ∀ b, t.isFull b = (if b / 8 = w then full else s.isFull b)
    let waits (i : Instr) (kind : Nat) (r : RegNo) (x : Word) : Prop := ∃ t : State, exec i s = .next t
      ∧ t.x = (s.park (.fullEmpty key)).x ∧ SameMem s t ∧ t.empties = s.empties
      ∧ (t.tl s.here).fe = (s.tl s.here).fe ++ [{ pa := key, sid := s.x.me.sid, kind := kind, reg := r, val := x }]
    (s.isFull key = true → loads (.ldfe d a o) true ∧ loads (.ldff d a o) false ∧ waits (.stef d a o) 2 0 (s.g d))
    ∧ (s.isFull key = false → stores (.stef d a o) ∧ waits (.ldfe d a o) 0 d 0 ∧ waits (.ldff d a o) 1 d 0)
    ∧ stores (.stff d a o) ∧ sets (.fempty a o) false ∧ sets (.ffull a o) true

/-- R196: a full/empty access that changes the state of a local word on which strands wait. The first listed access whose
condition now holds is performed, its strand goes on, and the others stay listed in their order. Here w is the first of the
word's list and the others that wait on the word are LDFE, which find it EMPTY again. -/
def FullEmptyWakes : Prop :=
  ∀ (s : State) (d a : RegNo) (o : BitVec 14) (pa : Nat) (w : FeWaiter) (rest : List FeWaiter) (st : Strand),
    s.mem.wf = true → s.x.me.hslot = false →
    let ea := s.g a + sx o * 8
    let key := localOf pa
    localAccess s ea 8 needRW pa = true → key % 8 = 0 → s.corr = [] → s.drained 2 = true → s.x.me.fail = none →
    (s.tl s.here).fe = w :: rest → w.pa = key → s.strandOf w.sid = some st → st.wait = some (.fullEmpty key) →
    let alone := rest.all (fun f => f.pa != key)
    let woken (i : Instr) (v : Word) (full : Bool) (q : State → Prop) : Prop := ∃ (t : State) (st' : Strand),
      exec i s = .next t ∧ t.strandOf w.sid = some st' ∧ RegSet st st' w.reg v ∧ st'.wait = none ∧ st'.pc = st.pc + 1
        ∧ (t.tl s.here).fe = rest ∧ t.isFull key = full ∧ q t ∧ t.x.me.pc = s.x.me.pc + 1
    let holds (n : Nat) (t : State) : Prop := memRead t.mem key 8 = n ∧ SameMemBut s t key 8
    (w.kind = 0 → s.isFull key = false → rest.all (fun f => f.pa != key || f.kind == 0) = true →
      woken (.ffull a o) (wd (memRead s.mem key 8)) false (SameMem s)
      ∧ woken (.stff d a o) (s.g d) false (holds (s.g d).toNat) ∧ woken (.stef d a o) (s.g d) false (holds (s.g d).toNat))
    ∧ (w.kind = 1 → s.isFull key = false → alone = true →
      woken (.ffull a o) (wd (memRead s.mem key 8)) true (SameMem s)
      ∧ woken (.stff d a o) (s.g d) true (holds (s.g d).toNat) ∧ woken (.stef d a o) (s.g d) true (holds (s.g d).toNat))
    ∧ (w.kind = 2 → s.isFull key = true → alone = true →
      (∃ (t : State) (st' : Strand), exec (.fempty a o) s = .next t ∧ t.strandOf w.sid = some st' ∧ st'.g = st.g
        ∧ st'.wait = none ∧ st'.pc = st.pc + 1 ∧ (t.tl s.here).fe = rest ∧ t.isFull key = true ∧ holds w.val.toNat t)
      ∧ (∃ (t : State) (st' : Strand), exec (.ldfe d a o) s = .next t ∧ RegSet s.x.me t.x.me d (wd (memRead s.mem key 8))
        ∧ t.x.me.pc = s.x.me.pc + 1 ∧ t.strandOf w.sid = some st' ∧ st'.g = st.g
        ∧ st'.wait = none ∧ st'.pc = st.pc + 1 ∧ (t.tl s.here).fe = rest ∧ t.isFull key = true ∧ holds w.val.toNat t))

end Sys2Proof

/-- R194 to R196: the full/empty accesses on a local word: those that no listed access waits for, those that wait, and the waiting
accesses that a change of the word's state performs. -/
def Obligations.FullEmptyAccesses : Prop := FullEmptyAlone ∧ FullEmptyWakes

namespace Sys2Proof

/-- R197, R199: LRW of a local word. It is granted with the word's value where no strand holds the word and an entry is free, or
where the reservation has come to this strand already, as it can to one that was in the fold (R247); it queues behind a holder; and
with all 256 entries in use it waits in the port's entry queue. A second LRW is RSV_LEAVE. -/
def ReservationTaken : Prop :=
  ∀ (s : State) (d a : RegNo) (o : BitVec 14) (pa : Nat), s.x.me.hslot = false → s.x.trap = none → s.corr = [] →
    let ea := s.g a + sx o * 8
    let key := localOf pa
    let me := s.x.me
    let tile := s.tl s.here
    localAccess s ea 8 needRW pa = true →
    let granted (l : List Resv) : Prop := ∃ t : State, exec (.lrw d a o) s = .next t
      ∧ RegSet me t.x.me d (wd (memRead s.mem key 8)) ∧ t.x.me.rsv = true ∧ t.x.me.pc = me.pc + 1 ∧ SameMem s t
      ∧ (t.tl s.here).resv = l ∧ (t.tl s.here).resvQ = tile.resvQ
    let waits (l : List Resv) (q : List (Word × Nat × RegNo)) : Prop := ∃ t : State, exec (.lrw d a o) s = .next t
      ∧ t.x = (s.park (.resv key)).x ∧ SameMem s t ∧ (t.tl s.here).resv = l ∧ (t.tl s.here).resvQ = q
    let held := tile.resv.any (·.pa == key)
    let mine := tile.resv.any (fun e => e.holder == me.sid && e.pa == key)
    (me.rsv = false → held = false → tile.resv.length < 256 →
      granted (tile.resv ++ [{ pa := key, holder := me.sid, fifo := [] }]))
    ∧ (me.rsv = false → held = true → mine = false →
      waits (lupd (·.pa == key) (fun e => { e with fifo := e.fifo ++ [(me.sid, d)] }) tile.resv) tile.resvQ)
    ∧ (me.rsv = false → mine = true → granted tile.resv)
    ∧ (me.rsv = false → held = false → 256 ≤ tile.resv.length → waits tile.resv (tile.resvQ ++ [(me.sid, key, d)]))
    ∧ (me.rsv = true → exec (.lrw d a o) s = .next (s.trapC cRsvLeave ea))

/-- R97, R197, R199, R247: SCH stores and RELR does not, and both give up the reservation of a local word: to the head of its FIFO,
whose LRW then reads the word and is complete, or, where that strand is in the fold, is made again when it is rebound; or, the FIFO
being empty, the entry is freed, for the head of the port's entry queue if there is one. On a word that is not held they take
RSV_LEAVE. -/
def ReservationGivenUp : Prop :=
  ∀ (s : State) (d a : RegNo) (o : BitVec 14) (pa : Nat), s.mem.wf = true → s.corr = [] →
    let ea := s.g a + sx o * 8
    let key := localOf pa
    let me := s.x.me
    let tile := s.tl s.here
    localAccess s ea 8 needRW pa = true →
    -- what both leave, at the tile and otherwise
    let both (q : State → Prop) : Prop :=
      (∃ t : State, exec (.sch d a o) s = .next t ∧ memRead t.mem key 8 = (s.g d).toNat ∧ SameMemBut s t key 8
        ∧ t.x.me.rsv = false ∧ t.x.me.g = me.g ∧ t.x.me.pc = me.pc + 1 ∧ q t)
      ∧ (∃ t : State, exec (.relr a o) s = .next t ∧ SameMem s t
        ∧ t.x.me.rsv = false ∧ t.x.me.g = me.g ∧ t.x.me.pc = me.pc + 1 ∧ q t)
    let entry (l : List (Word × RegNo)) : Prop :=
      tile.resv.find? (·.holder == me.sid) = some { pa := key, holder := me.sid, fifo := l }
    let granted (t : State) (h : Word) (w : Strand) (r : RegNo) (k : Nat) : Prop := ∃ w' : Strand, t.strandOf h = some w'
      ∧ RegSet w w' r (wd (memRead t.mem k 8)) ∧ w'.rsv = true ∧ w'.wait = none ∧ w'.pc = w.pc + 1
    (me.rsv = false ∨ tile.resv.any (fun e => e.holder == me.sid && e.pa == key) = false →
      exec (.sch d a o) s = .next (s.trapC cRsvLeave ea) ∧ exec (.relr a o) s = .next (s.trapC cRsvLeave ea))
    ∧ (me.rsv = true → s.drained 2 = true → me.fail = none →
      (entry [] → tile.resvQ = [] → both (fun t => (t.tl s.here).resv = ldel (·.holder == me.sid) tile.resv))
      ∧ (∀ h r l w, entry ((h, r) :: l) → s.strandOf h = some w → w.wait = some (.resv key) →
        let passed (t : State) : Prop :=
          (t.tl s.here).resv = lupd (·.holder == me.sid) (fun e => { e with holder := h, fifo := l }) tile.resv
        (w.inSlot = true → both (fun t => passed t ∧ granted t h w r key))
        ∧ (w.inSlot = false → both (fun t => passed t ∧ t.strandOf h = some { w with wait := none })))
      ∧ (∀ h k r w, entry [] → tile.resvQ = [(h, k, r)] → tile.resv.length ≤ 256 → s.strandOf h = some w → w.wait = some (.resv k) →
        w.inSlot = true → tile.resv.all (fun e => e.pa != k) = true → s.badAt k 8 = false → s.bankHeld k 8 = false →
        both (fun t => (t.tl s.here).resv = ldel (·.holder == me.sid) tile.resv ++ [{ pa := k, holder := h, fifo := [] }]
          ∧ (t.tl s.here).resvQ = [] ∧ granted t h w r k)))

end Sys2Proof

/-- R97, R197 to R199, R247: reservations on local words. -/
def Obligations.Reservations : Prop := ReservationTaken ∧ ReservationGivenUp

namespace Sys2Proof

/-- The rational value of a finite value. -/
def FVal.rat : FVal → ℚ
  | .fin neg n d => (if neg then -1 else 1) * n / d
  | _ => 0

/-- A finite value with a denominator that is not 0. -/
def FVal.proper : FVal → Prop
  | .fin _ _ d => d ≠ 0
  | _ => False

end Sys2Proof

/-- R66, R107, R200 to R203: the value an atomic operation leaves, in numbers, and the local AMOP, AMOR, CAS and AMOZ: what they store,
what they return, and that nothing else changes. AMOZ starts a handler exactly when the count comes to 0 by a non-zero
operand and the word after it is not 0 (R201, R408). -/
def Obligations.Atomics : Prop :=
  (∀ (n old b : Nat), (n = 4 ∨ n = 8) → old < 2 ^ (8 * n) → b < 2 ^ (8 * n) →
      let w := 8 * n
      amoNew 0 n old b = (old + b) % 2 ^ w
      ∧ signedOf w (amoNew 1 n old b) = min (signedOf w old) (signedOf w b)
      ∧ signedOf w (amoNew 2 n old b) = max (signedOf w old) (signedOf w b)
      ∧ amoNew 3 n old b = min old b ∧ amoNew 4 n old b = max old b ∧ amoNew 5 n old b = old &&& b
      ∧ amoNew 6 n old b = old ||| b ∧ amoNew 7 n old b = old ^^^ b ∧ amoNew 9 n old b = b)
  ∧ (∀ (n old b : Nat), (n = 4 ∨ n = 8) → old < 2 ^ (8 * n) → b < 2 ^ (8 * n) →
      let c := if n = 4 then 0 else 1
      let x := decodeF c old false
      let y := decodeF c b false
      let new := amoNew 8 n old b
      -- one rounding of the exact sum to nearest even, with no flush; infinities; the canonical NaN
      new = (roundTo c 0 false false (addF 0 x y).1).bits ∧ new < 2 ^ (8 * n)
      ∧ (∀ r, r < 2 ^ (8 * n) → FVal.proper x → FVal.proper y → FVal.proper (decodeF c r false) →
          FVal.rat x + FVal.rat y ≠ 0 → FVal.rat (decodeF c r false) = FVal.rat x + FVal.rat y → new = r)
      ∧ (x.isNaN = true ∨ y.isNaN = true ∨ (∃ a, x = .inf a ∧ y = .inf (!a)) →
          new = if n = 4 then 0x7FC00000 else 0x7FF8000000000000))
  ∧ (∀ (s : State) (d a b op : RegNo) (z : BitVec 2) (pa : Nat), s.mem.wf = true → s.corr = [] →
      let n := if z = 2 then 4 else 8
      let key := localOf pa
      let old := memRead s.mem key n
      let y := (s.g b).toNat % 2 ^ (8 * n)
      let returns (i : Instr) (new : Nat) : Prop := ∃ t : State, exec i s = .next t ∧ RegSet s.x.me t.x.me d (wd old)
        ∧ memRead t.mem key n = new % 2 ^ (8 * n) ∧ SameMemBut s t key n
        ∧ t.x = { s.x with me := s.x.me.done t.x.me.g (s.x.me.pc + 1) } ∧ KeepsRest s t
      localAccess s (s.g a) n needRW pa = true →
      StoresAt (.amop a b op z) s key n (amoNew op n old y)
      ∧ returns (.amor d a b op z) (amoNew op n old y)
      ∧ returns (.cas d a b z) (if old = (s.g d).toNat % 2 ^ (8 * n) then y else old))
  ∧ (∀ (s : State) (a b : RegNo) (pa : Nat), s.mem.wf = true → s.corr = [] → localAccess s (s.g a) 16 needRW pa = true →
      let key := localOf pa
      let new := wd (memRead s.mem key 8) + s.g b
      let h := memRead s.mem (key + 8) 8
      let queue := (s.tl (tileOf key)).handlers
      (¬ (new = 0 ∧ s.g b ≠ 0 ∧ h ≠ 0) → StoresAt (.amoz a b) s key 8 new.toNat)
      ∧ (new = 0 → s.g b ≠ 0 → h ≠ 0 → queue.length < 32 → ∃ t : State, exec (.amoz a b) s = .next t
          ∧ memRead t.mem key 8 = 0 ∧ SameMemBut s t key 8 ∧ t.x = { s.x with me := s.x.me.done s.x.me.g (s.x.me.pc + 1) }
          ∧ (t.tl (tileOf key)).handlers = queue ++ [{ pc := wd h, regs := [s.g a], g15 := 0 }])
      ∧ (new = 0 → s.g b ≠ 0 → h ≠ 0 → 32 ≤ queue.length → Waits (.amoz a b) s (.handlerRoom (s.g a) key (s.g b))))

/-- R204, R205, R239: waits on a local counter. The wait ends at once where COUNT has come to the count given, or where ERR is
set; JOIN ends at 0; otherwise the strand parks on the word, and a write to it ends the wait in the same way. -/
def Obligations.CounterWaits : Prop :=
  (∀ (s : State) (a b : RegNo) (n : W32) (pa : Nat), s.corr = [] → s.x.me.hslot = false →
      let key := localOf pa
      let v := memRead s.mem key 8
      let waitsFor (i : Instr) (zero : Bool) (target : Nat) (ends : Prop) : Prop :=
        (ends → Goes i s (s.x.me.pc + 1)) ∧ (¬ ends → Waits i s (.counter key zero target))
      localAccess s (s.g a) 8 needR pa = true →
      (let c := (s.g b).toNat % 2 ^ 48
       waitsFor (.ccwait a b) false c (c ≤ v % 2 ^ 48 ∨ 2 ^ 63 ≤ v))
      ∧ waitsFor (.ccwaitLong a n) false n.toNat (n.toNat ≤ v % 2 ^ 48 ∨ 2 ^ 63 ≤ v)
      ∧ waitsFor (.join a) true 0 (v = 0))
  ∧ (∀ (st : Strand) (pa v : Nat) (zero : Bool) (target : Nat), st.wait = some (.counter pa zero target) →
      st.notice (pa / 8) v = (if counterHolds zero target v then st.done st.g (st.pc + 1) else st))
  ∧ (∀ (s : State) (st : Strand) (addr : Word) (pa target : Nat) (zero : Bool), s.inp.m ≠ 1 →
      s.strandOf s.inp.sid = some st → st.wait = some (.poll addr pa zero target) → st.place = .slot st.tile st.core st.slotNo →
      s.homeOf pa ≠ .control →
      ∃ (t : State) (st' : Strand), exec .ccwaitPoll s = .next t ∧ t.strandOf s.inp.sid = some st'
        ∧ st' = { st with wait := some (.fetch addr pa (.poll zero target)) } ∧ t.x = s.x ∧ SameMem s t)

/-- R90, R97, R186, R189, R211, R212: FENCE completes once what its scope covers is acknowledged, and then reports the first
failed operation, whose event has been posted (R193); MIG of a local address, PREF, PIN and UNPIN; DISCARD of a scratchpad line, which drops nothing. -/
def Obligations.OrderingAndPinning : Prop :=
  ∀ (s : State) (a b : RegNo) (p : BitVec 2),
    (s.drained p = false → Waits (.fence p) s (.acks p.toNat))
    ∧ (s.drained p = true → s.x.me.fail = none → Goes (.fence p) s (s.x.me.pc + 1))
    ∧ (∀ c v, s.drained p = true → s.x.me.fail = some (c, v) →
        exec (.fence p) s = .next (({ s with x := { s.x with me := { s.x.me with fail := none } } } : State).trapFail c v))
    ∧ Goes (.pref a) s (s.x.me.pc + 1)
    ∧ (∀ pa, mapsTo s (s.g a) needR pa = true → s.homeOf pa = .tile s.here → Goes (.mig a) s (s.x.me.pc + 1))
    ∧ (∀ pa t, mapsTo s (s.g a) needR pa = true → s.homeOf pa = .tile t → t ≠ s.here → s.x.me.rsv = false →
        (s.x.me.pinReason = false → Waits (.mig a) s (.depart t))
        ∧ (s.x.me.pinReason = true → Goes (.mig a) s (s.x.me.pc + 1)))
    ∧ (∃ sw : Word, Becomes .pin s { s.x.me with sw := sw }
        ∧ ∀ i, i < 64 → sw.getLsbD i = (if i = 18 then true else s.x.me.sw.getLsbD i))
    ∧ (∃ sw : Word, Becomes .unpin s { s.x.me with sw := sw, migcnt := 0, migwin := 0 }
        ∧ ∀ i, i < 64 → sw.getLsbD i = (if i = 18 ∨ i = 19 then false else s.x.me.sw.getLsbD i))
    ∧ ((s.g a).toNat % 64 ≠ 0 ∨ (s.g b).toNat % 64 ≠ 0 → exec (.discard a b) s = .next (s.trapC cAlign (s.g a)))
    ∧ (∀ pa, (s.g a).toNat % 64 = 0 → (s.g b).toNat % 64 = 0 → mapsTo s (s.g a) needW pa = true →
        s.homeOf pa = .tile s.here → isSpad (localOf pa) = true → s.seqHolds pa (s.g b).toNat = false →
        s.bankHolds (localOf pa) (s.g b).toNat = false →
        (∀ e, tlbFind (s.tl s.here).tlb s.x.me.pasture (s.g a).toNat = some e →
          (s.g a).toNat % 2 ^ e.bits + (s.g b).toNat ≤ 2 ^ e.bits) →
        Goes (.discard a b) s (s.x.me.pc + 1))

/-! ### Event records -/

/-- R447 to R449: posting a record. With room it is written to its place of the ring, which the number of records written before
gives, with the phase of its round, and EVQTAIL advances; while the queue is full, or records are held, the root controller holds up to 1,024; beyond them a record is dropped
and counted. -/
def Obligations.EventQueue : Prop :=
  ∀ (s : State) (p : Nat) (r : List Byte), s.hasPas p = true → s.mem.wf = true → r.length = 32 → (s.pas p).pcb.evqn ≠ 0 →
    let q := s.pas p
    let t := s.postRecord p r
    let n := q.records
    let a := hostKey (q.pcb.evq + 32 * (n % q.pcb.evqn))
    (q.evqFull = false → q.evheld = [] →
      memBytes t.mem a 32 = recSet r 2 1 (if n / q.pcb.evqn % 2 = 0 then 1 else 0) ∧ SameMemBut s t a 32
      ∧ (t.pas p) = { q with evqtail := q.evqtail + 1, records := q.records + 1 })
    ∧ (q.evqFull = true ∨ q.evheld ≠ [] → q.evheld.length < 1024 →
      t.pas p = { q with evheld := q.evheld ++ [r], lostHeld := false } ∧ SameMem s t)
    ∧ (q.evqFull = true ∨ q.evheld ≠ [] → 1024 ≤ q.evheld.length → t.pas p = { q with evdrop := q.evdrop + 1 } ∧ SameMem s t)
    ∧ t.strands = s.strands ∧ t.tiles = s.tiles ∧ t.x = s.x ∧ t.cmds = s.cmds

/-! ### Slices -/

namespace Sys2Proof

/-- What the entry of a context into the fold of a tile does to memory (R138, R230): nothing in SRAM; in entry k of the fold region it
changes no byte but the 256 of that entry. -/
def FoldWrites (s u : State) (tile : Nat) (entry : Option Nat) : Prop :=
  match entry with
  | none => SameMem s u
  | some k => SameMemBut s u (localOf (s.tl tile).foldbase.toNat + 256 * k) 256

end Sys2Proof

/-- R216, R217, R219 to R221, R237: SPAWN and SPAWNW of a packet on the strand's own tile: the traps of a bad packet, AFFINITY
and JOIN in that order; 2 for depth, 3 for a closed class, 0 or a wait for the pool; and an accepted child. What the C slot notes
on the way is the model's (log 63). -/
def Obligations.SpawnResults : Prop :=
  ∀ (s : State) (d a : RegNo) (pa : Nat), s.mem.wf = true → s.corr = [] → s.hasPas s.x.me.pasture = true → s.x.me.hslot = false →
    s.x.log = [] → s.drained 2 = true → s.x.me.fail = none → localAccess s (s.g a) 64 needR pa = true →
    let me := s.x.me
    let p := me.pasture
    let q := s.pas p
    let bs := memBytes s.mem (localOf pa) 64
    let aff := wd (bfield bs 0x10 8)
    let join := wd (bfield bs 0x18 8)
    let cls := nfield (bfield bs 0x38 2) 0 3
    let both : List Instr := [.spawn d a, .spawnw d a]
    -- the packet is sound, its AFFINITY lies on tile h, and its JOIN, if it has one, at pj of tile j of this device
    let placed (h : Nat) : Prop := packetBad bs = false ∧ ∃ pa', mapsTo s aff needNone pa' = true ∧ s.homeOf pa' = .tile h
    let joined (j pj : Nat) : Prop := join ≠ 0 ∧ mapsTo s join needRW pj = true ∧ s.homeOf pj = .tile j
    let sound (h : Nat) : Prop := placed h ∧ (join = 0 ∨ ∃ j pj, joined j pj)
    let room : Prop := me.slice.depth + 1 ≤ q.pcb.depth ∧ q.isOpen cls = true ∧ q.pool < q.pcb.pool
    let accepts (i : Instr) (h : Nat) (more : State → Slice → Prop) : Prop := ∃ t l, exec i s = .next t ∧ RegSet me t.x.me d 1
      ∧ t.x = { s.x with me := me.done t.x.me.g (me.pc + 1), log := t.x.log }
      ∧ (t.pas p).classQ = q.classQ ++ [l] ∧ (t.pas p).pool = q.pool + 1
      ∧ l.home = h ∧ l.cls = cls ∧ l.depth = me.slice.depth + 1 ∧ l.entry = wd (bfield bs 0 8) ∧ l.arg = wd (bfield bs 8 8)
      ∧ l.join = join ∧ l.accept = s.pasTime p s.here ∧ l.deadline.toNat = bfield bs 0x30 5
      ∧ l.budget.toNat = (if bfield bs 0x35 3 = 0 then q.pcb.dbud else bfield bs 0x35 3) % 2 ^ 24 ∧ more t l
    (packetBad bs = true → ∀ i ∈ both, Traps i s cProt (s.g a))
    ∧ (packetBad bs = false → 2 ^ 56 ≤ aff.toNat → ∀ i ∈ both, Traps i s cXlate aff)
    ∧ (∀ pa', packetBad bs = false → mapsTo s aff needNone pa' = true → (∀ h, s.homeOf pa' ≠ .tile h) →
        ∀ i ∈ both, Traps i s cProt aff)
    ∧ (∀ h, placed h → 2 ^ 56 ≤ join.toNat → ∀ i ∈ both, Traps i s cXlate join)
    ∧ (∀ h pj, placed h → join ≠ 0 → mapsTo s join needRW pj = true → (∀ j, s.homeOf pj ≠ .tile j) →
        ∀ i ∈ both, Traps i s cProt join)
    ∧ (∀ h, sound h →
        (q.pcb.depth < me.slice.depth + 1 → ∀ i ∈ both, CWritesNoting i s d 2)
        ∧ (me.slice.depth + 1 ≤ q.pcb.depth → q.isOpen cls = false → ∀ i ∈ both, CWritesNoting i s d 3)
        ∧ (me.slice.depth + 1 ≤ q.pcb.depth → q.isOpen cls = true → q.pcb.pool ≤ q.pool →
            CWritesNoting (.spawn d a) s d 0
            ∧ ∃ log, exec (.spawnw d a) s = .next ((s.noting log).park (.pool d bs))))
    ∧ (∀ h, placed h → join = 0 → room → ∀ i ∈ both, accepts i h (fun t l => l.after = none ∧ SameMem s t))
    ∧ (∀ h pj, placed h → joined s.here pj → isLocal s pj 8 = true → room → ∀ i ∈ both,
        accepts i h (fun t l => l.after = none ∧ memRead t.mem (localOf pj) 8 = (memRead s.mem (localOf pj) 8 + 1) % 2 ^ 64
          ∧ SameMemBut s t (localOf pj) 8))
    ∧ (∀ h j pj, placed h → joined j pj → j ≠ s.here → me.rsv = false → s.postRoom me.party s.here = true → room → ∀ i ∈ both,
        accepts i h (fun t l => SameMem s t ∧ ∃ k : Packet, t.unacked = s.unacked ++ [k] ∧ l.after = some k.id
          ∧ k.body = .post (.amo 0 (localOf pj) 8 1 join) ∧ k.dst = q.forward j))

/-- R190, R218, R223, R240 to R242: DLSET and the effective deadline it gives; the values of SLICEINFO; YIELD, which renews BUDGET and
the watch timer and moves the strand to the fold unless it is kept in its slot or the fold is full. Both read the slice record, from
another tile by pinned fetch. That ED may lie before the epoch (log 18), and how the fetch names the record (log 81), are the model's
readings. -/
def Obligations.SliceInstructions : Prop :=
  ∀ (s : State) (d a : RegNo),
    let st := s.x.me
    let l := st.slice
    let q := s.pas st.pasture
    let now := s.pasTime st.pasture s.here
    let v : BitVec 40 := (s.g a).setWidth 40
    let reads (n : Nat) (w : Nat) : Prop := CWrites (.sliceinfo d (BitVec.ofNat 8 n)) s d (wd w)
    -- the record stands here, or has been fetched from its tile
    let atHand : Prop := originOf st.sid = s.here ∨ s.noted recordKey = some 0
    let fetches : Wait := .fetch 0 (s.devnum.toNat * 2 ^ 45 + originOf st.sid * 2 ^ 29) .record
    (∃ e : Int, Becomes (.dlset a) s { st with deadline := v, slice := { l with ed := e } }
      ∧ (v = 0 → e = l.accept + q.pcb.age)
      ∧ (v ≠ 0 → (e - v.toNat) % 2 ^ 40 = 0 ∧ (now : Int) - 2 ^ 39 ≤ e ∧ e < now + 2 ^ 39))
    ∧ (∀ n : BitVec 8, 10 < n.toNat → exec (.sliceinfo d n) s = .next s.illegalC)
    ∧ (st.hslot = false → atHand →
        reads 0 l.depth ∧ reads 1 l.cls ∧ reads 2 (if l.near then 1 else 0) ∧ reads 3 l.ngrp ∧ reads 4 l.budget.toNat
        ∧ reads 5 l.join.toNat ∧ reads 6 l.affinity.toNat ∧ reads 7 l.accept ∧ reads 8 (l.ed % 2 ^ 64).toNat
        ∧ reads 9 q.pcb.depth ∧ reads 10 (q.pcb.pool - q.pool))
    ∧ (st.hslot = true → ∀ n, n ≤ 8 → reads n 0)
    ∧ (st.hslot = false → originOf st.sid ≠ s.here → s.noted recordKey = none →
        ∀ n : BitVec 8, n.toNat ≤ 10 → Waits (.sliceinfo d n) s fetches ∧ Waits .yield s fetches)
    ∧ (st.hslot = false → atHand →
        let renewed : Strand := { st with budget := l.budget, grace := false, watch := 0, fired := false }
        ((st.vlive || st.lmode) = true → Becomes .yield s renewed)
        ∧ ((st.vlive || st.lmode) = false → s.foldRoom s.here = false →
            exec .yield s = .next ({ s with x := { s.x with me := renewed.advance } }.bump s.here ctrFoldFull 1))
        ∧ ((st.vlive || st.lmode) = false → s.foldRoom s.here = true → ∃ t : State, exec .yield s = .next t
            ∧ t.x.me.place = .fold s.here ∧ t.x.me.g = st.g ∧ t.x.me.pc = st.pc + 1 ∧ t.x.me.budget = l.budget
            ∧ t.x.me.watch = 0 ∧ t.x.me.following = false ∧ FoldWrites s t s.here (s.foldEntry s.here)))

namespace Sys2Proof

/-- R233 to R235: GBAR, GARRIVE and GWAIT of a group that GRP does not name are PROT; otherwise, with the release of GBAR and
GARRIVE over, the access travels to the group's HOME as one packet and the strand waits for it. -/
def GroupInstructions : Prop :=
  ∀ (s : State) (n : BitVec 8),
    let st := s.x.me
    let p := s.x.me.pasture
    let h := (s.pas p).groupHome n.toNat
    let sends (i : Instr) (arrive blocking : Bool) : Prop := ∃ (t : State) (k : Packet), exec i s = .next t
      ∧ t.x = (s.park (.groupAck n.toNat)).x ∧ t.mesh = s.mesh ++ [k] ∧ k.body = .group st.sid n.toNat arrive blocking
      ∧ k.src = s.here ∧ k.pasture = p ∧ k.want = 0 ∧ k.dst = (if h < 16384 then (s.pas p).forward h else h)
      ∧ t.strands = s.strands
      ∧ SameMem s t
    (st.inGroup n.toNat = false → ∀ i ∈ [Instr.gbar n, .garrive n, .gwait n], exec i s = .next (s.trapC cProt (zx n)))
    ∧ (st.inGroup n.toNat = true → sends (.gwait n) false true)
    ∧ (st.inGroup n.toNat = true → s.drained 2 = true → st.fail = none →
        sends (.gbar n) true true ∧ sends (.garrive n) true false)
    ∧ (st.inGroup n.toNat = true → s.drained 2 = false → Waits (.gbar n) s (.acks 2) ∧ Waits (.garrive n) s (.acks 2))

/-- R234, R235: a group access at HOME. An arrival is listed once; the phase opens when as many strands have arrived as the group
has members, and the arrivals start again; a strand that has arrived waits for the phase. Its opening wakes the waiters, and one
that waited to arrive again arrives in the new phase. The access of a strand that has been killed does nothing. -/
def GroupPhases : Prop :=
  (∀ (s : State) (k : Packet) (sid : Word) (n : Nat) (arrive blocking : Bool) (st : Strand),
    s.packet s.inp.k = some k → k.body = .group sid n arrive blocking → s.hasPas k.pasture = true →
    s.strandOf sid = some st →
    let g := tget (s.pas k.pasture).groups n {}
    let opens : Prop := arrive = true ∧ g.arrived.contains sid = false ∧ g.members ≤ g.arrived.length + 1
    ∃ (t : State) (st' : Strand), exec .groupAccess s = .next t ∧ t.strandOf sid = some st' ∧ SameMem s t
      ∧ t.mesh = ldel (fun j => j.id == k.id) s.mesh
      ∧ (let g' := tget (t.pas k.pasture).groups n {}
         (arrive = false → g.arrived.contains sid = false → st' = st.advance ∧ g' = g)
         ∧ (arrive = false → g.arrived.contains sid = true →
             st' = { st with wait := some (.group n false blocking) } ∧ g' = { g with waiters := g.waiters ++ [sid] })
         ∧ (arrive = true → g.arrived.contains sid = true →
             st' = { st with wait := some (.group n true blocking) } ∧ g' = { g with waiters := g.waiters ++ [sid] })
         ∧ (arrive = true → g.arrived.contains sid = false → g.arrived.length + 1 < g.members →
             g'.arrived = g.arrived ++ [sid] ∧ g'.phase = g.phase
             ∧ st' = (if blocking then { st with wait := some (.group n false true) } else st.advance))
         ∧ (opens → sid ∉ g.waiters → g.waiters.Nodup →
             (∀ w ∈ g.waiters, ∃ sw b, s.strandOf w = some sw ∧ sw.wait = some (.group n false b)) →
             g' = { g with arrived := [], phase := g.phase + 1, waiters := [] } ∧ st' = st.advance
             ∧ ∀ w ∈ g.waiters, ∀ sw, s.strandOf w = some sw → t.strandOf w = some sw.advance)
         ∧ (∀ w sw b, opens → g.waiters = [w] → w ≠ sid → s.strandOf w = some sw → sw.wait = some (.group n true b) →
             1 < g.members →
             g' = { g with arrived := [w], phase := g.phase + 1, waiters := if b then [w] else [] } ∧ st' = st.advance
             ∧ t.strandOf w = some (if b then { sw with wait := some (.group n false true) } else sw.advance))))
  ∧ (∀ (s : State) (k : Packet) (sid : Word) (n : Nat) (arrive blocking : Bool), s.packet s.inp.k = some k →
      k.body = .group sid n arrive blocking → s.strandOf sid = none →
      ∃ t : State, exec .groupAccess s = .next t ∧ t.mesh = ldel (fun j => j.id == k.id) s.mesh ∧ t.pastures = s.pastures
        ∧ t.strands = s.strands ∧ SameMem s t)

end Sys2Proof

/-- R233 to R235: groups. -/
def Obligations.Groups : Prop := GroupInstructions ∧ GroupPhases

namespace Sys2Proof

/-- R148, R149, R153, R231, R232, R410: what is charged as bundles issue, and the events of a spent budget, of a grace that is over, of
a handler's 4,096 turns and of a watch timer: each has its effect where it is due, and none where it is not. The values they carry are
open (log 15), and the slot that UTC names for a cause of neither is the model's choice (log 69). -/
def BudgetEvents : Prop :=
  (∀ (st : Strand) (n w : Nat), st.isCtl = false → 0 < n → n ≤ st.budget.toNat → n ≤ w → st.migwin < w →
      let t := st.charge n w
      t.budget.toNat = (if st.hslot then st.budget.toNat else st.budget.toNat - n)
      ∧ t.hturns = (if st.hslot then st.hturns + n else st.hturns)
      ∧ t.migwin = (st.migwin + n) % w ∧ t.migcnt = (if w ≤ st.migwin + n then 0 else st.migcnt)
      ∧ t.g = st.g ∧ t.pc = st.pc ∧ t.sw = st.sw)
  ∧ (∀ (s : State) (v : Word), s.x.me.inSlot = true → v = Config.unstated s.free →
      let s1 : State := { s with free := s.free + 1 }
      let st := s.x.me
      (st.hslot = false → st.budget = 0 → st.grace = false → exec .budget s = .next (s1.trapC cBudget v))
      ∧ (st.hslot = true ∨ st.budget ≠ 0 ∨ st.grace = true → exec .budget s = .next s)
      ∧ (st.hslot = false → st.budget = 0 → st.grace = true →
          exec .budgetGraceExpiry s = .next (s1.escalate cBudget (wd (8 * st.pc.toNat)) v s.x.aDone))
      ∧ (st.hslot = true ∨ st.budget ≠ 0 ∨ st.grace = false → exec .budgetGraceExpiry s = .next s)
      ∧ (st.hslot = true → 4096 ≤ st.hturns → exec .handlerBudget s = .next (s1.trapC cHandlerBudget v))
      ∧ (st.hslot = false ∨ st.hturns < 4096 → exec .handlerBudget s = .next s))
  ∧ (∀ (s : State) (st : Strand), s.strandOf s.inp.sid = some st →
      let q := s.pas st.pasture
      let w := q.pcb.watch.getD st.slice.cls 0
      w ≠ 0 → w ≤ st.watch → st.fired = false → st.hslot = false → q.st = .running →
      exec .watch s = .next ((({ s with free := s.free + 1 } : State).onStrand st.sid (fun st => { st with fired := true })).pastureEvent
        st.pasture st.tile cWatch st.slice.cls st.tile st.sid (Config.unstated s.free)))
  ∧ (∀ (s : State) (st : Strand), s.strandOf s.inp.sid = some st →
      let w := (s.pas st.pasture).pcb.watch.getD st.slice.cls 0
      w = 0 ∨ st.watch < w ∨ st.fired = true ∨ st.hslot = true ∨ (s.pas st.pasture).st ≠ .running → exec .watch s = .next s)

/-- R148, R149, R153, R410: the issue of a strand. BUDGET, or the end of the grace, is taken exactly where a bundle would issue with
BUDGET 0, before the bundle is read; a bundle of which the C slot is left has issued (R55). The handler's limit is taken exactly where
the bundle's turns bring it to 4,096, and those turns are spent. -/
def BudgetsAtIssue : Prop :=
  (∀ (s : State) (a : Agent), let st := (s.context a).leaveIfOff
      let u := s.checkOut st
      let u1 : State := { u with free := u.free + 1 }
      let v := Config.unstated u.free
      let next : Prop := st.pend = none ∨ st.arrived = true
      st.isCtl = false → st.hslot = false → st.inSlot = true →
      (next → st.budget = 0 → st.grace = false → issue a s = .next (u1.trapC cBudget v).finishIssue)
      ∧ (next → st.budget = 0 → st.grace = true →
          issue a s = .next (u1.escalate cBudget (wd (8 * st.pc.toNat)) v u.x.aDone).finishIssue)
      ∧ (¬ next ∨ st.budget ≠ 0 → u.fetch.x.got = true → issue a s = andThen (runBundle u.fetch) (fun t => .next t.finishIssue)))
  ∧ (∀ (s rc ra : State) (c a : Instr), exec c s = .next rc → exec a s = .next ra → s.x.me.hslot = true → s.x.me.inSlot = true →
      s.x.me.isCtl = false → 4096 ≤ s.x.me.hturns + ra.x.turns → ∃ u : State,
        runPair c a s = .next (u.trapC cHandlerBudget (Config.unstated s.free)) ∧ u.x.me.hturns = s.x.me.hturns + ra.x.turns
        ∧ u.x.me.g = s.x.me.g ∧ u.x.me.pc = s.x.me.pc ∧ u.x.me.sw = s.x.me.sw ∧ SameMem s u)
  ∧ (∀ (s rc : State) (c : Instr), exec c s = .next rc → s.x.me.hslot = true → s.x.me.inSlot = true → s.x.me.isCtl = false →
      (4096 ≤ s.x.me.hturns + 1 → ∃ u : State, runSingle c s = .next (u.trapC cHandlerBudget (Config.unstated s.free))
        ∧ u.x.me.hturns = s.x.me.hturns + 1 ∧ u.x.me.g = s.x.me.g ∧ u.x.me.pc = s.x.me.pc ∧ SameMem s u)
      ∧ (s.x.me.hturns + 1 < 4096 → rc.stalled = false →
          runSingle c s = exec c (((s.charge 1).countIssue).upd (fun st => { st with arrived := false }))))

end Sys2Proof

/-- R148, R149, R153, R231, R232, R410: budgets, the handler's limit and watch timers. -/
def Obligations.BudgetsAndTimers : Prop := BudgetEvents ∧ BudgetsAtIssue

namespace Sys2Proof

/-- R221, R222, R224, R227: the controllers take the next slice from its class queue and send its placement: class 0 first, then
the classes in turn by their weights; STRICT to its home tile, NEAR to the nearest working tile of its paddock with a free slot,
if its home has none. The placement enters the tile's ready queue, or the overflow store where that holds 64. -/
def SlicesArePlaced : Prop :=
  (∀ (s : State) (l : Slice) (c : Nat) (credit : List Nat),
      let p := s.inp.k
      let q := s.pas p
      let has (c : Nat) : Bool := q.classQ.any (·.cls == c)
      let turn (cr : List Nat) : Prop := has c = true ∧ 0 < cr.getD c 0
        ∧ ∀ c', 1 ≤ c' → c' < c → has c' = false ∨ cr.getD c' 0 = 0
      s.inp.l ≠ 1 → s.hasPas p = true → q.classQ.find? (·.cls == c) = some l →
      ((c = 0 ∧ credit = q.credit)
        ∨ (has 0 = false ∧ 1 ≤ c ∧ c ≤ 7 ∧ turn q.credit ∧ credit = q.credit.set c (q.credit.getD c 0 - 1))
        ∨ (has 0 = false ∧ 1 ≤ c ∧ c ≤ 7 ∧ (∀ c', 1 ≤ c' → c' ≤ 7 → has c' = false ∨ q.credit.getD c' 0 = 0)
            ∧ turn q.pcb.weight ∧ credit = q.pcb.weight.set c (q.pcb.weight.getD c 0 - 1))) →
      ∃ (u : State) (k : Packet) (t : Nat), exec .classQueueMove s = .next u ∧ u.mesh = s.mesh ++ [k] ∧ k.body = .slice l
        ∧ k.pasture = p ∧ k.want = (if c = 0 then 0 else 1) ∧ k.dst = (if t < 16384 then q.forward t else t)
        ∧ (u.pas p).classQ = ldel (· == l) q.classQ ∧ (u.pas p).credit = credit ∧ u.strands = s.strands ∧ SameMem s u
        ∧ (l.near = false ∨ s.freeSlot l.home ≠ none → t = l.home)
        ∧ (l.near = true → s.freeSlot l.home = none →
            let free (x : Nat) : Prop := x ∈ paddockTiles (paddockOf l.home) ∧ s.freeSlot x ≠ none ∧ (s.tl x).failed = false
              ∧ x ∉ q.retired
            ((∀ x, ¬ free x) → t = l.home)
            ∧ ((∃ x, free x) → free t ∧ ∀ x, free x → q.logicalDist l.home t < q.logicalDist l.home x
                ∨ (q.logicalDist l.home t = q.logicalDist l.home x ∧ t ≤ x))))
  ∧ (∀ (s : State) (k : Packet) (l : Slice),
      let p := k.pasture
      let t := s.target k
      s.inp.l = 1 → s.packet s.inp.k = some k → k.body = .slice l → s.hasPas p = true → (s.tl t).failed = false →
      (l.cls ≠ 0 ∨ s.freeSlot t ≠ none) → ∃ u : State, exec .classQueueMove s = .next u
        ∧ u.mesh = ldel (·.id == k.id) s.mesh
        ∧ ((s.tl t).readyQ.length < 64 → (u.tl t).readyQ = (s.tl t).readyQ ++ [{ l with home := t }])
        ∧ (64 ≤ (s.tl t).readyQ.length → (u.pas p).overflow = (s.pas p).overflow ++ [{ l with home := t }] ∧ u.tiles = s.tiles)
        ∧ u.strands = s.strands ∧ SameMem s u)

/-- R223: which of two slices comes first: class 0 before the others, then the earlier ED, the lower class, the earlier acceptance. -/
def Precedes (a b : Slice) : Prop :=
  let key (x : Slice) : Int × Nat × Nat := (x.ed, x.cls, x.accept)
  (a.cls = 0 ∧ b.cls ≠ 0)
    ∨ ((a.cls = 0 ↔ b.cls = 0) ∧ ((key a).1 < (key b).1
        ∨ ((key a).1 = (key b).1 ∧ ((key a).2.1 < (key b).2.1 ∨ ((key a).2.1 = (key b).2.1 ∧ (key a).2.2 < (key b).2.2)))))

/-- R223: the candidate that a tile takes is one of its ready queue, or a strand of its fold that can go on, and no slice of the
ready queue that may bind precedes it; and there is one where some slice may bind. -/
def CandidateOrder : Prop :=
  ∀ (s : State) (t : Nat),
    (∀ l sid, s.firstCand t (fun _ => true) = some (l, sid) →
      (match sid with
       | none => l ∈ (s.tl t).readyQ
       | some w => ∃ st ∈ s.strands, st.sid = w ∧ st.place = .fold t ∧ st.stop = none ∧ st.slice = l)
      ∧ ∀ m ∈ (s.tl t).readyQ, m.after = none → ¬ Precedes m l)
    ∧ (∀ l ∈ (s.tl t).readyQ, l.after = none → s.firstCand t (fun _ => true) ≠ none)
    ∧ (∀ l ∈ (s.tl t).readyQ, l.after = none → l.cls = 0 → s.firstCand t (·.cls == 0) ≠ none)

/-- R139, R182, R227: a strand of slots 0 to 13 of a tile that may be moved to the fold: it is not held in its slot, has issued since it
arrived, and is not stopped. -/
def Movable (s : State) (t : Nat) (st : Strand) : Prop :=
  st ∈ s.strands ∧ (∃ c n, st.place = .slot t c n ∧ n < 14) ∧ st.vlive = false ∧ st.lmode = false ∧ st.arrived = false ∧ st.stop = none
    ∧ st.wait ≠ some .longUnit ∧ st.wait ≠ some .away ∧ ∀ n, st.wait ≠ some (.latch n)

/-- R183, R225, R227: the slot that is given is one of slots 0 to 13 of the core with the fewest active strands, the lower core of two;
the victim of a pre-emption has the latest ED of the strands of class 1 or above that may be moved, and was bound last of those with that
ED; and the longest-parked strand is the one of those that wait and may be moved that has waited longest. The lowest free slot of a
core, and the order in which strands park, are the model's choices (log 20). -/
def RoomIsMade : Prop :=
  ∀ (s : State) (t : Nat),
    let better (a b : Strand) : Prop := b.slice.ed < a.slice.ed ∨ (a.slice.ed = b.slice.ed ∧ b.bound ≤ a.bound)
    (∀ c n, s.freeSlot t = some (c, n) → c < 4 ∧ n < 14 ∧ s.slotBusy t c n = false ∧ (∀ n', n' < n → s.slotBusy t c n' = true)
      ∧ ∀ c', c' < 4 → s.activeOn t c' < 14 → s.activeOn t c ≤ s.activeOn t c' ∧ (c' < c → s.activeOn t c < s.activeOn t c'))
    ∧ (s.freeSlot t = none → ∀ c n, c < 4 → n < 14 → s.slotBusy t c n = true)
    ∧ (∀ v, s.victim t = some v → Movable s t v ∧ v.slice.cls ≠ 0
      ∧ ∀ w, Movable s t w → w.slice.cls ≠ 0 → better v w)
    ∧ (s.victim t = none → ∀ w, Movable s t w → w.slice.cls = 0)
    ∧ (∀ v, s.longestParked t = some v → Movable s t v ∧ v.wait ≠ none ∧ ∀ w, Movable s t w → w.wait ≠ none → v.parkedAt ≤ w.parkedAt)
    ∧ (s.longestParked t = none → ∀ w, Movable s t w → w.wait = none)

/-- R134, R135, R220, R225: the strand that a bind of slice l gives, on slot n of core c of tile t, with INDEX i. -/
def BoundAs (u : State) (st : Strand) (p t c n i : Nat) (l : Slice) : Prop :=
  st ∈ u.strands ∧ st.place = .slot t c n ∧ st.pasture = p
    ∧ originOf st.sid = t ∧ nfield st.sid.toNat 0 16 = i
    ∧ st.pc = BitVec.ofNat 53 (l.entry.toNat / 8) ∧ st.gr 1 = l.arg ∧ (∀ r : RegNo, r ≠ 1 → st.gr r = 0)
    ∧ st.sw = 0 ∧ st.vt = 0 ∧ st.fmt = zx l.fmt ∧ st.sca = l.sca ∧ st.scb = l.scb ∧ st.budget = l.budget
    ∧ st.deadline = l.deadline ∧ st.grp = l.grp ∧ st.utv = 0 ∧ st.slice = l ∧ (16 * c + n) ∉ (u.tl t).latch

/-- R134, R135, R183, R225, R227, R228: a tile binds its first candidate, if that is a slice: in a free slot; and where none is free, a
class-0 slice in the slot of the victim of R227, or of the longest-parked strand, if its ED is later or contexts wait to arrive; another
in the slot of the longest-parked strand, if its ED is later, and else in that of the victim whose ED is later by more than MARGIN. The
strand that gives its slot goes to the fold and keeps its registers. Where no strand qualifies nothing happens. -/
def SlicesBind : Prop :=
  ∀ (s : State) (p : Nat) (l : Slice),
    let t := s.inp.k
    let i := s.inp.m
    let first0 := s.firstCand t (·.cls == 0)
    s.pasOfTile t = some p → s.hasPas p = true → (s.pas p).st = .running → (s.tl t).failed = false → t < Config.tiles → i < 65536 →
    s.indexFree t i = true → (∀ m ∈ (s.pas p).overflow, m.home ≠ t) →
    (first0 = some (l, none) ∨ (first0 = none ∧ (s.tl t).arrivals = [] ∧ s.firstCand t (fun _ => true) = some (l, none))) →
    (∀ c n, s.freeSlot t = some (c, n) → n < 14 →
      ∃ (u : State) (st : Strand), exec .sliceBind s = .next u ∧ u.strands = s.strands ++ [st] ∧ BoundAs u st p t c n i l
        ∧ (u.tl t).readyQ = ldel (· == l) (s.tl t).readyQ ∧ (u.pas p).pool = (s.pas p).pool - 1 ∧ SameMem s u)
    ∧ (∀ v, s.freeSlot t = none → s.foldRoom t = true → s.strandOf v.sid = some v → v.inSlot = true → v.slotNo < 14 → v.tile = t →
        ((first0 ≠ none ∧ s.victim t = some v)
          ∨ (first0 ≠ none ∧ s.victim t = none ∧ s.longestParked t = some v ∧ (l.ed < v.slice.ed ∨ (s.tl t).arrivals ≠ []))
          ∨ (first0 = none ∧ s.longestParked t = some v ∧ l.ed < v.slice.ed)
          ∨ (first0 = none ∧ (∀ w, s.longestParked t = some w → w.slice.ed ≤ l.ed) ∧ s.victim t = some v
              ∧ l.ed + (s.pas p).pcb.margin < v.slice.ed)) →
        ∃ (u : State) (st v' : Strand), exec .sliceBind s = .next u ∧ BoundAs u st p t v.core v.slotNo i l
          ∧ (u.tl t).readyQ = ldel (· == l) (s.tl t).readyQ
          ∧ u.strandOf v.sid = some v' ∧ v'.place = .fold t ∧ v'.g = v.g ∧ v'.pc = v.pc ∧ v'.following = false)
    ∧ (s.freeSlot t = none → first0 = none → (∀ w, s.longestParked t = some w → w.slice.ed ≤ l.ed) →
        (∀ v, s.victim t = some v → v.slice.ed ≤ l.ed + (s.pas p).pcb.margin) → exec .sliceBind s = .next s)

end Sys2Proof

/-- R183, R221 to R225, R227, R228: placement, the order of candidates, and binding. That classes take their turns of the round robin in
the order of their numbers, each for as many slices as its weight, is the model's choice where R224 says only weighted round robin
(log 20). -/
def Obligations.PlacementAndBinding : Prop := SlicesArePlaced ∧ CandidateOrder ∧ RoomIsMade ∧ SlicesBind

/-! ### Migration -/

/-- R87, R136, R139, R182, R230: a strand that waits to leave, with its operations acknowledged, goes as one context packet, and the
migration is counted in its threshold. It leaves its slot for an entry of the fold, which it keeps while the packet is on its way and
which may lie in DRAM (log 67); or, where the fold is full, it is parked in its slot for that time.
Before that nothing happens; one that is pinned by now makes its access as a pinned strand. -/
def Obligations.MigrationDeparts : Prop :=
  ∀ (s : State) (st : Strand) (dest : Nat), s.strandOf s.inp.sid = some st → st.wait = some (.depart dest) →
    (s.mayLeave st = false ∨ s.moves st = false → exec .migrationDepart s = .next s)
    ∧ (s.mayLeave st = true → s.moves st = true → st.pinReason = true → st.isCtl = false → ∃ t : State,
        exec .migrationDepart s = .next t ∧ t.strandOf s.inp.sid = some { st with wait := none } ∧ t.mesh = s.mesh ∧ SameMem s t)
    ∧ (s.mayLeave st = true → s.moves st = true → st.pinReason = false → st.fail = none → dest < 16384 → st.isCtl = false →
        let src := st.tile
        let full : Bool := st.inSlot && !s.foldRoom src
        let entry : Option Nat := if st.inSlot && s.foldRoom src then s.foldEntry src else none
        ∃ (t : State) (k : Packet) (st' : Strand), exec .migrationDepart s = .next t ∧ t.mesh = s.mesh ++ [k]
          ∧ k.body = .context st.sid (s.pasTime st.pasture src) ∧ k.src = src
          ∧ k.dst = (s.pas st.pasture).forward dest ∧ (k.want = 0 ↔ st.slice.cls = 0)
          ∧ (t.tl src).departing = (s.tl src).departing ++ [(st.sid, if full then some (st.core, st.slotNo) else none)]
          ∧ t.strandOf s.inp.sid = some st'
          ∧ st' = { st with
              sw := st'.sw, follow := none, cOnly := true, arrived := true
              place := if full then st.place else .transit src, wait := if full then some .away else none
              migcnt := min (s.pas st.pasture).pcb.mign (st.migcnt + 1), foldAt := none }
          ∧ (∀ k, entry = some k → (t.tl src).leftAt = (s.tl src).leftAt ++ [(st.sid, k)])
          ∧ (∀ i, i < 64 → st'.sw.getLsbD i = (if i = 22 then false else st.sw.getLsbD i)) ∧ FoldWrites s t src entry)

namespace Sys2Proof

/-- R171, R183 to R185, R188: a context packet at its destination. A failed tile sends the strand on at its source; a full arrival
queue refuses it; otherwise the strand joins the arrival queue, time there passes its stamp, at the threshold it is pinned with
PINT, and the source is told. Its registers, PC and status have travelled, UTC, UTPC and UTVAL have not (R139); that UTV[63:56] is
lost is the model's reading (log 19). The refused context is sent again with the same stamp, and the acknowledgement frees the
source's copy. -/
def ContextArrives : Prop :=
  (∀ (s : State) (k : Packet) (sid : Word) (stamp : Nat) (st : Strand), s.packet s.inp.k = some k →
      k.body = .context sid stamp → s.strandOf sid = some st →
      let t := s.target k
      let kept := ((s.tl k.src).departing.find? (·.1 == sid)).bind (·.2)
      let left := ((s.tl k.src).leftAt.find? (·.1 == sid)).map (·.2)
      let home := (s.pas st.pasture).forward k.src
      ((s.tl t).failed = true → ∃ (u : State) (st' : Strand), exec .contextArrival s = .next u ∧ u.strandOf sid = some st'
        ∧ u.mesh = ldel (·.id == k.id) s.mesh
        ∧ (home = k.src → st' = (match kept with
            | some (c, n) => { st with wait := none, place := .slot k.src c n }
            | none => { st with wait := none, place := .fold k.src, foldAt := left }) ∧ SameMem s u)
        ∧ (home ≠ k.src → st' = { st with wait := none, place := .fold home, foldAt := s.foldEntry home }
            ∧ FoldWrites s u home (s.foldEntry home)))
      ∧ ((s.tl t).failed = false → 32 ≤ (s.tl t).arrivals.length → ∃ (u : State) (j : Packet), exec .contextArrival s = .next u
        ∧ u.mesh = ldel (·.id == k.id) s.mesh ++ [j] ∧ j.body = .contextRefused sid stamp ∧ j.dst = k.src ∧ j.src = t
        ∧ u.strands = s.strands ∧ SameMem s u)
      ∧ ((s.tl t).failed = false → (s.tl t).arrivals.length < 32 → ∃ (u : State) (j : Packet) (st' : Strand), exec .contextArrival s = .next u
        ∧ u.mesh = ldel (·.id == k.id) s.mesh ++ [j] ∧ j.body = .contextAck sid ∧ j.dst = k.src
        ∧ (u.tl t).arrivals = (s.tl t).arrivals ++ [sid] ∧ u.strandOf sid = some st' ∧ st'.place = .arrival t
        ∧ st'.g = st.g ∧ st'.pc = st.pc ∧ st'.fmt = st.fmt ∧ st'.vt = st.vt ∧ st'.budget = st.budget ∧ st'.wait = none
        ∧ st'.utc = 0 ∧ st'.utpc = 0 ∧ st'.utval = 0 ∧ st'.utv = wd (st.utv.toNat % 2 ^ 56)
        ∧ (∀ i, i < 64 → st'.sw.getLsbD i =
            (st.sw.getLsbD i || (decide (i = 18 ∨ i = 19) && decide ((s.pas k.pasture).pcb.mign ≤ st.migcnt))))
        ∧ stamp < u.pasTime k.pasture t ∧ SameMem s u))
  ∧ (∀ (s : State) (k : Packet) (sid : Word) (stamp : Nat) (st : Strand), s.packet s.inp.k = some k →
      k.body = .contextRefused sid stamp → s.strandOf sid = some st →
      ∃ (u : State) (j : Packet) (st' : Strand), exec .migrationRetry s = .next u ∧ u.mesh = ldel (·.id == k.id) s.mesh ++ [j]
        ∧ u.ctr k.dst 0x1038 = s.ctr k.dst 0x1038 + 1 ∧ j.body = .context sid stamp ∧ j.src = k.dst ∧ j.dst = (s.pas k.pasture).forward k.src
        ∧ u.strandOf sid = some st' ∧ st' = { st with retries := st.retries + 1 } ∧ SameMem s u)
  ∧ (∀ (s : State) (k : Packet) (sid : Word), s.packet s.inp.k = some k → k.body = .contextAck sid →
      ∃ u : State, exec .arrivalAck s = .next u ∧ u.mesh = ldel (·.id == k.id) s.mesh
        ∧ (u.tl k.dst).departing = ldel (·.1 == sid) (s.tl k.dst).departing ∧ (∀ e ∈ (u.tl k.dst).leftAt, e.1 ≠ sid)
        ∧ u.strands = s.strands ∧ SameMem s u)

/-- R182, R183: the head of the arrival queue takes a free slot, unless a class-0 slice waits for it. -/
def ArrivalTakesSlot : Prop :=
  ∀ (s : State) (p c n : Nat) (sid : Word) (rest : List Word) (st : Strand),
    let t := s.inp.k
    s.pasOfTile t = some p → (s.pas p).st = .running → s.firstCand t (·.cls == 0) = none →
    (s.tl t).arrivals = sid :: rest → s.freeSlot t = some (c, n) → n < 14 → s.strandOf sid = some st →
    ∃ (u : State) (st' : Strand), exec .arrivalBind s = .next u ∧ (u.tl t).arrivals = rest ∧ u.strandOf sid = some st' ∧ st'.place = .slot t c n
      ∧ st'.g = st.g ∧ st'.pc = st.pc ∧ st'.sw = st.sw ∧ st'.cOnly = st.cOnly ∧ st'.arrived = st.arrived ∧ st'.retries = 0
      ∧ (16 * c + n) ∉ (u.tl t).latch ∧ SameMem s u

end Sys2Proof

/-- R171, R182 to R188: where a context arrives. -/
def Obligations.MigrationArrives : Prop := ContextArrives ∧ ArrivalTakesSlot

/-! ### Page walks, pinned reads -/

namespace Sys2Proof

/-- R24, R175 to R177: what a walk yields, level by level, from a table t whose index is n bits from bit lo of the address: the first
cause of a fault, the page that a leaf maps, or the walk from the next table. -/
def WalkReadsTables : Prop :=
  (∀ (s : State) (p q : Nat) (va : Word), s.walk p q va.toNat =
      s.walkFrom p q va.toNat ((s.pas p).pcb.roots.getD ((s.pas p).pcb.paddocks.idxOf q) 0) [(47, 9), (38, 9), (29, 9), (21, 8), (16, 5)])
  ∧ (∀ (s : State) (p q va t lo n : Nat) (rest : List (Nat × Nat)),
      let walk := s.walkFrom p q va t ((lo, n) :: rest)
      let tile := t / 2 ^ 29 % 2 ^ 13
      let region := t / 2 ^ 42 % 8
      let good : Prop := t % 4096 = 0 ∧ t / 2 ^ 45 % 2 ^ 11 = s.devnum.toNat ∧ region ≤ 1 ∧ tile < Config.tiles
        ∧ (region = 1 → t / 2 ^ 21 % 2 ^ 8 = 0) ∧ paddockOf tile = q
      let a := t % 2 ^ 45 + 8 * (va / 2 ^ lo % 2 ^ n)
      let e : Word := wd (memRead s.mem a 8)
      let addr := e.toNat / 2 ^ 12 % 2 ^ 44 * 2 ^ 12
      let bit (i : Nat) : Bool := e.getLsbD i
      let clear (i j : Nat) : Prop := ∀ k, i ≤ k → k ≤ j → bit k = false
      let page := addr + va % 2 ^ lo
      (¬ good → walk = .fault cXlate)
      ∧ (good → (s.tl (tileOf a)).failed = true → walk = .fault cHomeLost)
      ∧ (good → (s.tl (tileOf a)).failed = false → s.badAt a 8 = true → walk = .fault cMemerr)
      ∧ (good → (s.tl (tileOf a)).failed = false → s.badAt a 8 = false →
          let sound : Prop := bit 0 = true ∧ clear 56 63 ∧ clear 8 11 ∧ bit 2 = false
          (¬ sound → walk = .fault cXlate)
          ∧ (sound → bit 1 = true → 38 ≤ lo ∨ addr % 2 ^ lo ≠ 0 ∨ s.badFor p page = true → walk = .fault cXlate)
          ∧ (sound → bit 1 = true → lo < 38 → addr % 2 ^ lo = 0 → s.badFor p page = false →
              (bit 7 = true → walk = .fault cHomeLost)
              ∧ (bit 7 = false → walk = .ok { asp := p, base := va / 2 ^ lo * 2 ^ lo, bits := lo, pa := addr,
                                               r := bit 3, w := bit 4, x := bit 5, s := bit 6 }))
          ∧ (sound → bit 1 = false → lo = 16 ∨ ¬ clear 3 7 → walk = .fault cXlate)
          ∧ (sound → bit 1 = false → lo ≠ 16 → clear 3 7 → walk = s.walkFrom p q va addr rest)))

/-- The table entries that a walk reads, from one table down the remaining levels. -/
def walkTrail (s : State) (p q va : Nat) : Nat → List (Nat × Nat) → List Nat
  | _, [] => []
  | t, (lo, n) :: rest =>
    if !s.tableOk q t then []
    else
      let a := localOf t + 8 * nfield va lo n
      match s.walkEntry p va lo (memRead s.mem a 8) with
      | .inl _ => [a]
      | .inr t => if s.badAt a 8 then [a] else a :: walkTrail s p q va t rest

/-- R174, R177, R178, R287: the end of a walk whose tables all lie on its tile and are not held: one that succeeds gives its page to the
tile's TLB, and every strand that waits for an address of that page goes on; one that fails gives its fault to the strand that waited
for it, with that strand's address. -/
def WalkEnds : Prop :=
  ∀ (s : State) (p : Nat),
    let t := s.inp.k
    let page := s.inp.val
    let q := paddockOf t
    s.pasOfTile t = some p → page ∈ (s.tl t).walks.take 16 → (s.tl t).failed = false → s.inp.l = 0 →
    (s.tl t).walkRuns.find? (·.page == page) = none →
    (∀ a ∈ walkTrail s p q page.toNat ((s.pas p).rootOf q) walkLevels, tileOf a = t ∧ s.bankHeld a 8 = false) →
    (∀ e, s.walk p q page.toNat = .ok e →
        ∃ u : State, exec .walkComplete s = .next u ∧ e ∈ (u.tl t).tlb ∧ SameMem s u
          ∧ ∀ va st, s.strandOf st.sid = some st → st.tile = t → st.wait = some (.walk va) →
              va.toNat / 2 ^ e.bits * 2 ^ e.bits = e.base → u.strandOf st.sid = some { st with wait := none })
    ∧ (∀ c va st, s.walk p q page.toNat = .fault c → c ≠ cMemerr →
        s.walkers t page none = [st] → s.strandOf st.sid = some st → st.wait = some (.walk va) → st.isCtl = false →
        st.hslot = false → st.inTrap = false → st.utv ≠ 0 →
        ∃ (u : State) (st' : Strand), exec .walkComplete s = .next u ∧ u.strandOf st.sid = some st' ∧ SameMem s u
          ∧ st'.inTrap = true ∧ st'.utval = va ∧ st'.utpc = wd (8 * st.pc.toNat)
          ∧ st'.utc = wd ((if st.cOnly then 256 else 0) + c) ∧ st'.pc = BitVec.ofNat 53 (st.utv.toNat / 8)
          ∧ st'.wait = none ∧ st'.g = st.g)

/-- R177, R190, R287: the reads of a walk are pinned fetches. The first entry, where another tile holds it, is asked of that tile by one
packet; where an installed bank command holds it, the walk waits; and an answer is noted at its level. How far a walk comes in one
event is the schedule's (log 2). -/
def WalkFetches : Prop :=
  (∀ (s : State) (p : Nat),
    let t := s.inp.k
    let page := s.inp.val
    let root := (s.pas p).rootOf (paddockOf t)
    let a := localOf root + 8 * (page.toNat / 2 ^ 47 % 2 ^ 9)
    s.pasOfTile t = some p → page ∈ (s.tl t).walks.take 16 → (s.tl t).failed = false →
    (s.tl t).walkRuns.find? (·.page == page) = none → s.tableOk (paddockOf t) root = true →
    (tileOf a ≠ t → ∃ (u : State) (k : Packet), exec .walkComplete s = .next u ∧ u.mesh = s.mesh ++ [k]
      ∧ k.body = .fetch 0 page a (.load 8 false 0) ∧ k.src = t ∧ k.want = 1 ∧ (u.tl t).walks = (s.tl t).walks
      ∧ k.dst = (if tileOf a < 16384 then (s.pas p).forward (tileOf a) else tileOf a)
      ∧ u.strands = s.strands ∧ (u.tl t).tlb = (s.tl t).tlb ∧ SameMem s u)
    ∧ (tileOf a = t → s.bankHeld a 8 = true → ∃ u : State, exec .walkComplete s = .next u ∧ u.mesh = s.mesh
      ∧ (u.tl t).walks = (s.tl t).walks ∧ u.strands = s.strands ∧ (u.tl t).tlb = (s.tl t).tlb ∧ SameMem s u))
  ∧ (∀ (s : State) (k : Packet) (sid addr : Word) (r : Req) (v : VLong) (c : Option Nat) (t n x : Nat) (w : Walking),
      s.packet s.inp.k = some k → k.body = .data sid r v c addr → k.party = .walk t n → (s.tl t).walkRuns = [w] → w.id = n →
      tfind w.log k.key = some (.out x) → ∃ u : State, exec .pinnedFetchReply s = .next u ∧ SameMem s u ∧ u.strands = s.strands
        ∧ (u.tl t).walkRuns = [{ w with log := tset w.log k.key (match c with | some e => .fault e | none => .val v.toNat) }])

end Sys2Proof

/-- R24, R174 to R178, R190, R287: page walks: what they yield, what their end leaves, and how they read the tables. -/
def Obligations.WalksComplete : Prop := WalkReadsTables ∧ WalkEnds ∧ WalkFetches

/-- R87, R180, R190, R202, R203, R214, R218, R237: a pinned read leaves as one packet once the strand's operations are acknowledged; its
home reads, or performs the atomic, and answers; the answer completes the bundle with the value, or with the trap of its error. The
8 bytes of a bundle come to the fetch buffer of the core (log 84), and the slice record to the bundle that asked for it (log 81); that
a bundle whose fetch fails is charged its turn is the model's choice (log 23). -/
def Obligations.PinnedReads : Prop :=
  (∀ (s : State) (st : Strand) (addr : Word) (pa : Nat) (r : Req), s.inp.m ≠ 1 → s.strandOf s.inp.sid = some st →
      st.wait = some (.fetch addr pa r) → r.ofWalk = false → st.isCtl = false → s.moves st = true →
      (s.mayLeave st = false → ∃ t : State, exec .pinnedFetchSend s = .next t ∧ t.mesh = s.mesh ∧ t.strandOf s.inp.sid = some st
        ∧ SameMem s t)
      ∧ (s.mayLeave st = true → st.fail = none →
        let d := destOf st.pasture (s.homeOf pa)
        ∃ (t : State) (k : Packet), exec .pinnedFetchSend s = .next t ∧ t.mesh = s.mesh ++ [k]
        ∧ k.body = .fetch st.sid addr (localOf pa) r ∧ k.src = st.tile ∧ k.want = 1
        ∧ k.dst = (if d < 16384 then (s.pas st.pasture).forward d else d)
        ∧ t.strandOf s.inp.sid = some { st with wait := some (.reply addr pa r) } ∧ SameMem s t))
  ∧ (∀ (s : State) (k : Packet) (sid addr : Word) (key : Nat) (r : Req), s.inp.m ≠ 2 → s.packet s.inp.k = some k →
      k.body = .fetch sid addr key r → s.corr = [] → s.mem.wf = true → k.dst < 16384 → (∀ n e, r = .block n e → 8 ≤ n) →
      let t := s.target k
      let answers (v : Nat) (c : Option Nat) (u : State) : Prop := ∃ j, exec .pinnedFetchRequest s = .next u
        ∧ u.mesh = ldel (·.id == k.id) s.mesh ++ [j] ∧ j.body = .data sid r (BitVec.ofNat 2048 v) c addr ∧ j.dst = k.src
      let wide : Prop := ((∃ d, r = .vload d) ∨ (∃ d w, r = .packet d w) ∨ (∃ n e, r = .block n e ∧ n % 8 = 0 ∧ n ≤ 192))
        ∧ k.log = [] ∧ s.inp.vals = []
      ((s.tl t).failed = true → s.copyFetch k = false → ∃ u, answers 0 (some cHomeLost) u ∧ SameMem s u)
      ∧ ((s.tl t).failed = false → r.bytes ≤ 8 ∨ wide → s.badAt key r.bytes = true →
          ∃ u, answers 0 (some cMemerr) u ∧ SameMem s u)
      ∧ ((s.tl t).failed = false → r.bytes ≤ 8 → s.badAt key r.bytes = false → s.bankHeld key r.bytes = true →
          s.bankParty k = false → ∃ u, exec .pinnedFetchRequest s = .next u ∧ u.mesh.map (·.id) = s.mesh.map (·.id)
            ∧ u.strands = s.strands ∧ SameMem s u)
      ∧ ((s.tl t).failed = false → r.bytes ≤ 8 ∨ wide → s.bankHeld key r.bytes = false → s.badAt key r.bytes = false →
          ∃ u, answers (memRead s.mem key r.bytes) none u
            ∧ (match r with
               | .amor op n b _ => memRead u.mem key n = amoNew op n (memRead s.mem key n) (b.toNat % 2 ^ (8 * n)) % 2 ^ (8 * n)
                   ∧ SameMemBut s u key n
               | .cas n old new _ => memRead u.mem key n =
                     (if memRead s.mem key n = old.toNat % 2 ^ (8 * n) then new.toNat % 2 ^ (8 * n) else memRead s.mem key n)
                   ∧ SameMemBut s u key n
               | _ => SameMem s u)))
  ∧ (∀ (s : State) (k : Packet) (sid addr a0 : Word) (pa : Nat) (r : Req) (v : VLong) (st : Strand),
      s.packet s.inp.k = some k → k.body = .data sid r v none addr → k.party = .strand sid →
      s.strandOf sid = some st → st.wait = some (.reply a0 pa r) → st.isCtl = false →
      let gives (d : RegNo) (w : Word) : Prop := ∃ (t : State) (st' : Strand), exec .pinnedFetchReply s = .next t
        ∧ t.strandOf sid = some st' ∧ RegSet st st' d w
        ∧ st' = st.done st'.g (st.pc + 1) ∧ t.mesh = ldel (·.id == k.id) s.mesh ∧ SameMem s t
      match r with
      | .load n sg d => gives d (if sg then BitVec.ofInt 64 (signedOf (8 * n) v.toNat) else wd v.toNat)
      | .amor _ _ _ d => gives d (wd v.toNat)
      | .cas _ _ _ d => gives d (wd v.toNat)
      | .poll zero target => st.hslot = false → ∃ t : State, exec .pinnedFetchReply s = .next t ∧ SameMem s t
          ∧ t.strandOf sid = some (if counterHolds zero target v.toNat then st.advance
              else { st with wait := some (.poll addr pa zero target) })
      | .code => ∃ t : State, exec .pinnedFetchReply s = .next t ∧ SameMem s t ∧ t.strandOf sid = some { st with wait := none }
          ∧ tget (t.tl st.tile).fbuf st.core [] = ((pa, v.toNat) :: tget (s.tl st.tile).fbuf st.core []).take 128
      | .record => ∃ t : State, exec .pinnedFetchReply s = .next t ∧ SameMem s t ∧ t.strandOf sid =
          some { st with wait := none, pend := st.pend.map (fun b => { b with log := tset b.log (memoKey recordKey) 0 }) }
      | _ => True)
  ∧ (∀ (s : State) (k : Packet) (sid addr a0 : Word) (pa c : Nat) (r : Req) (v : VLong) (st : Strand),
      s.packet s.inp.k = some k → k.body = .data sid r v (some c) addr → k.party = .strand sid →
      s.strandOf sid = some st → st.wait = some (.reply a0 pa r) → (match r with | .wload _ _ | .block _ _ | .record => False | _ => True) →
      exec .pinnedFetchReply s = .next ((s.accept k).asStrand sid (fun s =>
        let u := s.upd (fun st => { st with wait := none })
        (if r = .code then u.chargeUnissued else u).trapC c addr)))

/-! ### Packets -/

namespace Sys2Proof

/-- Packet k, the one the event names, is next in its party's sequence at its home t (R82). -/
def InTurn (s : State) (k : Packet) (t : Nat) : Prop :=
  s.packet s.inp.k = some k ∧ s.target k = t ∧ seqGet s.seqExp k.party t = k.seq

/-- The packet is gone from the mesh, one answer goes back to its source, and the sequence has moved on. -/
def Answered (s u : State) (k : Packet) (t : Nat) (b : Body) : Prop :=
  ∃ j, u.mesh = ldel (·.id == k.id) s.mesh ++ [j] ∧ j.body = b ∧ j.dst = k.src ∧ j.party = k.party
    ∧ seqGet u.seqExp k.party t = k.seq + 1

end Sys2Proof

/-- R82, R88, R193, R208, R388: posted operations at their home. In its turn a store writes its bytes and an atomic its word, and
is acknowledged; before its turn it is refused and kept; after it, it is acknowledged again and changes nothing; a failed tile
answers HOME_LOST; a word held by a bank command makes it wait, and of a vector that word alone. -/
def Obligations.PostedOperations : Prop :=
  ∀ (s : State) (k : Packet) (t : Nat), s.inp.m ≠ 2 → s.packet s.inp.k = some k → k.dst < 16384 → s.target k = t → t < 16384 →
    s.mem.wf = true → s.corr = [] →
    (∀ pa n v addr, k.body = .post (.store pa n v addr) →
      let wide : Prop := n % 8 = 0 ∧ n ≤ 256 ∧ k.log = [] ∧ s.inp.vals = []
      (k.seq < seqGet s.seqExp k.party t → ∃ (u : State) (j : Packet), exec .postedOpArrival s = .next u ∧ SameMem s u
        ∧ u.mesh = ldel (·.id == k.id) s.mesh ++ [j] ∧ j.body = .ack k.id ∧ j.dst = k.src)
      ∧ (seqGet s.seqExp k.party t < k.seq → k.cls ≠ 0 → ¬ (k.src < 16384 ∧ (s.tl k.src).failed = true) →
        ∃ (u : State) (j : Packet), exec .postedOpArrival s = .next u ∧ SameMem s u
        ∧ u.mesh = ldel (·.id == k.id) s.mesh ++ [j] ∧ j.body = .refused k.id ∧ j.dst = k.src
        ∧ u.dropped.map (·.id) = s.dropped.map (·.id) ++ [k.id])
      ∧ (seqGet s.seqExp k.party t = k.seq → (s.tl t).failed = true → ∃ u : State, exec .postedOpArrival s = .next u
        ∧ SameMem s u ∧ Answered s u k t (.nack k.id cHomeLost addr))
      ∧ (seqGet s.seqExp k.party t = k.seq → (s.tl t).failed = false → n ≤ 8 → s.bankParty k = false → s.bankHeld pa n = true →
          ∃ u : State, exec .postedOpArrival s = .next u ∧ SameMem s u ∧ u.mesh.map (·.id) = s.mesh.map (·.id)
            ∧ u.unacked = s.unacked ∧ u.seqExp = s.seqExp)
      ∧ (seqGet s.seqExp k.party t = k.seq → (s.tl t).failed = false → 8 < n → wide → pa % 8 = 0 →
          (∃ i, i < n / 8 ∧ s.bankHeld (pa + 8 * i) 8 = true) →
          ∃ u : State, exec .postedOpArrival s = .next u ∧ SameMemBut s u pa n ∧ u.mesh.map (·.id) = s.mesh.map (·.id)
            ∧ ∀ i, i < n / 8 → memRead u.mem (pa + 8 * i) 8 =
                (if s.bankHeld (pa + 8 * i) 8 then memRead s.mem (pa + 8 * i) 8 else v.toNat / 2 ^ (64 * i) % 2 ^ 64))
      ∧ (seqGet s.seqExp k.party t = k.seq → (s.tl t).failed = false → n ≤ 8 ∨ wide → s.bankHeld pa n = false →
          s.badAt pa n = false →
          ∃ u : State, exec .postedOpArrival s = .next u ∧ memRead u.mem pa n = v.toNat % 2 ^ (8 * n) ∧ SameMemBut s u pa n
            ∧ Answered s u k t (.ack k.id)))
    ∧ (∀ op pa n b addr, k.body = .post (.amo op pa n b addr) → seqGet s.seqExp k.party t = k.seq →
        (s.tl t).failed = false → s.bankHeld pa n = false →
        (s.badAt pa n = true → ∃ u : State, exec .postedOpArrival s = .next u ∧ SameMem s u ∧ Answered s u k t (.nack k.id cMemerr addr))
        ∧ (s.badAt pa n = false → ∃ u : State, exec .postedOpArrival s = .next u
            ∧ memRead u.mem pa n = amoNew op n (memRead s.mem pa n) (b.toNat % 2 ^ (8 * n)) % 2 ^ (8 * n)
            ∧ SameMemBut s u pa n ∧ Answered s u k t (.ack k.id)))
    ∧ (∀ pa addr, k.body = .post (.joinDec pa addr) → seqGet s.seqExp k.party t = k.seq → (s.tl t).failed = false →
        s.bankHeld pa 8 = false → s.badAt pa 8 = false → ∃ u : State, exec .postedOpArrival s = .next u
          ∧ memRead u.mem pa 8 = (memRead s.mem pa 8 + (2 ^ 64 - 1)) % 2 ^ 64 ∧ SameMemBut s u pa 8
          ∧ Answered s u k t (.ack k.id))
    ∧ (∀ pa err, k.body = .post (.count pa err) → seqGet s.seqExp k.party t = k.seq → (s.tl t).failed = false →
        s.bankHeld pa 8 = false → s.badAt pa 8 = false → ∃ u : State, exec .postedOpArrival s = .next u
          ∧ memRead u.mem pa 8 = counterUp (memRead s.mem pa 8) 1 err % 2 ^ 64 ∧ SameMemBut s u pa 8
          ∧ Answered s u k t (.ack k.id))

/-- R80, R82, R192, R193, R390, R392: what comes back to a source, and the loss of packets. An acknowledgement frees the retransmit
entry, and a class-0 operation that waited behind it is injected (R393); a failed one also records the first failure of its
strand; a dropped packet of class 1 or 2 is noticed, and sent again, as class 1 where it needs a token that is not there; class 0
is never dropped; a tile's token comes back. -/
def Obligations.AcknowledgementsAndLoss : Prop :=
  (∀ (s : State) (k : Packet) (n : Nat), s.packet s.inp.k = some k → k.body = .ack n →
      (∀ o, s.unacked.find? (·.id == n) = some o →
        match o.body with | .post (.push _ _) | .post (.msg _) | .post (.event _) => False | _ => True) →
      s.waiting = [] → s.ends = [] → ∃ t : State, exec .postedAck s = .next t ∧ t.unacked = ldel (·.id == n) s.unacked ∧ t.mesh = ldel (·.id == k.id) s.mesh
        ∧ t.strands = s.strands ∧ SameMem s t)
  ∧ (∀ (s : State) (k o w : Packet), s.packet s.inp.k = some k → k.body = .ack o.id → s.unacked = [o, w] → o.id ≠ w.id →
      (∃ a b c d, o.body = .post (.store a b c d)) → s.waiting = [w] → w.want = 0 → w.party = o.party → w.dst = o.dst → s.ends = [] →
      ∃ (t : State) (j : Packet), exec .postedAck s = .next t ∧ t.waiting = [] ∧ t.mesh = ldel (·.id == k.id) s.mesh ++ [j]
        ∧ j.id = w.id ∧ j.dst = w.dst ∧ j.seq = w.seq ∧ j.body = (w.stamped (s.pasTime w.pasture w.src)).body ∧ SameMem s t)
  ∧ (∀ (s : State) (k : Packet) (n cause : Nat) (addr sid : Word) (st : Strand), s.packet s.inp.k = some k →
      k.body = .nack n cause addr → k.party = .strand sid → s.strandOf sid = some st →
      (∀ o, s.unacked.find? (·.id == n) = some o →
        match o.body with | .post (.bank _) | .post (.mxsend _ _) | .post (.push _ _) => False | _ => True) →
      s.waiting = [] → s.ends = [] →
      ∃ (t : State) (st' : Strand), exec .failedAck s = .next t ∧ t.unacked = ldel (·.id == n) s.unacked ∧ t.strandOf sid = some st'
        ∧ st' = { st with fail := if st.fail.isNone then some (cause, addr) else st.fail })
  ∧ (∀ (s : State) (k : Packet), s.packet s.inp.k = some k →
      (k.cls = 0 → exec .packetDrop s = .next s)
      ∧ (k.cls = 1 ∨ k.cls = 2 → ¬ (k.src < 16384 ∧ (s.tl k.src).failed = true) →
          ∃ (t : State) (j : Packet), exec .packetDrop s = .next t ∧ t.dropped = s.dropped ++ [k]
          ∧ t.mesh = ldel (·.id == k.id) s.mesh ++ [j] ∧ j.body = .refused k.id ∧ j.dst = k.src ∧ SameMem s t))
  ∧ (∀ (s : State) (k d : Packet) (n : Nat), s.packet s.inp.k = some k → k.body = .refused n →
      s.dropped.find? (·.id == n) = some d → ∃ t : State, exec .refusalNotice s = .next t ∧ t.mesh = ldel (·.id == k.id) s.mesh
        ∧ t.dropped = ldel (·.id == n) s.dropped ∧ t.resend = s.resend ++ [{ d with tries := d.tries + 1 }] ∧ SameMem s t)
  ∧ (∀ (s : State) (k : Packet), s.resend.find? (·.id == s.inp.k) = some k → ∃ (t : State) (c : Nat), exec .retransmit s = .next t
        ∧ t.resend = ldel (·.id == s.inp.k) s.resend ∧ t.mesh = s.mesh ++ [{ k with cls := c }]
        ∧ (k.want ≠ 0 ∨ (s.tl k.src).token = true → c = k.want) ∧ (k.want = 0 → (s.tl k.src).token = false → c = 1)
        ∧ t.unacked = s.unacked ∧ SameMem s t)
  ∧ (∀ s : State, ∃ t : State, exec .class0TokenReturn s = .next t ∧ (t.tl s.inp.k).token = true
        ∧ (∀ n, n ≠ s.inp.k → t.tl n = s.tl n) ∧ SameMem s t ∧ t.strands = s.strands)

/-! ### Floating point -/

namespace Sys2Proof

/-- One value that is not NaN lies below another. -/
def FVal.below : FVal → FVal → Prop
  | .inf a, .inf b => a = true ∧ b = false
  | .inf a, _ => a = true
  | _, .inf b => b = false
  | x, y => FVal.rat x < FVal.rat y

/-- R108, R120, R121, R161, R268: the exact results that rounding starts from. Sums, products, quotients and fused products of
finite values are the rational ones; the invalid operations and the divisions by zero raise their flags; a NaN operand gives a
NaN, with NV where one signals. -/
def ExactOperations : Prop :=
  ∀ (m : Nat) (x y z : FVal),
    (FVal.proper x → FVal.proper y →
      FVal.rat (addF m x y).1 = FVal.rat x + FVal.rat y ∧ (addF m x y).2 = 0
      ∧ FVal.rat (mulF x y).1 = FVal.rat x * FVal.rat y ∧ (mulF x y).2 = 0
      ∧ (FVal.rat y ≠ 0 → FVal.rat (divF x y).1 = FVal.rat x / FVal.rat y ∧ (divF x y).2 = 0)
      ∧ (FVal.rat y = 0 → FVal.rat x ≠ 0 → divF x y = (.inf (x.neg != y.neg), fDZ))
      ∧ (FVal.rat y = 0 → FVal.rat x = 0 → divF x y = (.nan false, fNV))
      ∧ (FVal.proper z → FVal.rat (fmaF m z x y).1 = FVal.rat z + FVal.rat x * FVal.rat y ∧ (fmaF m z x y).2 = 0)
      ∧ (FVal.rat x + FVal.rat y = 0 → x.neg ≠ y.neg → (addF m x y).1.neg = (m == 3)))
    ∧ (∀ a, addF m (.inf a) (.inf (!a)) = (.nan false, fNV))
    ∧ (∀ a, FVal.proper x → FVal.rat x = 0 → mulF (.inf a) x = (.nan false, fNV) ∧ mulF x (.inf a) = (.nan false, fNV))
    ∧ (x.isNaN = true ∨ y.isNaN = true → ∀ r ∈ [addF m x y, mulF x y, divF x y],
        r.1.isNaN = true ∧ r.2 = flagIf (x.signals || y.signals) fNV)

/-- R120, R161: the square root: of −0 it is −0, of +∞ it is +∞, and of a negative non-zero value NaN with NV. Of a positive value
n / d it is a rational that lies on the same side of j / 2^i as the root does, or on it where the root does, whatever j, for every i for
which that can matter to a format of the given fraction bits; so it rounds as the root does. -/
def SquareRoots : Prop :=
  ∀ frac : Nat,
    (∀ s, sqrtF frac (.nan s) = (.nan false, flagIf s fNV))
    ∧ sqrtF frac (.inf false) = (.inf false, 0) ∧ sqrtF frac (.inf true) = (.nan false, fNV)
    ∧ (∀ s d, sqrtF frac (.fin s 0 d) = (.fin s 0 1, 0))
    ∧ (∀ n d, n ≠ 0 → sqrtF frac (.fin true n d) = (.nan false, fNV))
    ∧ (∀ n d, n ≠ 0 → d ≠ 0 → ∃ p q, sqrtF frac (.fin false n d) = (.fin false p q, 0) ∧ q ≠ 0
        ∧ ∀ i j, i ≤ frac + 4 ∨ 2 ^ i * n ≤ 2 ^ (frac + 4) * d →
            (j * j * d < n * 4 ^ i ↔ j * q < p * 2 ^ i) ∧ (n * 4 ^ i < j * j * d ↔ p * 2 ^ i < j * q))

/-- R59, R162, R164: the eight conditions of FCMP, in the order of their codes, and FMIN and FMAX, in numbers. −0 equals +0 in a
comparison, and lies below it for FMIN and FMAX; a NaN makes no pair ordered, and one operand that is not NaN is the result. -/
def Comparisons : Prop :=
  (∀ x y : FVal, FVal.proper x ∨ (∃ a, x = .inf a) → FVal.proper y ∨ (∃ a, y = .inf a) →
      let lt := FVal.below x y
      let gt := FVal.below y x
      let is (k : Nat) (p : Prop) : Prop := ((cmpF k x y).1 = true ↔ p) ∧ (cmpF k x y).2 = 0
      is 0 (¬ lt ∧ ¬ gt) ∧ is 1 (lt ∨ gt) ∧ is 2 lt ∧ is 3 (¬ gt) ∧ is 4 gt ∧ is 5 (¬ lt) ∧ is 6 False ∧ is 7 True)
  ∧ (∀ x y : FVal, x.isNaN = true ∨ y.isNaN = true →
      let sig := flagIf (x.signals || y.signals) fNV
      cmpF 0 x y = (false, sig) ∧ cmpF 1 x y = (true, sig) ∧ (∀ k ∈ [2, 3, 4, 5], cmpF k x y = (false, fNV))
      ∧ cmpF 6 x y = (true, sig) ∧ cmpF 7 x y = (false, sig))
  ∧ (∀ (c a b : Nat) (ftz : Bool), c ≤ 3 → a < 2 ^ tyBits c → b < 2 ^ tyBits c →
      let w := tyBits c
      let x := decodeF c a ftz
      let y := decodeF c b ftz
      let nan := [0x7FC00000, 0x7FF8000000000000, 0x7FC0, 0x7E00].getD c 0
      -- the operand's bits after flush: a subnormal number is a zero of its sign
      let flushed (i : Nat) : Nat :=
        if ftz = true ∧ i % 2 ^ (w - 1) < 2 ^ ([23, 52, 7, 10].getD c 0) then i / 2 ^ (w - 1) * 2 ^ (w - 1) else i
      let gives (lo hi : Nat) : Prop :=
        minMaxF c false ftz a b = { bits := lo, fl := flagIf (x.signals || y.signals) fNV }
        ∧ minMaxF c true ftz a b = { bits := hi, fl := flagIf (x.signals || y.signals) fNV }
      let first (x y : FVal) : Prop := FVal.below x y ∨ (¬ FVal.below y x ∧ x.neg = true ∧ y.neg = false)
      (x.isNaN = true → y.isNaN = true → gives nan nan)
      ∧ (x.isNaN = true → y.isNaN = false → gives (flushed b) (flushed b))
      ∧ (x.isNaN = false → y.isNaN = true → gives (flushed a) (flushed a))
      ∧ (x.isNaN = false → y.isNaN = false →
          (first x y → gives (flushed a) (flushed b)) ∧ (¬ first x y → gives (flushed b) (flushed a))))

end Sys2Proof

/-- R59, R108, R120, R121, R161, R162, R164, R268: the exact results that rounding starts from, the square root, and the comparisons. -/
def Obligations.ExactArithmetic : Prop := ExactOperations ∧ SquareRoots ∧ Comparisons

namespace Sys2Proof

/-- R106, R107, R111, R114, R117: a number of a format, read and rounded back into it in any mode, is itself and raises no
flag; so conversion to the same format, and every exact result that the format holds, is exact. -/
def NumbersAreKept : Prop :=
  ∀ (c m b : Nat), c ≤ 7 → m ≤ 4 → b < 2 ^ tyBits c → (decodeF c b false).isNaN = false →
    roundTo c m false false (decodeF c b false) = { bits := b, fl := 0 }

/-- R114: result r is value v rounded in mode m, among the finite numbers of format c whose codes are multiples of 2^g: RNE the nearest,
and of two the one whose code is even; RTZ the nearest of no greater magnitude; RUP the least that is no less; RDN the greatest that is
no greater; RTO, of the two neighbours, the one whose code is odd. NX is raised exactly where the value is not one of them. -/
def Rounded (c m g : Nat) (v : ℚ) (r : FRes) : Prop :=
  let value (b : Nat) : ℚ := FVal.rat (decodeF c b false)
  let among (b : Nat) : Prop := b < 2 ^ tyBits c ∧ FVal.proper (decodeF c b false) ∧ 2 ^ g ∣ b
  let y := value r.bits
  let code := r.bits / 2 ^ g
  (∃ b, among b ∧ |v| ≤ value b) →
    among r.bits ∧ (r.fl &&& fNX = 0 ↔ y = v)
    ∧ (m = 0 → ∀ b, among b → |v - y| ≤ |v - value b| ∧ (|v - y| = |v - value b| → value b = y ∨ code % 2 = 0))
    ∧ (m = 1 → |y| ≤ |v| ∧ 0 ≤ y * v ∧ ∀ b, among b → |value b| ≤ |v| → |value b| ≤ |y|)
    ∧ (m = 2 → v ≤ y ∧ ∀ b, among b → v ≤ value b → y ≤ value b)
    ∧ (m = 3 → y ≤ v ∧ ∀ b, among b → value b ≤ v → value b ≤ y)
    ∧ (m = 4 → y ≠ v → code % 2 = 1 ∧ ∀ b, among b → value b ≠ v ∧ ¬ (min v y < value b ∧ value b < max v y))

/-- R106, R111, R113, R114, R275: the rounding of a value that no finite number of the format exceeds in magnitude, among all finite
numbers of the format; and that of the special functions, among those whose fraction is 0 below its 13 highest bits. -/
def RoundingIsCorrect : Prop :=
  ∀ (c m n d : Nat) (neg : Bool), c ≤ 7 → m ≤ 4 → n ≠ 0 → d ≠ 0 →
    let v : ℚ := (if neg then -1 else 1) * n / d
    Rounded c m 0 v (roundTo c m false false (.fin neg n d))
    ∧ (c ≤ 3 → Rounded c m ([10, 39, 0, 0].getD c 0) v (roundSpecial c m false (.fin neg n d, 0)))

end Sys2Proof

/-- R106, R107, R111, R113, R114, R117: what rounding keeps, and what it gives for every other value within the range of a format. -/
def Obligations.FormatsRoundTrip : Prop := NumbersAreKept ∧ RoundingIsCorrect

namespace Sys2Proof

/-- An A-slot floating-point instruction with result r: the register and the flags; where an enabled flag is raised, the trap FP
with the flags, and nothing else. -/
def FpResult (i : Instr) (s : State) (d : RegNo) (r : FRes) (n : Nat) : Prop :=
  let te : Flags := BitVec.ofNat 5 (s.x.src.sw.toNat / 2 ^ 5)
  (r.fl &&& te = 0 → ∃ t : State, exec i s = .next t ∧ RegSet s.x.me t.x.me d (wd r.bits)
    ∧ t = { s with x := { s.x with
          me := { s.x.me with g := t.x.me.g, sw := s.x.me.sw ||| zx r.fl }, aflags := s.x.aflags ||| r.fl, turns := n } }
    ∧ SameMem s t)
  ∧ (r.fl &&& te ≠ 0 → exec i s = .next (({ s with x := { s.x with turns := n } } : State).trapAt true cFp (zx r.fl)))

end Sys2Proof

/-- R116, R120 to R122, R144, R160 to R165: the scalar floating-point instructions: operands after flush, the exact result, one
rounding in the instruction's mode or SW.RM, the flags or their trap, the turns; and the sign instructions bit by bit. -/
def Obligations.ScalarFloatingPoint : Prop :=
  ∀ (s : State) (d a b : RegNo) (r t : BitVec 3), t.toNat < 4 →
    let c := [1, 0, 2, 3].getD t.toNat 0
    let w := tyBits c
    let ftz := s.x.src.sw.getLsbD 13
    let m := if r = 7 then s.x.src.sw.toNat / 2 ^ 10 % 8 else r.toNat
    let bits (x : RegNo) : Nat := (s.g x).toNat % 2 ^ w
    let val (x : RegNo) : FVal := decodeF c (bits x) ftz
    let rnd (x : Ex) : FRes := { (roundTo c m false ftz x.1) with fl := (roundTo c m false ftz x.1).fl ||| x.2 }
    let n := s.x.turns
    let signed (i : Instr) (sg : Bool) : Prop := ∃ v : Word, AWrites i s d v n
      ∧ ∀ j, j < 64 → v.getLsbD j = (if j = w - 1 then sg else decide (j < w) && (s.g a).getLsbD j)
    FpResult (.fadd d a b r t) s d (rnd (addF m (val a) (val b))) n
    ∧ FpResult (.fsub d a b r t) s d (rnd (addF m (val a) (negF (val b)))) n
    ∧ FpResult (.fmul d a b r t) s d (rnd (mulF (val a) (val b))) n
    ∧ FpResult (.ffma d a b r t) s d (rnd (fmaF m (val d) (val a) (val b))) n
    ∧ FpResult (.fdiv d a b r t) s d (rnd (divF (val a) (val b))) (if t = 0 then 8 else 4)
    ∧ FpResult (.fsqrt d a r t) s d (rnd (sqrtF (ffmt c).frac (val a))) (if t = 0 then 8 else 4)
    ∧ FpResult (.fmin d a b t) s d (minMaxF c false ftz (bits a) (bits b)) n
    ∧ FpResult (.fmax d a b t) s d (minMaxF c true ftz (bits a) (bits b)) n
    ∧ (∀ k : BitVec 3, FpResult (.fcmp d a b k t) s d
        { bits := if (cmpF k.toNat (val a) (val b)).1 then 1 else 0, fl := (cmpF k.toNat (val a) (val b)).2 } n)
    ∧ (∀ (x : BitVec 3) (sat : Bool), x.toNat < 4 →
        FpResult (.fcvt d a r x t sat) s d (roundTo ([1, 0, 2, 3].getD x.toNat 0) m sat ftz (val a)) n)
    ∧ signed (.fsgn d a b t) ((s.g b).getLsbD (w - 1))
    ∧ signed (.fsgnn d a b t) (!(s.g b).getLsbD (w - 1))
    ∧ signed (.fsgnx d a b t) ((s.g a).getLsbD (w - 1) != (s.g b).getLsbD (w - 1))

/-- R105, R118, R119, R165: FCVT to and from the integer types: a float rounds to an integer and, outside the range or NaN, gives
the end of the range, or 0, with NV; an integer rounds to a float; narrow signed results are sign-extended. -/
def Obligations.IntegerConversions : Prop :=
  ∀ (s : State) (d a : RegNo) (r x y : BitVec 3) (sat : Bool),
    let tc (t : BitVec 3) : Nat := [1, 0, 2, 3, 11, 16, 10, 14].getD t.toNat 0
    let m := if r = 7 then s.x.src.sw.toNat / 2 ^ 10 % 8 else r.toNat
    let ftz := s.x.src.sw.getLsbD 13
    let v := decodeF (tc y) ((s.g a).toNat % 2 ^ tyW (tc y)) ftz
    let lo : Int := if x = 4 then -2 ^ 63 else if x = 6 then -2 ^ 31 else 0
    let hi : Int := if x = 4 then 2 ^ 63 - 1 else if x = 5 then 2 ^ 64 - 1 else if x = 6 then 2 ^ 31 - 1 else 2 ^ 32 - 1
    let reg (i : Int) : Nat := (BitVec.ofInt 64 i).toNat
    (4 ≤ x.toNat → y.toNat < 4 →
      (v.isNaN = true → FpResult (.fcvt d a r x y sat) s d { bits := 0, fl := fNV } s.x.turns)
      ∧ (∀ neg, v = .inf neg → FpResult (.fcvt d a r x y sat) s d { bits := reg (if neg then lo else hi), fl := fNV } s.x.turns)
      ∧ (∀ neg p q, v = .fin neg p q →
          let i : Int := if neg then -((roundInt m neg p q).1 : Int) else (roundInt m neg p q).1
          (lo ≤ i → i ≤ hi → FpResult (.fcvt d a r x y sat) s d
            { bits := reg i, fl := if (roundInt m neg p q).2 then fNX else 0 } s.x.turns)
          ∧ (i < lo → FpResult (.fcvt d a r x y sat) s d { bits := reg lo, fl := fNV } s.x.turns)
          ∧ (hi < i → FpResult (.fcvt d a r x y sat) s d { bits := reg hi, fl := fNV } s.x.turns)))
    ∧ (4 ≤ y.toNat →
        let i : Int := if y = 4 then (s.g a).toInt else if y = 5 then (s.g a).toNat
          else if y = 6 then ((s.g a).setWidth 32).toInt else (s.g a).toNat % 2 ^ 32
        (x.toNat < 4 →
          FpResult (.fcvt d a r x y sat) s d (roundTo (tc x) m sat ftz (.fin (decide (i < 0)) i.natAbs 1)) s.x.turns)
        ∧ (4 ≤ x.toNat → ∃ v : Int, FpResult (.fcvt d a r x y sat) s d { bits := reg v, fl := 0 } s.x.turns
            ∧ lo ≤ v ∧ v ≤ hi
            ∧ (lo ≤ i → i ≤ hi → v = i)
            ∧ (sat = true → v = max lo (min hi i))
            ∧ (sat = false → (v - i) % (hi - lo + 1) = 0)))

/-! ### Vectors -/

namespace Sys2Proof

/-- The short vector register of a context. -/
def Machine.Strand.vreg (st : Strand) (r : RegNo) : VShort := st.v.toArray.getD r.toNat 0

/-- The vector instructions that may take a stream operand. -/
def streamable (l sb : Bool) (d a b : RegNo) (r e k : BitVec 3) : List Instr :=
  [.vadd l d a b r e sb, .vsub l d a b r e sb, .vmul l d a b r e sb, .vmin l d a b r e sb, .vmax l d a b r e sb,
   .vfma l d a b r e sb, .vfms l d a b r e sb, .vand l d a b r e sb, .vor l d a b r e sb, .vxor l d a b r e sb,
   .vshl l d a b r e sb, .vshr l d a b r e sb, .vcmp l d a b r e sb k, .vsel l d a b r e sb, .vperm l d a b r e sb,
   .vdotIp l d a b r e sb, .vdotCos l d a b r e sb, .vdotCosn l d a b r e sb, .vdotL2 l d a b r e sb,
   .vrcpn l d a b r e sb, .vrsqn l d a b r e sb]

/-- The vector instructions that write a vector register and take none. -/
def streamless (l : Bool) (d a b y x : RegNo) (r e : BitVec 3) (sat half : Bool) : List Instr :=
  [.vabs l d a r e, .vneg l d a r e, .vbcast l d a r e, .vredAdd l d a r e, .vredMin l d a r e, .vredMax l d a r e,
   .vcvt l d a x r sat y, .vpack l d a b r e sat y, .vunpack l d a half r e y, .vscale l d a b r y, .vrcp l d a r e,
   .vrsq l d a r e, .vexp2 l d a r e, .vlog2 l d a r e]

/-- R144, R248, R250, R252, R265 to R277: every short-class vector instruction without a stream operand writes the register that
its evaluation gives (VEXT a general register), sets VLIVE and ORs its flags into SW, or takes the trap FP; in long mode it is
ILLEGAL. -/
def ShortVectorInstructions : Prop :=
  ∀ (s : State) (d a b y x : RegNo) (r e k : BitVec 3) (sat half : Bool), d.toNat < 8 →
    ∀ i ∈ streamable false false d a b r e k ++ streamless false d a b y x r e sat half,
    let f := vecForm i
    let src := s.x.src
    let te : Flags := BitVec.ofNat 5 (src.sw.toNat / 2 ^ 5)
    let v := vecEval i { w := 256, a := (src.vreg f.a).toNat, b := (src.vreg f.b).toNat, d := (src.vreg f.d).toNat
                         x := s.vecScalar i, rm := src.sw.toNat / 2 ^ 10 % 8, ftz := src.sw.getLsbD 13, vsat := src.fmt.getLsbD 10 }
    (s.x.me.lmode = true → exec i s = .next (s.trapAt true cIllegal (zx s.x.w1)))
    ∧ (s.x.me.lmode = false → v.fl &&& te ≠ 0 →
        exec i s = .next (({ s with x := { s.x with turns := f.turns } } : State).trapAt true cFp (zx v.fl)))
    ∧ (s.x.me.lmode = false → v.fl &&& te = 0 → ∃ t : State, exec i s = .next t
        ∧ t.x.me.vreg d = BitVec.ofNat 256 v.val ∧ (∀ q : RegNo, q ≠ d → t.x.me.vreg q = s.x.me.vreg q)
        ∧ t = { s with x := { s.x with
              me := { s.x.me with v := t.x.me.v, sw := setBit s.x.me.sw 16 true ||| zx v.fl }
              aflags := s.x.aflags ||| v.fl, turns := f.turns } }
        ∧ SameMem s t)

/-- R258, R271: VEXT of the short class writes a general register with the element, sign- or zero-extended, or 0 beyond the
register's elements, and leaves every vector register and VLIVE alone. -/
def VectorExtract : Prop :=
  ∀ (s : State) (d a b : RegNo) (r e : BitVec 3), s.x.me.lmode = false →
    let c := vecTy e r
    let w := tyW c
    let j := (s.g b).toNat
    let x := (s.x.src.vreg a).toNat / 2 ^ (w * j) % 2 ^ w
    AWrites (.vext false d a b r e) s d
      (if 256 / w ≤ j then 0 else if 8 ≤ c ∧ c ≤ 11 then BitVec.ofInt 64 (signedOf w x) else wd x) 1

end Sys2Proof

/-- R248 to R277: short-class vector instructions. -/
def Obligations.ShortVectors : Prop := ShortVectorInstructions ∧ VectorExtract

namespace Sys2Proof

/-- R249, R267 to R271, R274, R277: what the element-wise vector instructions put into element j of their destination, for every class,
in the integers, or by the rounding of the exact result; and the integer sum of VRED.ADD and VDOT.IP. -/
def ElementResults : Prop :=
  ∀ (l sb sat : Bool) (d a b x y : RegNo) (r e k : BitVec 3) (v : VIn) (j : Nat), v.w = 256 ∨ v.w = 2048 →
    let c := vecTy e r
    let w := tyW c
    let lane (i : Instr) : Nat := (vecEval i v).val / 2 ^ (w * j) % 2 ^ w
    let ea := v.a / 2 ^ (w * j) % 2 ^ w
    let eb := v.b / 2 ^ (w * j) % 2 ^ w
    let ed := v.d / 2 ^ (w * j) % 2 ^ w
    let A := decodeInt c ea
    let B := decodeInt c eb
    let D := decodeInt c ed
    let wrap (n : Int) : Nat := (n % 2 ^ w).toNat
    let m := if e = 7 ∨ r = 7 then v.rm else r.toNat
    let F (n : Nat) : FVal := decodeF c n v.ftz
    let st : Bool := v.vsat && decide (4 ≤ c ∧ c ≤ 6)
    let fp (z : Ex) : Nat := (roundTo c m st v.ftz z.1).bits
    let fp0 (z : Ex) : Nat := (roundTo c m false v.ftz z.1).bits
    j < v.w / w →
    (e = 7 →
      lane (.vadd l d a b r e sb) = wrap (A + B) ∧ lane (.vsub l d a b r e sb) = wrap (A - B)
      ∧ lane (.vmul l d a b r e sb) = wrap (A * B)
      ∧ lane (.vmin l d a b r e sb) = wrap (min A B) ∧ lane (.vmax l d a b r e sb) = wrap (max A B)
      ∧ lane (.vabs l d a r e) = wrap (|A|) ∧ lane (.vneg l d a r e) = wrap (-A)
      ∧ lane (.vfma l d a b r e sb) = wrap (D + A * B) ∧ lane (.vfms l d a b r e sb) = wrap (D - A * B)
      ∧ lane (.vand l d a b r e sb) = ea &&& eb ∧ lane (.vor l d a b r e sb) = ea ||| eb
      ∧ lane (.vxor l d a b r e sb) = ea ^^^ eb
      ∧ lane (.vshl l d a b r e sb) = ea * 2 ^ (eb % w) % 2 ^ w
      ∧ lane (.vshr l d a b r e sb) = wrap (A / 2 ^ (eb % w))
      ∧ lane (.vcmp l d a b r e sb 0) = (if A = B then 2 ^ w - 1 else 0)
      ∧ lane (.vcmp l d a b r e sb 2) = (if A < B then 2 ^ w - 1 else 0)
      ∧ lane (.vsel l d a b r e sb) = (ea &&& ed) ||| (eb &&& (2 ^ w - 1 - ed)))
    ∧ (e ≠ 7 →
      lane (.vadd l d a b r e sb) = fp (addF m (F ea) (F eb)) % 2 ^ w
      ∧ lane (.vsub l d a b r e sb) = fp (addF m (F ea) (negF (F eb))) % 2 ^ w
      ∧ lane (.vmul l d a b r e sb) = fp (mulF (F ea) (F eb)) % 2 ^ w
      ∧ lane (.vfma l d a b r e sb) = fp (fmaF m (F ed) (F ea) (F eb)) % 2 ^ w
      ∧ lane (.vfms l d a b r e sb) = fp (fmaF m (F ed) (negF (F ea)) (F eb)) % 2 ^ w
      ∧ lane (.vmin l d a b r e sb) = (minMaxF c false v.ftz ea eb).bits % 2 ^ w
      ∧ lane (.vmax l d a b r e sb) = (minMaxF c true v.ftz ea eb).bits % 2 ^ w
      ∧ lane (.vcmp l d a b r e sb k) = (if (cmpF k.toNat (F ea) (F eb)).1 then 2 ^ w - 1 else 0)
      ∧ (c ≤ 3 → lane (.vrcpn l d a b r e sb) = (if passes (F ea) (F eb) then flushBits c ea v.ftz
          else fp0 (nanFirst [F ea, F eb] (bindEx (mulF (F eb) (F ea)) (fun p =>
            bindEx (addF m (.fin false 2 1) (negF p)) (mulF (F ea)))))) % 2 ^ w))
    ∧ lane (.vbcast l d a r e) = v.x.toNat % 2 ^ w
    ∧ lane (.vperm l d a b r e sb) = v.a / 2 ^ (w * (eb % (v.w / w))) % 2 ^ w
    ∧ (let wy := tyW y.toNat
       let wx := tyW x.toNat
       j < v.w / wx → j < v.w / wy →
         (vecEval (.vcvt l d a x r sat y) v).val / 2 ^ (wx * j) % 2 ^ wx
           = (convert y.toNat x.toNat (if r = 7 then v.rm else r.toNat) sat v.ftz (v.a / 2 ^ (wy * j) % 2 ^ wy)).bits % 2 ^ wx)
    ∧ (e = 7 → j = 0 →
        lane (.vredAdd l d a r e) = ((List.range (v.w / w)).map (fun n => v.a / 2 ^ (w * n) % 2 ^ w)).sum % 2 ^ w
        ∧ (vecEval (.vdotIp l d a b r e sb) v).val = ((((List.range (v.w / w)).map (fun n =>
            decodeInt c (v.a / 2 ^ (w * n) % 2 ^ w) * decodeInt c (v.b / 2 ^ (w * n) % 2 ^ w))).sum : Int) % 2 ^ 64).toNat)

/-- R267, R269, R270, R274, R277: signs, integer compares, VPACK, VUNPACK, VSCALE and VRSQN, element by element. -/
def FormatResults : Prop :=
  ∀ (l sb sat half : Bool) (d a b y : RegNo) (r e k : BitVec 3) (v : VIn) (j : Nat), v.w = 256 ∨ v.w = 2048 →
    let c := vecTy e r
    let w := tyW c
    let wy := tyW y.toNat
    let n := v.w / w
    let m := if e = 7 ∨ r = 7 then v.rm else r.toNat
    let m' := if r = 7 then v.rm else r.toNat
    let at_ (x w j : Nat) : Nat := x / 2 ^ (w * j) % 2 ^ w
    let lane (i : Instr) : Nat := at_ (vecEval i v).val w j
    let laneY (i : Instr) : Nat := at_ (vecEval i v).val wy j
    let ea := at_ v.a w j
    let eb := at_ v.b w j
    let A := decodeInt c ea
    let B := decodeInt c eb
    let F (n : Nat) : FVal := decodeF c n v.ftz
    let half' := 2 ^ (w - 1)
    (j < n → e ≠ 7 →
      lane (.vabs l d a r e) = (if c = 6 ∧ ea % half' = 0 then ea else ea % half')
      ∧ lane (.vneg l d a r e) = (if c = 6 ∧ ea % half' = 0 then ea else if ea < half' then ea + half' else ea - half')
      ∧ (c ≤ 3 → lane (.vrsqn l d a b r e sb) = (if passes (F ea) (F eb) then flushBits c ea v.ftz
          else (roundTo c m false v.ftz (nanFirst [F ea, F eb] (bindEx (mulF (F ea) (F ea)) (fun q => bindEx (mulF (F eb) q) (fun p =>
            bindEx (addF m (.fin false 3 1) (negF p)) (fun t => bindEx (mulF (F ea) t) (mulF (.fin false 1 2))))))).1).bits) % 2 ^ w))
    ∧ (j < n → e = 7 → k.toNat ≤ 5 →
        let holds : Prop := match k.toNat with
          | 0 => A = B | 1 => A ≠ B | 2 => A < B | 3 => A ≤ B | 4 => B < A | _ => B ≤ A
        (holds → lane (.vcmp l d a b r e sb k) = 2 ^ w - 1) ∧ (¬ holds → lane (.vcmp l d a b r e sb k) = 0))
    ∧ (j < v.w / wy → y.toNat ≤ 7 → 2 * wy ≤ w →
        laneY (.vpack l d a b r e sat y) =
          (if j < n then (convert c y.toNat m sat v.ftz (at_ v.a w j)).bits % 2 ^ wy
           else if j < 2 * n then (convert c y.toNat m sat v.ftz (at_ v.b w (j - n))).bits % 2 ^ wy else 0))
    ∧ (j < n → 2 * wy = w →
        lane (.vunpack l d a half r e y) =
          (convert y.toNat c m false v.ftz (at_ v.a wy ((if half then n else 0) + j))).bits % 2 ^ w)
    ∧ (j < v.w / wy → y.toNat ≤ 7 →
        let k := at_ v.b 8 (j / 32)
        let scale : FVal := if 127 ≤ k then .fin false (2 ^ (k - 127)) 1 else .fin false 1 (2 ^ (127 - k))
        laneY (.vscale l d a b r y) =
          (if k = 255 then canonNaN y.toNat
           else (roundTo y.toNat m' (v.vsat && decide (4 ≤ y.toNat ∧ y.toNat ≤ 6)) v.ftz
             (mulF (decodeF y.toNat (at_ v.a wy j) v.ftz) scale).1).bits % 2 ^ wy))

/-- R275, R276: VRCP, VRSQ, VEXP2 and VLOG2, rounded as their rule says. The reciprocal is the exact quotient; the reciprocal root, like
the root, a rational on the same side of whatever can matter; the powers of integers, the logarithms of powers of two and the special
inputs are stated in numbers. At every other input VEXP2 and VLOG2 round a rational approximation of the model's own (exp2F, log2F),
whose accuracy is not stated here. -/
def SpecialResults : Prop :=
  (∀ (l : Bool) (d a : RegNo) (r e : BitVec 3) (v : VIn) (j : Nat), v.w = 256 ∨ v.w = 2048 → e.toNat ≤ 3 →
    let c := vecTy e r
    let w := tyW c
    let m := if r = 7 then v.rm else r.toNat
    let lane (i : Instr) : Nat := (vecEval i v).val / 2 ^ (w * j) % 2 ^ w
    let ea := v.a / 2 ^ (w * j) % 2 ^ w
    let x := decodeF c ea v.ftz
    let rounds (i : Instr) (z : Ex) : Prop := lane i = (roundSpecial c m v.ftz z).bits % 2 ^ w
    let frac := [23, 52, 7, 10].getD c 0
    let one := [0x3F800000, 0x3FF0000000000000, 0x3F80, 0x3C00].getD c 0
    j < v.w / w →
    rounds (.vrcp l d a r e) (divF (.fin false 1 1) x) ∧ rounds (.vrsq l d a r e) (rsqF frac x) ∧ rounds (.vlog2 l d a r e) (log2Ex x)
    ∧ (if ea % 2 ^ (w - 1) ≠ 0 ∧ ea % 2 ^ (w - 1) < 2 ^ frac ∧ v.ftz = false then lane (.vexp2 l d a r e) = one
       else rounds (.vexp2 l d a r e) (exp2Ex x)))
  ∧ (∀ frac : Nat,
      (∀ s, let n : Ex := (.nan false, flagIf s fNV)
        rsqF frac (.nan s) = n ∧ exp2Ex (.nan s) = n ∧ log2Ex (.nan s) = n ∧ divF (.fin false 1 1) (.nan s) = n)
      ∧ rsqF frac (.inf false) = (.fin false 0 1, 0) ∧ rsqF frac (.inf true) = (.nan false, fNV)
      ∧ exp2Ex (.inf false) = (.inf false, 0) ∧ exp2Ex (.inf true) = (.fin false 0 1, 0)
      ∧ log2Ex (.inf false) = (.inf false, 0) ∧ log2Ex (.inf true) = (.nan false, fNV)
      ∧ (∀ s d, rsqF frac (.fin s 0 d) = (.inf s, fDZ) ∧ exp2Ex (.fin s 0 d) = (.fin false 1 1, 0)
          ∧ log2Ex (.fin s 0 d) = (.inf true, fDZ))
      ∧ (∀ n d, n ≠ 0 → rsqF frac (.fin true n d) = (.nan false, fNV) ∧ log2Ex (.fin true n d) = (.nan false, fNV))
      ∧ (∀ n, n ≠ 0 → n ≤ 20000 → exp2Ex (.fin false n 1) = (.fin false (2 ^ n) 1, 0)
          ∧ FVal.rat (exp2Ex (.fin true n 1)).1 = 1 / 2 ^ n)
      ∧ (∀ i k : Nat, FVal.rat (log2Ex (.fin false (2 ^ i) (2 ^ k))).1 = (i : ℚ) - k ∧ (log2Ex (.fin false (2 ^ i) (2 ^ k))).2 = 0)
      ∧ (∀ n d, n ≠ 0 → d ≠ 0 → ∃ p q, rsqF frac (.fin false n d) = (.fin false p q, 0) ∧ q ≠ 0
          ∧ ∀ i j, i ≤ frac + 6 ∨ 2 ^ i * d ≤ 2 ^ (frac + 6) * n →
              (j * j * n < d * 4 ^ i ↔ j * q < p * 2 ^ i) ∧ (d * 4 ^ i < j * j * n ↔ p * 2 ^ i < j * q)))

/-- R272: the fixed order of a reduction of 2^k elements. -/
def reduced (f : Nat → Nat → Nat) : Nat → (Nat → Nat) → Nat
  | 0, x => x 0
  | k + 1, x => reduced f k (fun i => f (x i) (x (i + 2 ^ k)))

/-- R272, R273: reductions and distances: one result in element 0, and 0 above it. A distance of finite elements is its exact value
rounded once, to FP64 for FP64 elements and else to FP32; a NaN among the elements makes it NaN, and so do an infinite element and
a zero vector in VDOT.COS. -/
def ReductionResults : Prop :=
  ∀ (l sb : Bool) (d a b : RegNo) (r e : BitVec 3) (v : VIn) (n : Nat), v.w = 256 ∨ v.w = 2048 →
    let c := vecTy e r
    let w := tyW c
    let m := if e = 7 ∨ r = 7 then v.rm else r.toNat
    let va (i : Nat) : Nat := v.a / 2 ^ (w * i) % 2 ^ w
    let F (x : Nat) : FVal := decodeF c x v.ftz
    let st : Bool := v.vsat && decide (4 ≤ c ∧ c ≤ 6)
    let val (i : Instr) : Nat := (vecEval i v).val
    let lesser (a b : Nat) : Nat := if e = 7 then (if decodeInt c a < decodeInt c b then a else b) else (minMaxF c false v.ftz a b).bits
    let greater (a b : Nat) : Nat := if e = 7 then (if decodeInt c a < decodeInt c b then b else a) else (minMaxF c true v.ftz a b).bits
    let x (i : Nat) : FVal := F (va i)
    let y (i : Nat) : FVal := F (v.b / 2 ^ (w * i) % 2 ^ w)
    let t := if c = 1 then 1 else 0
    let wt := if c = 1 then 64 else 32
    let z := decodeF t (v.d % 2 ^ wt) v.ftz
    let sum (f : Nat → ℚ) : ℚ := ((List.range (v.w / w)).map f).sum
    let dots : List Instr := [.vdotIp l d a b r e sb, .vdotL2 l d a b r e sb, .vdotCos l d a b r e sb, .vdotCosn l d a b r e sb]
    let rounds (i : Instr) (q : ℚ) : Prop := ∃ f : FVal, FVal.proper f ∧ FVal.rat f = q ∧ val i = (roundTo t m false v.ftz f).bits
    let finite : Prop := ∀ i, i < v.w / w → FVal.proper (x i) ∧ FVal.proper (y i)
    let p := sum (fun i => FVal.rat (x i) * FVal.rat (y i))
    let xx := sum (fun i => FVal.rat (x i) ^ 2)
    let yy := sum (fun i => FVal.rat (y i) ^ 2)
    (v.w / w = 2 ^ n →
      val (.vredMin l d a r e) = reduced lesser n va % 2 ^ w ∧ val (.vredMax l d a r e) = reduced greater n va % 2 ^ w
      ∧ (e ≠ 7 → val (.vredAdd l d a r e) = reduced (fun a b => (roundTo c m st v.ftz (addF m (F a) (F b)).1).bits) n va % 2 ^ w))
    ∧ (e ≠ 7 → (∃ i, i < v.w / w ∧ ((x i).isNaN = true ∨ (y i).isNaN = true)) →
        ∀ i ∈ dots, val i = if c = 1 then 0x7FF8000000000000 else 0x7FC00000)
    ∧ (e ≠ 7 → finite →
        rounds (.vdotIp l d a b r e sb) p
        ∧ rounds (.vdotL2 l d a b r e sb) (sum (fun i => (FVal.rat (x i) - FVal.rat (y i)) ^ 2))
        ∧ (FVal.proper z → rounds (.vdotCosn l d a b r e sb) (p * FVal.rat z))
        ∧ (xx = 0 ∨ yy = 0 → val (.vdotCos l d a b r e sb) = if c = 1 then 0x7FF8000000000000 else 0x7FC00000)
        ∧ (xx ≠ 0 → yy ≠ 0 → p = 0 → rounds (.vdotCos l d a b r e sb) 0)
        ∧ (xx ≠ 0 → yy ≠ 0 → p ≠ 0 → ∃ i q : Nat, q ≠ 0
            ∧ val (.vdotCos l d a b r e sb) = (roundTo t m false v.ftz (.fin (decide (p < 0)) i q)).bits
            ∧ ∀ j k : Nat, k ≤ (if c = 1 then 52 else 23) + 4 →
                ((j : ℚ) ^ 2 * (xx * yy) < p ^ 2 * 4 ^ k ↔ j * q < i * 2 ^ k) ∧ (p ^ 2 * 4 ^ k < (j : ℚ) ^ 2 * (xx * yy) ↔ i * 2 ^ k < j * q)))
    ∧ (e ≠ 7 → (∃ i, i < v.w / w ∧ ((∃ g, x i = .inf g) ∨ (∃ g, y i = .inf g))) →
        val (.vdotCos l d a b r e sb) = if c = 1 then 0x7FF8000000000000 else 0x7FC00000)

end Sys2Proof

/-- R249, R267 to R277: what each vector instruction computes, for every class. -/
def Obligations.VectorElements : Prop := ElementResults ∧ FormatResults ∧ SpecialResults ∧ ReductionResults

/-! ### The long unit and streams -/

namespace Sys2Proof

/-- What an instruction takes with it into the sequencer (R256). -/
def queuedItem (s : State) (i : Instr) (scalar : Word) (pas : List Nat) : SeqItem :=
  { op := i, scalar := scalar, pas := pas, sw := s.x.src.sw, vsat := s.x.src.fmt.getLsbD 10, bundle := wd (8 * s.x.me.pc.toNat) }

/-- One entry is appended to the issuing core's sequencer, under the next number; no register, no flag and no byte of memory has
changed. -/
def Queued (s t : State) (item : SeqItem) (paired : Bool) (body : List SeqItem) (count : Nat) : Prop :=
  let u := s.unit s.here s.x.me.core
  let u' := t.unit s.here s.x.me.core
  u'.q = u.q ++ [{ idx := u.next, item := item, paired := paired, body := body, count := count }] ∧ u'.next = (u.next + 1) % 16
    ∧ u'.w = u.w ∧ u'.owner = u.owner ∧ u'.pflags = u.pflags ∧ u'.deferred = u.deferred ∧ t.strands = s.strands
    ∧ t.cmds = s.cmds ∧ SameMem s t

/-- R250, R255, R256: a long-class instruction is queued with its operands and changes nothing else; in short mode it is
ILLEGAL; with sixteen entries queued the bundle waits, nothing of it performed. -/
def LongInstructionsQueue : Prop :=
  ∀ (s : State) (d a b y x : RegNo) (r e k : BitVec 3) (sat half : Bool),
    ∀ i ∈ streamable true false d a b r e k ++ streamless true d a b y x r e sat half,
      let u := s.unit s.here s.x.me.core
      (s.x.me.lmode = false → exec i s = .next (s.trapAt true cIllegal (zx s.x.w1)))
      ∧ (s.x.me.lmode = true → 16 ≤ u.q.length → exec i s = .next (s.stall .seq))
      ∧ (s.x.me.lmode = true → u.q.length < 16 → ∃ t : State, exec i s = .next t ∧ t.x = s.x
          ∧ Queued s t (queuedItem s i (s.vecScalar i) []) false [] 0)

/-- R261: a stream operand. In long mode the instruction is queued; in short mode it takes the oldest operand in place of vb and
frees its slot of the ring, or waits while there is none; a stream that is not the strand's, or of the other width, is ILLEGAL. -/
def StreamOperands : Prop :=
  ∀ (s : State) (l : Bool) (d a b : RegNo) (r e k : BitVec 3), d.toNat < 8 →
    let n := b.toNat % 4
    let m := s.stream s.here s.x.me.core n
    let u := s.unit s.here s.x.me.core
    let src := s.x.src
    ∀ i ∈ streamable l true d a b r e k, s.x.me.lmode = l →
      (¬ (m.owner = some s.x.me.sid ∧ m.long = l) → exec i s = .next (s.trapAt true cIllegal (zx s.x.w1)))
      ∧ (m.owner = some s.x.me.sid → m.long = l →
        (l = true → u.q.length < 16 → ∃ t : State, exec i s = .next t ∧ t.x = s.x ∧ Queued s t (queuedItem s i 0 []) false [] 0)
        ∧ (l = false → m.ready = 0 → exec i s = .next (s.stall .stream))
        ∧ (l = false → m.ready ≠ 0 →
            let key := localOf (m.slotPa m.rd)
            let v := vecEval i { w := 256, a := (src.vreg a).toNat, b := memRead s.mem key 32, d := (src.vreg d).toNat
                                 x := 0, rm := src.sw.toNat / 2 ^ 10 % 8, ftz := src.sw.getLsbD 13, vsat := src.fmt.getLsbD 10 }
            s.bankHolds key 32 = false → s.badAt key 32 = false →
            v.fl &&& BitVec.ofNat 5 (src.sw.toNat / 2 ^ 5) = 0 → ∃ t : State, exec i s = .next t
              ∧ t.x.me.vreg d = BitVec.ofNat 256 v.val ∧ (∀ q : RegNo, q ≠ d → t.x.me.vreg q = s.x.me.vreg q)
              ∧ t.x.me.sw = setBit s.x.me.sw 16 true ||| zx v.fl ∧ t.x.me.g = s.x.me.g ∧ t.x.me.pc = s.x.me.pc
              ∧ t.stream s.here s.x.me.core n = { m with ready := m.ready - 1, rd := (m.rd + 1) % (m.len / 32) }
              ∧ SameMem s t))

/-- R255, R256, R263: VLD and VST of the long class are translated and queued with the addresses of their 32 words, beside the
A slot's entry where the bundle has one; in short mode they are ILLEGAL. -/
def LongAccessesQueue : Prop :=
  ∀ (s : State) (d a : RegNo) (o : BitVec 14) (pa : Nat),
    let ea := s.g a + sx o * 256
    let n := (s.unit s.here s.x.me.core).q.length
    let need := if s.aQueues.isSome ∧ s.x.aDone = false then 2 else 1
    let queues (i : Instr) (w : Need) : Prop :=
      (s.x.me.lmode = false → exec i s = .next s.illegalC)
      ∧ (s.x.me.lmode = true → ea.toNat % 256 = 0 → mapsTo s ea w pa = true → s.x.me.rsv = false →
          s.ownHolds (localOf pa) 256 = false →
          (16 < n + need → exec i s = .next (s.stall .seq))
          ∧ (n + need ≤ 16 → ∃ t : State, exec i s = .next t
            ∧ t.x = { s.x with me := s.x.me.done s.x.me.g (s.x.me.pc + 1) }
            ∧ Queued s t (queuedItem s i ea ((List.range 32).map (fun j => pa + 8 * j))) s.pairs [] 0))
    queues (.vldW d a o) needR ∧ queues (.vstW d a o) needW

/-- R252, R258, R263, R265: VLD and VST of the short class, on a local address; VEXT of the long class, which waits for the
sequencer, reports, and reads an element of a long register. -/
def VectorAccesses : Prop :=
  ∀ (s : State) (d a b : RegNo) (o : BitVec 14) (r e : BitVec 3) (pa : Nat),
    let ea := s.g a + sx o * 32
    let key := localOf pa
    let u := s.unit s.here s.x.me.core
    -- all four words, picked by no schedule, and none of them performed before (log 63)
    let fresh : Prop := s.x.log = [] ∧ s.x.only = []
    (s.x.me.lmode = true → exec (.vldV d a o) s = .next s.illegalC ∧ exec (.vstV d a o) s = .next s.illegalC)
    ∧ (s.x.me.lmode = false → d.toNat < 8 → fresh → s.corr = [] → localAccess s ea 32 needR pa = true → ∃ t : State,
        exec (.vldV d a o) s = .next t
        ∧ t.x.me.vreg d = BitVec.ofNat 256 (memRead s.mem key 32) ∧ (∀ q : RegNo, q ≠ d → t.x.me.vreg q = s.x.me.vreg q)
        ∧ t = { s with
            x := { s.x with log := t.x.log
                            me := { (s.x.me.done s.x.me.g (s.x.me.pc + 1)) with v := t.x.me.v, sw := setBit s.x.me.sw 16 true } } }
        ∧ SameMem s t)
    ∧ (s.x.me.lmode = false → s.mem.wf = true → fresh → localAccess s ea 32 needW pa = true → ∃ t : State,
        exec (.vstV d a o) s = .next t ∧ memRead t.mem key 32 = (s.x.src.vreg d).toNat ∧ SameMemBut s t key 32
        ∧ t.x = { s.x with log := t.x.log, me := s.x.me.done s.x.me.g (s.x.me.pc + 1) } ∧ KeepsRest s t)
    ∧ (s.x.me.lmode = true → u.q ≠ [] → exec (.vext true d a b r e) s = .next (s.stall .seq))
    ∧ (s.x.me.lmode = true → s.seqIdle = true →
        let c := vecTy e r
        let w := tyW c
        let j := (s.g b).toNat
        let v := (u.w.toArray.getD a.toNat 0).toNat / 2 ^ (w * j) % 2 ^ w
        (∀ q k n, u.deferred = some (q, k, n) → ∃ t : State, exec (.vext true d a b r e) s = .next t
          ∧ t.x.trap = some { cause := cVectorDeferred, val := wd (q % 16 * 2 ^ 60 + k % 16 * 2 ^ 56 + n.toNat / 8 % 2 ^ 53 * 8) })
        ∧ (u.deferred = none → ∃ t : State, exec (.vext true d a b r e) s = .next t
          ∧ RegSet s.x.me t.x.me d
              (if 2048 / w ≤ j then 0 else if 8 ≤ c ∧ c ≤ 11 then BitVec.ofInt 64 (signedOf w v) else wd v)
          ∧ t.x.me = { s.x.me with g := t.x.me.g, sw := s.x.me.sw ||| zx u.pflags }
          ∧ (t.unit s.here s.x.me.core).pflags = 0 ∧ (t.unit s.here s.x.me.core).w = u.w ∧ SameMem s t))

/-- R251, R252, R254, R258, R259: the vector modes. VMODE.LONG takes a free long unit, whose registers are then 0, or waits for
it; VMODE.SHORT and VSYNC wait for the sequencer and report; VCLR clears the short registers; and the unit goes to the first
strand that waits. -/
def VectorModes : Prop :=
  (∀ s : State, s.anyStream = true →
      exec .vmodeLong s = .next s.illegalC ∧ exec .vmodeShort s = .next s.illegalC ∧ exec .vclr s = .next s.illegalC)
  ∧ (∀ s : State, s.anyStream = false →
      let st := s.x.me
      let u := s.unit s.here st.core
      let shortAgain : Strand := { (st.done st.g (st.pc + 1)) with v := Vector.replicate 8 0 }
      (st.lmode = true → Goes .vmodeLong s (st.pc + 1))
      ∧ (st.lmode = false → st.hslot = true → exec .vmodeLong s = .next s.illegalC)
      ∧ (st.lmode = false → st.hslot = false → u.owner = none → u.waiters = [] → ∃ t : State, exec .vmodeLong s = .next t
          ∧ t.x = { s.x with me := { (st.done st.g (st.pc + 1)) with sw := setBit st.sw 17 true } }
          ∧ t.unit s.here st.core = { u with owner := some st.sid, waiters := [], w := Vector.replicate 16 0, hist := [], pflags := 0
                                             deferred := none }
          ∧ SameMem s t)
      ∧ (st.lmode = false → st.hslot = false → (u.owner ≠ none ∨ u.waiters ≠ []) → ∃ t : State, exec .vmodeLong s = .next t
          ∧ t.x = (s.park .longUnit).x ∧ t.unit s.here st.core = { u with waiters := u.waiters ++ [st.sid] } ∧ SameMem s t)
      ∧ (st.lmode = false → Goes .vmodeShort s (st.pc + 1) ∧ Goes .vsync s (st.pc + 1))
      ∧ (st.lmode = true → s.seqIdle = false → Waits .vmodeShort s .seq ∧ Waits .vsync s .seq)
      ∧ (st.lmode = true → s.seqIdle = true → u.deferred = none →
          (∃ t : State, exec .vsync s = .next t ∧ t.x.me = { (st.done st.g (st.pc + 1)) with sw := st.sw ||| zx u.pflags }
            ∧ t.unit s.here st.core = { u with pflags := 0 } ∧ SameMem s t)
          ∧ (∃ t : State, exec .vmodeShort s = .next t
            ∧ t.x.me = { shortAgain with sw := setBit (setBit (st.sw ||| zx u.pflags) 17 false) 16 false }
            ∧ t.unit s.here st.core = { u with pflags := 0, owner := none } ∧ SameMem s t))
      ∧ Becomes .vclr s { st with v := Vector.replicate 8 0, sw := setBit st.sw 16 false })
  ∧ (∀ (s : State) (sid : Word) (rest : List Word) (st : Strand),
      let u := s.unit s.inp.k s.inp.l
      u.owner = none → u.waiters = sid :: rest → sid ∉ rest → s.strandOf sid = some st → s.moves st = true →
      ∃ (t : State) (st' : Strand), exec .longUnitGrant s = .next t ∧ t.strandOf sid = some st'
        ∧ st' = { (st.done st.g (st.pc + 1)) with sw := setBit st.sw 17 true }
        ∧ t.unit s.inp.k s.inp.l = { u with owner := some sid, waiters := rest, w := Vector.replicate 16 0, hist := [], pflags := 0
                                            deferred := none }
        ∧ SameMem s t)

/-- R257: VLOOP in both forms repeats the last N long instructions COUNT times as one entry; an instruction among them that may not be
repeated, or fewer than N, is ILLEGAL. -/
def Loops : Prop :=
  ∀ (s : State) (a n : RegNo) (m : BitVec 4) (c : W32),
    let u := s.unit s.here s.x.me.core
    let loops (i : Instr) (n c : Nat) : Prop :=
      (s.x.me.lmode = false → exec i s = .next s.illegalC)
      ∧ (s.aLong = none → (u.hist.length < n ∨ ∃ x ∈ u.hist.take n, loopable x.op = false) → exec i s = .next s.illegalC)
      ∧ (s.x.me.lmode = true → s.aLong = none → n ≤ u.hist.length → (∀ x ∈ u.hist.take n, loopable x.op = true) →
          (u.q.length = 16 → exec i s = .next (s.stall .seq))
          ∧ (u.q.length < 16 → ∃ t : State, exec i s = .next t ∧ t.x = { s.x with me := s.x.me.done s.x.me.g (s.x.me.pc + 1) }
              ∧ Queued s t (queuedItem s i 0 []) false (u.hist.take n).reverse c))
    loops (.vloop a n) (n.toNat + 1) ((s.g a).toNat % 2 ^ 32) ∧ loops (.vloopLong m c) (m.toNat + 1) c.toNat

/-- R255 to R259, R263: the sequencer runs its first entry, if the other of its pair is not still to be queued: arithmetic on long registers, with its flags left pending and an enabled
one recorded as a deferred exception; a load from the strand's own tile; a store there; a pass of a VLOOP. -/
def SequencerRuns : Prop :=
  ∀ (s : State) (st : Strand) (e : SeqEntry) (rest : List SeqEntry),
    let t := s.inp.k
    let c := s.inp.l
    let u := s.unit t c
    u.owner = some st.sid → s.strandOf st.sid = some st → (s.tl t).failed = false → u.q = e :: rest →
    (∀ f ∈ rest.head?, f.paired = false) → e.mateDue st = false → e.log = [] → s.inp.vals = [] →
    let reg (r : RegNo) : VLong := u.w.toArray.getD r.toNat 0
    let runs (x : SeqItem) (q : List SeqEntry) : Prop :=
      (∀ (d a b y z : RegNo) (r ety k : BitVec 3) (sat half : Bool),
        x.op ∈ streamable true false d a b r ety k ++ streamless true d a b y z r ety sat half →
        let f := vecForm x.op
        let v := vecEval x.op { w := 2048, a := (reg f.a).toNat, b := (reg f.b).toNat, d := (reg f.d).toNat, x := x.scalar
                                rm := x.sw.toNat / 2 ^ 10 % 8, ftz := x.sw.getLsbD 13, vsat := x.vsat }
        ∃ w, exec .sequencerEntry s = .next w ∧ (w.unit t c).q = q
          ∧ (w.unit t c).w.toArray.getD d.toNat 0 = BitVec.ofNat 2048 v.val
          ∧ (∀ r' : RegNo, r' ≠ d → (w.unit t c).w.toArray.getD r'.toNat 0 = reg r')
          ∧ (w.unit t c).pflags = u.pflags ||| v.fl
          ∧ (w.unit t c).deferred = (if v.fl &&& BitVec.ofNat 5 (x.sw.toNat / 2 ^ 5) ≠ 0 ∧ u.deferred = none
              then some (e.idx, 1, x.bundle) else u.deferred)
          ∧ SameMem s w ∧ w.strands = s.strands)
      ∧ (∀ (d a : RegNo) (o : BitVec 14) (pa : Nat) (ps : List Nat), x.op = .vldW d a o → x.pas = pa :: ps → s.homeOf pa = .tile t →
        s.corr = [] → s.bankHeld (localOf pa) 256 = false → s.badAt (localOf pa) 256 = false →
        ∃ w, exec .sequencerEntry s = .next w ∧ (w.unit t c).q = q
          ∧ (w.unit t c).w.toArray.getD d.toNat 0 = BitVec.ofNat 2048 (memRead s.mem (localOf pa) 256)
          ∧ (∀ r' : RegNo, r' ≠ d → (w.unit t c).w.toArray.getD r'.toNat 0 = reg r')
          ∧ (w.unit t c).deferred = u.deferred ∧ SameMem s w ∧ w.strands = s.strands)
      ∧ (∀ (d a : RegNo) (o : BitVec 14) (pa : Nat) (ps : List Nat), x.op = .vstW d a o → x.pas = pa :: ps → s.homeOf pa = .tile t →
        s.mem.wf = true → s.bankHeld (localOf pa) 256 = false →
        ∃ w, exec .sequencerEntry s = .next w ∧ (w.unit t c).q = q ∧ (w.unit t c).w = u.w
          ∧ memRead w.mem (localOf pa) 256 = (reg d).toNat ∧ SameMemBut s w (localOf pa) 256)
    let isLoop (i : Instr) : Bool := match i with | .vloop .. | .vloopLong .. => true | _ => false
    (isLoop e.item.op = false → e.body = [] → runs e.item rest)
    ∧ (isLoop e.item.op = true → e.count = 0 → ∃ w, exec .sequencerEntry s = .next w ∧ (w.unit t c).q = rest
        ∧ (w.unit t c).w = u.w ∧ SameMem s w)
    ∧ (∀ x, isLoop e.item.op = true → e.count ≠ 0 → e.body[e.pos]? = some x →
        let e' : SeqEntry := if e.pos + 1 < e.body.length then { e with pos := e.pos + 1, log := [], begun := true }
          else { e with pos := 0, count := e.count - 1, log := [], begun := true }
        runs x (if e'.count = 0 then rest else e' :: rest))

end Sys2Proof

/-- R248 to R263: long-class vector instructions. -/
def Obligations.LongVectors : Prop :=
  LongInstructionsQueue ∧ StreamOperands ∧ LongAccessesQueue ∧ VectorAccesses ∧ VectorModes ∧ Loops ∧ SequencerRuns

/-! ### Ends, handlers, acts on other strands -/

namespace Sys2Proof

/-- R234, R238, R254, R411: END and HEND wait as FENCE.D; then the strand is gone from the machine: END takes it out of its groups
and lowers its join counter by 1. Each is ILLEGAL where the other belongs. -/
def StrandsEnd : Prop :=
  ∀ s : State,
    let st := s.x.me
    let p := st.pasture
    (st.hslot = true → exec .endStrand s = .next s.illegalC)
    ∧ (st.hslot = false → exec .hend s = .next s.illegalC)
    ∧ (st.hslot = false → st.lmode = false → s.drained 2 = false → Waits .endStrand s (.acks 2))
    ∧ (st.hslot = true → s.drained 2 = false → Waits .hend s (.acks 2))
    ∧ (st.hslot = true → s.drained 2 = true → st.fail = none → st.rsv = false →
        exec .hend s = .next { s with x := { s.x with gone := true } })
    ∧ (st.hslot = true → s.drained 2 = true → st.fail = none → st.rsv = true → ∃ t : State, exec .hend s = .next t
        ∧ t.x.gone = true ∧ t.x.me.rsv = false ∧ SameMem s t)
    ∧ (st.hslot = false → st.lmode = false → s.drained 2 = true → st.fail = none → originOf st.sid = s.here →
        st.isCtl = false → st.slice.set = none → (∀ n, n < 4 → (s.stream s.here st.core n).owner ≠ some st.sid) →
        s.hasPas p = true →
        let ends (t : State) : Prop := exec .endStrand s = .next t ∧ t.x.gone = true ∧ t.x.me.rsv = false ∧ (st.rsv = false → t.x.me = st)
          ∧ t.finishIssue.strands = ldel (·.sid == st.sid) t.strands
          ∧ (∀ n, n < 255 → st.grp.toNat = 0xFFFFFF00 + n → (tget (s.pas p).groups n {}).arrived = [] →
              (tget (s.pas p).groups n {}).waiters = [] →
              tget (t.pas p).groups n {} =
                { tget (s.pas p).groups n {} with members := (tget (s.pas p).groups n {}).members - 1 })
        (st.slice.join = 0 → ∃ t, ends t ∧ SameMem s t)
        ∧ (∀ pa, st.slice.join ≠ 0 → mapsTo s st.slice.join needW pa = true → s.homeOf pa = .tile s.here → s.mem.wf = true →
            s.bankHeld (localOf pa) 8 = false → s.badAt (localOf pa) 8 = false →
            ∃ t, ends t ∧ SameMemBut s t (localOf pa) 8
              ∧ memRead t.mem (localOf pa) 8 = (memRead s.mem (localOf pa) 8 + (2 ^ 64 - 1)) % 2 ^ 64))

/-- R237: a SPAWNW that waits for the pool. While the pool is full nothing happens; with an entry free its loop is tried again, with
the tile that AFFINITY named when it was translated (log 63): the register gets 2 or 3, or the slice is accepted and it gets 1. -/
def SpawnRetries : Prop :=
  ∀ (s : State) (st : Strand) (d : RegNo) (bs : List Byte) (w : Pending), s.strandOf s.inp.sid = some st →
    st.wait = some (.pool d bs) → st.isCtl = false → st.pend = some w →
    let p := st.pasture
    let q := s.pas p
    let gives (v : Word) (more : State → Prop) : Prop := ∃ t st', exec .spawnwPoolRetry s = .next t
      ∧ t.strandOf s.inp.sid = some st' ∧ RegSet st st' d v ∧ st' = st.done st'.g (st.pc + 1) ∧ SameMem s t ∧ more t
    (q.pcb.pool ≤ q.pool → exec .spawnwPoolRetry s = .next s)
    ∧ (∀ h, q.pool < q.pcb.pool → s.moves st = true → tfind w.log (memoKey 3) = some h → tfind w.log (memoKey 4) = none →
        (q.pcb.depth < st.slice.depth + 1 → gives 2 (fun t => t.pastures = s.pastures))
        ∧ (st.slice.depth + 1 ≤ q.pcb.depth → q.isOpen (nfield (bfield bs 0x38 2) 0 3) = false →
            gives 3 (fun t => t.pastures = s.pastures))
        ∧ (st.slice.depth + 1 ≤ q.pcb.depth → q.isOpen (nfield (bfield bs 0x38 2) 0 3) = true →
            gives 1 (fun t => ∃ l, (t.pas p).classQ = q.classQ ++ [l] ∧ (t.pas p).pool = q.pool + 1
              ∧ l.home = h ∧ l.entry = wd (bfield bs 0 8) ∧ l.arg = wd (bfield bs 8 8) ∧ l.depth = st.slice.depth + 1)))

/-- R408 to R410: a handler starts in slot 14 or 15 with the registers of its entry and SW.HSLOT; an address that no bundle can have
stops it at once, which is the model's reading of when it is escalated (log 48). -/
def HandlersStart : Prop :=
  ∀ (s : State) (p c n : Nat) (e : HEntry) (r : List HEntry),
    let t := s.inp.k
    s.pasOfTile t = some p → s.hasPas p = true → (s.tl t).handlers = e :: r → s.handlerSlot t = some (c, n) →
    (s.pas p).st = .running → (s.tl t).failed = false → t < Config.tiles → s.indexFree t s.inp.m = true →
    (∀ st ∈ s.strands, ∀ a k b, st.wait ≠ some (.handlerRoom a k b)) →
    (n = 14 ∨ n = 15)
    ∧ (e.pc.toNat % 8 = 0 → e.pc.toNat < 2 ^ 56 → ∃ (u : State) (st : Strand), exec .handlerStart s = .next u ∧ u.strands = s.strands ++ [st]
        ∧ (u.tl t).handlers = r ∧ st.place = .slot t c n ∧ st.pasture = p ∧ originOf st.sid = t
        ∧ st.pc = BitVec.ofNat 53 (e.pc.toNat / 8) ∧ st.gr 15 = e.g15
        ∧ (∀ x : RegNo, x ≠ 0 → x ≠ 15 → st.gr x = e.regs.getD (x.toNat - 1) 0)
        ∧ st.sw = wd (2 ^ 23) ∧ st.grp = 0xFFFFFFFF ∧ st.utv = 0 ∧ st.hturns = 0 ∧ SameMem s u)
    ∧ (e.pc.toNat % 8 ≠ 0 ∨ 2 ^ 56 ≤ e.pc.toNat → ∃ u : State, exec .handlerStart s = .next u ∧ (u.tl t).handlers = r
        ∧ (∃ st ∈ u.strands, st.place = .slot t c n ∧ st.stop = some .escalated) ∧ SameMem s u)

/-- An earmark at the address in register a, on the issuing strand's tile, with its bytes. -/
def EarmarkAt (s : State) (a : RegNo) (em : List Byte) : Prop :=
  ∃ pa, localAccess s (s.g a) 16 needR pa = true ∧ em = memBytes s.mem (localOf pa) 16

/-- The selector is one that the instruction takes; the pasture, the seal and the right are good (R396). -/
def EarmarkGood (s : State) (em : List Byte) (sel : Nat → Bool) (right : Nat) : Prop :=
  sel (emSel em) = true ∧ emPas em = s.x.me.pasture ∧ (em.drop 10).take 6 = (s.pas s.x.me.pasture).sealOf em
    ∧ emRight em right = true

/-- One posted operation leaves the issuing strand for a tile: one packet, numbered for its home and kept (R82, R192); no byte of
memory changes. One of class 0 is injected only once the strand's earlier ones to that tile are accepted (R393). -/
def PostsOne (s u : State) (h cls : Nat) (o : Post) : Prop :=
  ∃ k : Packet, u.unacked = s.unacked ++ [k] ∧ k.body = .post o
    ∧ k.party = s.x.me.party ∧ k.src = s.here ∧ k.cls = cls ∧ k.want = cls
    ∧ k.dst = (if h < 16384 then (s.pas s.x.me.pasture).forward h else h)
    ∧ k.seq = seqGet s.seqNext k.party k.dst ∧ seqGet u.seqNext k.party k.dst = k.seq + 1 ∧ u.strands = s.strands
    ∧ SameMem s u
    ∧ (let behind : Prop := cls = 0 ∧ ∃ e ∈ s.unacked, e.party = k.party ∧ e.dst = k.dst ∧ e.seq < k.seq
       (behind → u.mesh = s.mesh ∧ u.waiting = s.waiting ++ [k])
       ∧ (¬ behind → u.waiting = s.waiting ∧ ∃ c, u.mesh = s.mesh ++ [{ k with cls := c }]))

/-- R395, R396, R412 to R415: WAKE, HALTT and INSP name a slot by an earmark with the right of each; PROT for a selector that is no
slot, SEAL for another pasture, a false seal or a missing right. Each sends one packet of class 0, with the time of its injection, to
the tile that the remap table binds; one for coordinates outside the logical grid names no slot, 64 (log 71). INSP then waits for
the image. -/
def ActsOnStrands : Prop :=
  ∀ (s : State) (a b : RegNo) (em : List Byte), EarmarkAt s a em → s.corr = [] → s.x.log = [] →
    let st := s.x.me
    let p := st.pasture
    let w := bfield em 0 5
    let tile := (s.pas p).binding (w / 2 ^ 16 % 2 ^ 16) (w % 2 ^ 16)
    let h := tile.getD s.here
    let slot := if tile.isSome then w / 2 ^ 32 % 2 ^ 6 else 64
    let now := s.pasTime p s.here
    let good (right : Nat) : Prop := emSel em < 64 ∧ emSel em % 16 ≤ 13 ∧ EarmarkGood s em (fun _ => true) right
    let goesOn (u : State) : Prop := u.x = { s.x with me := st.done st.g (st.pc + 1), log := u.x.log }
    let released : Prop := s.drained 2 = true ∧ st.fail = none
    -- a buffer of INSP that may be written, in one page
    let buffer : Prop := (s.g b).toNat % 64 = 0 ∧ (s.g b).toNat % 65536 + 192 ≤ 65536
      ∧ ∃ pb, mapsTo s (s.g b) needW pb = true ∧ s.homeOf pb = .tile s.here
    (s.drained 2 = false → Waits (.wake a) s (.acks 2))
    ∧ (¬ (emSel em < 64 ∧ emSel em % 16 ≤ 13) → Traps (.haltt a) s cProt (s.g a)
        ∧ (released → Traps (.wake a) s cProt (s.g a)) ∧ (buffer → Traps (.insp a b) s cProt (s.g a)))
    ∧ (emSel em < 64 → emSel em % 16 ≤ 13 →
        (released → ¬ EarmarkGood s em (fun _ => true) 1 → Traps (.wake a) s cSeal (s.g a))
        ∧ (¬ EarmarkGood s em (fun _ => true) 2 → Traps (.haltt a) s cSeal (s.g a))
        ∧ (buffer → ¬ EarmarkGood s em (fun _ => true) 3 → Traps (.insp a b) s cSeal (s.g a)))
    ∧ (released → good 1 → s.postRoom st.party s.here = true → ∃ u : State, exec (.wake a) s = .next u ∧ goesOn u
        ∧ PostsOne s u h 0 (.wake st.sid slot (emGen em) w now))
    ∧ (good 2 → s.postRoom st.party s.here = true → ∃ u : State, exec (.haltt a) s = .next u ∧ goesOn u
        ∧ PostsOne s u h 0 (.haltt st.sid slot (emGen em) w now))
    ∧ (good 3 → s.postRoom st.party s.here = true → buffer →
        ∃ u : State, exec (.insp a b) s = .next u ∧ u.x.me.wait = some .insp ∧ u.x.me.cOnly = true ∧ u.x.me.g = st.g
          ∧ u.x.me.pc = st.pc ∧ PostsOne s u h 0 (.insp st.sid slot (emGen em) now (s.g b)))
    ∧ ((s.g b).toNat % 64 ≠ 0 → exec (.insp a b) s = .next (s.trapC cAlign (s.g b)))

/-- R397, R412 to R416: the three at their slot. A slot whose occupancy number differs from the packet's is stale, and the refusal
goes back. WAKE ends an MWAIT on the latch, or sets the latch, as it does where the strand is stopped; HALTT holds the strand, unless
it is already stopped, by itself or with its pasture; INSP sends back its image, which is written into the buffer as the strand that
asked goes on. -/
def ActsArrive : Prop :=
  (∀ (s : State) (k : Packet) (t slot gen stamp : Nat) (o : Post) (sid buf : Word) (w : Nat), InTurn s k t → t < 16384 → k.body = .post o →
    let ev : Instr := match o with | .wake .. => .wakeArrival | .haltt .. => .halttArrival | _ => .inspArrival
    (o = .wake sid slot gen w stamp ∨ o = .haltt sid slot gen w stamp ∨ o = .insp sid slot gen stamp buf) →
    (s.slotTarget k.pasture t slot gen = none → ∃ u : State, exec ev s = .next u ∧ Answered s u k t (.stale k.id) ∧ u.strands = s.strands
      ∧ SameMem s u)
    ∧ (∀ st, s.slotTarget k.pasture t slot gen = some st → s.strandOf st.sid = some st →
        (o = .wake sid slot gen w stamp → ∃ u : State, exec .wakeArrival s = .next u ∧ Answered s u k t (.ack k.id) ∧ SameMem s u
          ∧ stamp < u.pasTime k.pasture t
          ∧ (∀ d, st.wait = some (.latch d) → s.moves st = true → ∃ st', u.strandOf st.sid = some st' ∧ RegSet st st' d 1
              ∧ st' = st.done st'.g (st.pc + 1))
          ∧ ((∀ d, st.wait ≠ some (.latch d)) ∨ s.moves st = false → slot ∈ (u.tl t).latch ∧ u.strands = s.strands))
        ∧ (o = .haltt sid slot gen w stamp → ∃ (u : State) (st' : Strand), exec .halttArrival s = .next u ∧ Answered s u k t (.ack k.id)
          ∧ u.strandOf st.sid = some st' ∧ (s.moves st = true → st'.stop = some .held) ∧ (s.moves st = false → st' = st)
          ∧ st'.g = st.g ∧ st'.pc = st.pc)
        ∧ (o = .insp sid slot gen stamp buf → ∃ (u : State) (j r : Packet), exec .inspArrival s = .next u
          ∧ u.mesh = ldel (·.id == k.id) s.mesh ++ [j, r] ∧ j.body = .image sid buf st.packetImage ∧ j.dst = k.src
          ∧ r.body = .ack k.id ∧ r.dst = k.src ∧ u.strands = s.strands ∧ SameMem s u)))
  ∧ (∀ (s : State) (k : Packet) (sid buf : Word) (bs : List Byte) (pa : Nat) (st : Strand), s.packet s.inp.k = some k →
      k.body = .image sid buf bs → bs.length = 192 → k.dst < 16384 → s.mem.wf = true → buf.toNat % 65536 + 192 ≤ 65536 →
      k.log = [] → s.inp.vals = [] → localOf pa % 8 = 0 →
      s.xlateAt k.pasture k.dst buf needW = some (.inl pa) → s.homeOf pa = .tile k.dst → s.bankHeld (localOf pa) 192 = false →
      s.strandOf sid = some st → st.wait = some .insp →
      ∃ (u : State) (st' : Strand), exec .inspReply s = .next u ∧ memBytes u.mem (localOf pa) 192 = bs
        ∧ SameMemBut s u (localOf pa) 192
        ∧ u.strandOf sid = some st' ∧ st' = st.done st.g (st.pc + 1) ∧ u.mesh = ldel (·.id == k.id) s.mesh)

end Sys2Proof

/-- R234, R237, R238, R395 to R397, R408 to R415: ends of strands, handlers, and acts on other strands. That a handler whose address cannot
be fetched is escalated at its start (log 48) and that INSP's buffer is checked at issue as one page (log 49) are the model's choices. -/
def Obligations.EndsAndActs : Prop :=
  StrandsEnd ∧ SpawnRetries ∧ HandlersStart ∧ ActsOnStrands ∧ ActsArrive

/-! ### Messages -/

namespace Sys2Proof

/-- A completion counter (R204): COUNT has risen by 1 modulo 2^48, and an error is in ERR and CODE unless one was there before. -/
def CountValue (s u : State) (pa : Nat) (err : Option Nat) : Prop :=
  let v := memRead s.mem (localOf pa) 8
  let v' := memRead u.mem (localOf pa) 8
  v' % 2 ^ 48 = (v + 1) % 2 ^ 48
    ∧ v' / 2 ^ 48 = (match err with
        | some e => if 2 ^ 63 ≤ v then v / 2 ^ 48 else 2 ^ 15 + e % 2 ^ 7 * 2 ^ 8 + v / 2 ^ 48 % 2 ^ 8
        | none => v / 2 ^ 48)

/-- The counter alone has changed. -/
def Counted (s u : State) (pa : Nat) (err : Option Nat) : Prop := CountValue s u pa err ∧ SameMemBut s u (localOf pa) 8

/-- The counter of a completion can be written where it lies: a tile of the device that works. -/
def canCount (s : State) (pa : Nat) : Bool :=
  (match s.homeOf pa with | .tile h => !(s.tl h).failed | _ => false) && !s.badAt (localOf pa) 8 && !s.bankHeld (localOf pa) 8

/-- The address in a register names a counter, or, being 0, none (R204). -/
def CounterAt (s : State) (a : Word) (ctr : Option Nat) : Prop :=
  (a = 0 ∧ ctr = none)
    ∨ (a ≠ 0 ∧ a.toNat % 8 = 0 ∧ ∃ pa, ctr = some pa ∧ mapsTo s a needW pa = true ∧ s.homeOf pa ≠ .host)

/-- R396, R398, R399: MSEND and MSENDH with a descriptor and a payload on the strand's own tile: PROT for a malformed descriptor;
otherwise one posted message, to the tile of the earmark or, for the selector 0xFE, to the root paddock's controller. That the
descriptor is checked before the earmark is the model's choice (log 46), and so is that coordinates outside the logical grid name the
sender's own tile (log 71). -/
def MessagesSent : Prop :=
  ∀ (s : State) (a b : RegNo) (h : Bool) (pa pp : Nat) (ctr : Option Nat), localAccess s (s.g a) 64 needR pa = true →
    s.corr = [] → s.x.log = [] → s.drained 2 = true → s.x.me.fail = none → CounterAt s (s.g b) ctr →
    let i : Instr := if h then .msendh a b else .msend a b
    let bs := memBytes s.mem (localOf pa) 64
    let len := bfield bs 0x1C 2
    let cls := bfield bs 0x1E 1
    let pay := bfield bs 0x10 8
    let st := s.x.me
    let p := st.pasture
    let w := bfield bs 0 5
    let m : Msg := { handler := h, tag := bfield bs 0x18 4, len := len, pay := memBytes s.mem (localOf pp) len, sender := s.here
                     stamp := s.pasTime p s.here, sid := st.sid, ctr := ctr, desc := s.g a, gen := emGen bs, where_ := w }
    let bad : Prop := bfield bs 0x1F 33 ≠ 0 ∨ 256 < len ∨ 3 ≤ cls ∨ (h = true ∧ (len % 8 ≠ 0 ∨ len < 8 ∨ 120 < len))
      ∨ (emSel bs = 0xFE ∧ 16 < len) ∨ (len ≠ 0 ∧ pay % 8 ≠ 0)
    (len ≠ 0 → pay % 65536 + len ≤ 65536 ∧ mapsTo s (wd pay) needR pp = true ∧ isLocal s pp len = true ∧ pp % 8 = pay % 8) →
    (bad → Traps i s cProt (s.g a))
    ∧ (¬ bad → emSel bs ≠ 0xFF → ¬ (emSel bs = 0xFE ∧ h = false) → Traps i s cProt (s.g a))
    ∧ (¬ bad → (emSel bs = 0xFF ∨ (emSel bs = 0xFE ∧ h = false)) → ¬ EarmarkGood s bs (fun _ => true) 0 →
        Traps i s cSeal (s.g a))
    ∧ (¬ bad → EarmarkGood s bs (fun n => n == 0xFF || (n == 0xFE && !h)) 0 → s.postRoom st.party s.here = true →
        ∃ u : State, exec i s = .next u ∧ u.x = { s.x with me := st.done st.g (st.pc + 1), log := u.x.log }
          ∧ (if emSel bs = 0xFE then PostsOne s u (corner (s.pas p).pcb.rootp) cls (.event m)
             else PostsOne s u (((s.pas p).binding (w / 2 ^ 16 % 2 ^ 16) (w % 2 ^ 16)).getD s.here) cls (.msg m)))

/-- A message delivered to a posted receive (R403): the payload, as far as the buffer goes, its stamp, and the status word. -/
def Delivered (s u : State) (p t : Nat) (r : Recv) (m : Msg) : Prop :=
  let n := min m.len r.cap
  memRead u.mem (r.pa + 0x20) 8 = m.stamp % 2 ^ 64
    ∧ memRead u.mem (r.pa + 0x18) 8 =
        2 ^ 63 + (if r.cap < m.len then 2 ^ 62 else 0) + m.sender % 2 ^ 13 * 2 ^ 48 + m.tag % 2 ^ 32 * 2 ^ 16 + m.len % 2 ^ 9
    ∧ (∀ pb, r.buf.toNat % 65536 + n ≤ 65536 → s.xlateAt p t r.buf needW = some (.inl pb) → s.homeOf pb = .tile t →
        s.badAt (localOf pb) n = false → (localOf pb + n ≤ r.pa ∨ r.pa + 64 ≤ localOf pb) → m.pay.length = m.len →
        memBytes u.mem (localOf pb) n = m.pay.take n)

/-- R401, R402, R405, R406, R412: MPOST lists a receive, or takes the first message of the overflow queue that matches it; MWAIT and
MPROBE read the status word, or the wake latch, which they clear; MCANCEL takes a receive off the list. That a record to which a
message is being delivered is no longer on the list is the model's choice (log 47). -/
def Receives : Prop :=
  ∀ (s : State) (d a : RegNo) (pa : Nat), s.corr = [] → s.x.log = [] → s.mem.wf = true →
    let st := s.x.me
    let key := localOf pa
    let t := s.here
    let x := s.tl t
    let slot := 16 * st.core + st.slotNo
    let status := memRead s.mem (key + 0x18) 8
    let bs := memBytes s.mem key 64
    let r : Recv := { pa := key, buf := wd (bfield bs 0 8), cap := bfield bs 8 4, tag := bfield bs 0xC 4, tmask := bfield bs 0x10 4
                      src := bfield bs 0x14 2, smask := bfield bs 0x16 2 }
    let goesOn (u : State) : Prop := u.x = { s.x with me := st.done st.g (st.pc + 1), log := u.x.log }
    -- the fields are in their ranges; the buffer, in one page, is writable and homed on the tile, or it is not
    let fields : Prop := r.src < 2 ^ 13 ∧ r.smask < 2 ^ 13 ∧ bfield bs 0x28 24 = 0 ∧ r.cap ≤ 256
    let inPage : Prop := r.buf.toNat % 65536 + r.cap ≤ 65536
    let good : Prop := fields ∧ (r.cap = 0 ∨ (inPage ∧ ∃ pb, mapsTo s r.buf needW pb = true ∧ s.homeOf pb = .tile t))
    let bad : Prop := ¬ fields ∨ (r.cap ≠ 0 ∧ inPage ∧ ((∃ c, s.xlateAt st.pasture t r.buf needW = some (.inr c))
      ∨ ∃ pb, s.xlateAt st.pasture t r.buf needW = some (.inl pb) ∧ s.homeOf pb ≠ .tile t))
    -- the first message that matches and is not being delivered already
    let first := x.overflow.find? (fun m => m.taker.isNone && m.matches r)
    (localAccess s (s.g a) 64 needRW pa = true →
      (bad ∨ (∃ e ∈ x.recvs, e.pa = key) → Traps (.mpost a) s cProt (s.g a))
      ∧ (good → (∀ e ∈ x.recvs, e.pa ≠ key) → (∀ m ∈ x.overflow, m.taker ≠ some st.sid) →
          (first = none → x.recvs.length < 64 → ∃ u : State, exec (.mpost a) s = .next u ∧ goesOn u
            ∧ (u.tl t).recvs = x.recvs ++ [r] ∧ memRead u.mem (key + 0x18) 8 = 0 ∧ memRead u.mem (key + 0x20) 8 = 0
            ∧ SameMemBut s u (key + 0x18) 16)
          ∧ (first = none → 64 ≤ x.recvs.length → ∃ u : State, exec (.mpost a) s = .next u
            ∧ (∃ log, u.x = ((s.noting log).park .queue).x) ∧ (u.tl t).recvs = x.recvs ∧ SameMemBut s u (key + 0x18) 16)
          ∧ (∀ m, first = some m → (∀ c ∈ s.cmds, c.eng ≠ .bank) →
            ∃ u : State, exec (.mpost a) s = .next u ∧ goesOn u ∧ (u.tl t).overflow = ldel (· == m) x.overflow
              ∧ (u.tl t).recvs = x.recvs ∧ Delivered s u st.pasture t r m)))
    ∧ (s.g a = 0 →
        let cleared (u : State) : Prop := slot ∉ (u.tl t).latch ∧ SameMem s u
        (slot ∈ x.latch → ∃ u : State, exec (.mwait d a) s = .next u ∧ cleared u ∧ RegSet st u.x.me d 1
          ∧ u.x = { s.x with me := st.done u.x.me.g (st.pc + 1) })
        ∧ (slot ∉ x.latch → st.hslot = false → Waits (.mwait d a) s (.latch d))
        ∧ (∃ u : State, exec (.mprobe d a) s = .next u ∧ cleared u ∧ RegSet st u.x.me d (if slot ∈ x.latch then 1 else 0)
          ∧ u.x = { s.x with me := st.done u.x.me.g (st.pc + 1) })
        ∧ Goes (.mcancel a) s (st.pc + 1))
    ∧ (s.g a ≠ 0 → localAccess s (s.g a) 64 needR pa = true →
        ReadsInto (.mprobe d a) s (key + 0x18) 8 d (wd status)
        ∧ (2 ^ 63 ≤ status → ReadsInto (.mwait d a) s (key + 0x18) 8 d (wd status))
        ∧ (status < 2 ^ 63 → st.hslot = false → Waits (.mwait d a) s (.mwait (key + 0x18) d))
        ∧ ((∀ e ∈ x.recvs, e.pa = key → e.taker ≠ none) → Goes (.mcancel a) s (st.pc + 1))
        ∧ ((∃ e ∈ x.recvs, e.pa = key ∧ e.taker = none) → ∃ u : State, exec (.mcancel a) s = .next u ∧ goesOn u
          ∧ (u.tl t).recvs = ldel (·.pa == key) x.recvs ∧ memRead u.mem (key + 0x18) 8 = 0xA000000000000000
          ∧ SameMemBut s u (key + 0x18) 8))

/-- R397, R403, R404, R408: a message at its tile. Stale, it is refused for good; a handler message joins the handler queue; another
goes to the first posted receive that it matches, or to the overflow queue; where a queue is full it is refused and sent again. That a
message waits for the walk of its buffer, or while an installed bank command holds the status word, with the record its own, is the
model's choice (logs 47 and 80). -/
def MessagesArrive : Prop :=
  ∀ (s : State) (k : Packet) (t : Nat) (m : Msg), InTurn s k t → t < 16384 → k.body = .post (.msg m) → s.mem.wf = true →
    k.log = [] → s.inp.vals = [] → (∀ e ∈ (s.tl t).recvs, e.taker ≠ some k.id) →
    let p := k.pasture
    let x := s.tl t
    let first := x.recvs.find? (fun r => r.taker.isNone && m.matches r)
    -- it waits: its packet stands where it was, and the record that takes it is still listed
    let stays (u : State) : Prop := u.mesh.map (·.id) = s.mesh.map (·.id) ∧ u.seqExp = s.seqExp
      ∧ (u.tl t).recvs.map (·.pa) = x.recvs.map (·.pa)
    let stale := s.staleTile p t m.where_ m.gen
    let refused (u : State) : Prop := ∃ j, u.mesh = ldel (·.id == k.id) s.mesh ++ [j] ∧ j.body = .msgRefused k.id ∧ j.dst = k.src
      ∧ (m.tries < (s.pas p).pcb.mretry → u.seqExp = s.seqExp) ∧ u.strands = s.strands
      ∧ (u.tl t).recvs = x.recvs ∧ (u.tl t).overflow = x.overflow ∧ (u.tl t).handlers = x.handlers
    (stale = true → ∃ u : State, exec .messageArrival s = .next u ∧ Answered s u k t (.stale k.id) ∧ SameMem s u)
    ∧ (stale = false → m.handler = true →
        (x.handlers.length < 32 → ∃ u e, exec .messageArrival s = .next u ∧ Answered s u k t (.ack k.id) ∧ SameMem s u
          ∧ (u.tl t).handlers = x.handlers ++ [e] ∧ e.pc = wd (bfield m.pay 0 8)
          ∧ (∀ i, i < 14 → e.regs.getD i 0 = wd (bfield m.pay (8 * (i + 1)) 8))
          ∧ e.g15 = wd (m.sender % 2 ^ 13 * 2 ^ 48 + m.tag % 2 ^ 32 * 2 ^ 16 + m.len % 2 ^ 9)
          ∧ m.stamp < u.pasTime p t)
        ∧ (32 ≤ x.handlers.length → ∃ u : State, exec .messageArrival s = .next u ∧ refused u))
    ∧ (stale = false → m.handler = false →
        (∀ r, first = some r →
          let n := min m.len r.cap
          let inPage : Prop := r.buf.toNat % 65536 + n ≤ 65536
          (s.bankHeld (r.pa + 0x18) 8 = true → r.pa < 2 ^ 43 → ∃ u : State, exec .messageArrival s = .next u ∧ stays u
            ∧ memRead u.mem (r.pa + 0x18) 8 = memRead s.mem (r.pa + 0x18) 8)
          ∧ (n ≠ 0 → inPage → s.xlateAt p t r.buf needW = none → x.unitWalks = [] → ∃ u : State, exec .messageArrival s = .next u
            ∧ stays u ∧ SameMem s u)
          ∧ ((∀ c ∈ s.cmds, c.eng ≠ .bank) → n = 0 ∨ (inPage ∧ s.xlateAt p t r.buf needW ≠ none) → ∃ u : State, exec .messageArrival s = .next u ∧ Answered s u k t (.ack k.id) ∧ Delivered s u p t r m
            ∧ (u.tl t).recvs = ldel (·.pa == r.pa) x.recvs ∧ m.stamp < u.pasTime p t))
        ∧ (first = none → x.overflow.length < 128 → ∃ u : State, exec .messageArrival s = .next u
          ∧ Answered s u k t (.ack k.id) ∧ (u.tl t).overflow = x.overflow ++ [m] ∧ SameMem s u ∧ m.stamp < u.pasTime p t)
        ∧ (first = none → 128 ≤ x.overflow.length → ∃ u : State, exec .messageArrival s = .next u ∧ refused u))

/-- R397, R404, R407: what comes back to a sender, and a message to the controllers. A refused message is sent again up to MRETRY
times, and then is lost: its counter takes MSG_REFUSED, or its strand does. A stale one is reported at its counter, by MSG_STALE, or
in the buffer of INSP. A counter on another tile is updated by a posted operation. A message for the controllers becomes an event
record. That MSG_STALE's VAL is the target of the earmark is the model's choice (log 46). -/
def MessagesReturn : Prop :=
  (∀ (s : State) (k e : Packet) (n : Nat) (m : Msg), s.packet s.inp.k = some k → k.body = .msgRefused n →
      s.unacked.find? (·.id == n) = some e → e.body = .post (.msg m) →
      (m.tries < (s.pas e.pasture).pcb.mretry → ∃ (u : State) (c : Nat), exec .messageRetry s = .next u ∧ SameMem s u
        ∧ u.mesh = ldel (·.id == k.id) s.mesh ++ [{ e with cls := c, body := .post (.msg { m with tries := m.tries + 1 }) }])
      ∧ ((s.pas e.pasture).pcb.mretry ≤ m.tries → s.waiting = [] → s.ends = [] →
        let freed (u : State) : Prop := exec .messageRetry s = .next u ∧ u.unacked = ldel (·.id == n) s.unacked
          ∧ u.mesh = ldel (·.id == k.id) s.mesh
        (∀ pa, m.ctr = some pa → canCount s pa = true → s.homeOf pa = .tile e.src → s.mem.wf = true → ∃ u, freed u
          ∧ Counted s u pa (some cMsgRefused))
        ∧ (∀ pa h, m.ctr = some pa → s.homeOf pa = .tile h → h ≠ e.src → h < 16384 → s.postRoom (.cmd 0) e.src = true →
          ∃ (u : State) (j : Packet), exec .messageRetry s = .next u ∧ SameMem s u ∧ u.unacked = ldel (·.id == n) (s.unacked ++ [j])
            ∧ j.body = .post (.count pa (some cMsgRefused)) ∧ j.src = e.src ∧ j.dst = (s.pas e.pasture).forward h)
        ∧ (∀ sid st, m.ctr = none → e.party = .strand sid → m.sid = sid → s.strandOf sid = some st → ∃ (u : State) (st' : Strand),
            freed u ∧ u.strandOf sid = some st'
            ∧ st' = { st with fail := if st.fail.isNone then some (cMsgRefused, m.desc) else st.fail } ∧ SameMem s u)))
  ∧ (∀ (s : State) (k : Packet) (m : Msg), InTurn s k k.dst → k.dst < 16384 → k.body = .post (.event m) →
      let q := s.postRecord k.pasture
        (eventRecord 0x20 k.pasture m.len m.tag m.sid (bfield m.pay 0 8) (wd (bfield m.pay 8 8)))
      ∃ u : State, exec .controllerMessage s = .next u ∧ Answered s u k k.dst (.ack k.id) ∧ u.mem = q.mem
        ∧ (u.pas k.pasture).evqtail = (q.pas k.pasture).evqtail ∧ (u.pas k.pasture).evheld = (q.pas k.pasture).evheld
        ∧ (u.pas k.pasture).evdrop = (q.pas k.pasture).evdrop ∧ u.strands = s.strands)
  ∧ (∀ (s : State) (k e : Packet) (n : Nat), s.packet s.inp.k = some k → k.body = .stale n →
      s.unacked.find? (·.id == n) = some e → s.mem.wf = true → s.waiting = [] → s.ends = [] →
      let reported (u : State) (sid : Word) (w : Nat) : Prop :=
        u.mem = (s.post e.pasture e.src 0x21 ((s.strandOf sid).elim noCls Strand.evClass) e.src sid (wd w)).mem
      (∀ m pa, e.body = .post (.msg m) → m.ctr = some pa → s.homeOf pa = .tile e.src) →
      (∀ sid sl g stamp buf, e.body = .post (.insp sid sl g stamp buf) → (∀ c ∈ s.cmds, c.eng ≠ .bank) ∧ k.log = []
        ∧ s.inp.vals = [] ∧ buf.toNat % 65536 + 8 ≤ 65536 ∧ s.xlateAt k.pasture e.src buf needW ≠ none) →
      ∃ u : State, exec .staleRefusal s = .next u ∧ u.unacked = ldel (·.id == n) s.unacked ∧ u.mesh = ldel (·.id == k.id) s.mesh
        ∧ (∀ m pa, e.body = .post (.msg m) → m.ctr = some pa → canCount s pa = true → Counted s u pa (some 0x4B))
        ∧ (∀ c0 g c, e.body = .post (.mxsend c0 g) → s.cmd c0 = some c → c.ctr = none → c.eng = .matrix → reported u c.sid c.arg.toNat)
        ∧ (∀ m, e.body = .post (.msg m) → m.ctr = none → reported u m.sid m.where_)
        ∧ (∀ sid sl g w stamp, e.body = .post (.wake sid sl g w stamp) ∨ e.body = .post (.haltt sid sl g w stamp) → reported u sid w)
        ∧ (∀ sid sl g stamp buf pb st, e.body = .post (.insp sid sl g stamp buf) →
            s.xlateAt k.pasture e.src buf needW = some (.inl pb) → s.homeOf pb = .tile e.src → localOf pb % 8 = 0 → s.strandOf sid = some st →
            st.wait = some .insp →
            memRead u.mem (localOf pb) 8 = 2 ^ 64 - 1 ∧ SameMemBut s u (localOf pb) 8
              ∧ ∃ st', u.strandOf sid = some st' ∧ st' = st.done st.g (st.pc + 1)))

/-- n bytes at an aligned address that the strand may read, each 64 of them in a page homed on its tile, where nothing holds them. -/
def BlockAt (s : State) (a : Word) (align n pa : Nat) : Prop :=
  a.toNat % align = 0 ∧ mapsTo s a needR pa = true ∧ isLocal s pa n = true
    ∧ ∀ i, i < n / 64 → mapsTo s (a + wd (64 * i)) needR (pa + 64 * i) = true ∧ isLocal s (pa + 64 * i) 64 = true

/-- R327, R328: MXSEND posts a matrix command, with its block and the strand's formats, to the tile of an earmark; there it joins the
queue of eight remote commands, or is refused and sent again, or is stale, or the home is lost. That coordinates outside the logical
grid name the sender's own tile is the model's choice (log 71). -/
def MatrixCommandsSent : Prop :=
  (∀ (s : State) (a b : RegNo) (p : BitVec 2) (em : List Byte) (pb : Nat) (ctr : Option Nat), EarmarkAt s a em → s.corr = [] →
      s.x.log = [] → BlockAt s (s.g b) 64 128 pb →
      let bs := memBytes s.mem (localOf pb) 128
      let st := s.x.me
      let w := bfield em 0 5
      let h := ((s.pas st.pasture).binding (w / 2 ^ 16 % 2 ^ 16) (w % 2 ^ 16)).getD s.here
      CounterAt s (wd (bfield bs 0x28 8)) ctr →
      (emSel em ≠ 0xFF → Traps (.mxsend a b p) s cProt (s.g a))
      ∧ (emSel em = 0xFF → ¬ EarmarkGood s em (fun _ => true) 0 → Traps (.mxsend a b p) s cSeal (s.g a))
      ∧ (EarmarkGood s em (· == 0xFF) 0 → st.fail = none → s.longBusy st = false → s.postRoom st.party s.here = true →
          h < 16384 → (s.pas st.pasture).forward h < 16384 →
          (s.pas st.pasture).forward ((s.pas st.pasture).forward h) = (s.pas st.pasture).forward h →
          ∃ (u : State) (c : Cmd), exec (.mxsend a b p) s = .next u ∧ u.x = { s.x with me := st.done st.g (st.pc + 1), log := u.x.log }
            ∧ u.cmds = s.cmds ++ [c] ∧ c.op = .mxsend a b p ∧ c.blk = bs ∧ c.ctr = ctr ∧ c.sid = st.sid ∧ c.st = .sent
            ∧ c.exTile = (s.pas st.pasture).forward h
            ∧ c.fmt = s.x.src.fmt ∧ c.sca = s.x.src.sca ∧ c.scb = s.x.src.scb ∧ c.sw = s.x.src.sw
            ∧ PostsOne s u h 1 (.mxsend c.id (emGen em))))
  ∧ (∀ (s : State) (k : Packet) (t n gen : Nat) (c : Cmd), InTurn s k t → t < 16384 → k.body = .post (.mxsend n gen) →
      s.cmd n = some c →
      let stale := s.staleTile k.pasture t c.arg.toNat gen
      let queued := (s.cmds.filter (fun c => c.eng == .matrix && c.exTile == t && c.st == .arrived)).length
      ((s.tl t).failed = true → ∃ u : State, exec .mxsendArrival s = .next u ∧ Answered s u k t (.nack k.id cHomeLost 0) ∧ u.cmds = s.cmds)
      ∧ ((s.tl t).failed = false → stale = true → ∃ u : State, exec .mxsendArrival s = .next u ∧ Answered s u k t (.stale k.id)
          ∧ u.cmds = s.cmds)
      ∧ ((s.tl t).failed = false → stale = false → 8 ≤ queued → ¬ (k.src < 16384 ∧ (s.tl k.src).failed = true) → ∃ u : State, exec .mxsendArrival s = .next u ∧ u.cmds = s.cmds
          ∧ u.seqExp = s.seqExp ∧ u.dropped.map (·.id) = s.dropped.map (·.id) ++ [k.id])
      ∧ ((s.tl t).failed = false → stale = false → queued < 8 → ∃ (u : State) (o : Nat), exec .mxsendArrival s = .next u ∧ Answered s u k t (.ack k.id)
          ∧ u.cmds = lupd (·.id == n) (fun c => { c with st := .arrived, exTile := t, ord := o }) s.cmds))

end Sys2Proof

/-- R327, R328, R395 to R407: messages. The clauses that logs 46, 47, 71 and 80 back are the model's choices, said with each. -/
def Obligations.Messages : Prop :=
  MessagesSent ∧ Receives ∧ MessagesArrive ∧ MessagesReturn ∧ MatrixCommandsSent

/-! ### Engine commands: issue, acceptance, reports -/

namespace Sys2Proof

/-- A counter that must be named (R204). -/
def CounterOf (s : State) (a : Word) (pa : Nat) : Prop := a.toNat % 8 = 0 ∧ mapsTo s a needW pa = true ∧ s.homeOf pa ≠ .host

/-- The commands of the issuing core that wait for an engine. -/
def inQueue (s : State) (e : Engine) : Nat :=
  (s.cmds.filter (fun k => k.tile == s.here && k.core == s.x.me.core && k.eng == e && k.st == .queued)).length

/-- The bundle waits, with what its C slot has noted on the way (R12, R53). -/
def WaitsNoting (i : Instr) (s : State) (w : Wait) : Prop := ∃ log, exec i s = .next ((s.noting log).park w)

/-- One command joins the strand's core's queue to an engine (R28 to R30): its block, its counter, the strand's FMT, SCA, SCB and SW as
they stood before the bundle, and what its release must wait for. No packet is sent, and no byte of memory changes. -/
def Enqueues (s u : State) (c : Cmd) (i : Instr) (e : Engine) (scope : BitVec 2) (blk : List Byte) (ctr : Option Nat) : Prop :=
  let st := s.x.me
  u.cmds = s.cmds ++ [c] ∧ c.op = i ∧ c.eng = e ∧ c.sid = st.sid ∧ c.pasture = st.pasture ∧ c.tile = s.here ∧ c.core = st.core
    ∧ c.blk = blk ∧ c.ctr = ctr ∧ c.fmt = s.x.src.fmt ∧ c.sca = s.x.src.sca ∧ c.scb = s.x.src.scb ∧ c.sw = s.x.src.sw
    ∧ c.after = s.coveredBy scope ∧ c.log = [] ∧ c.started = false ∧ u.mesh = s.mesh ∧ u.strands = s.strands ∧ SameMem s u

/-- What every issue waits for, and what it reports: a failed posted operation is raised once the scope is drained (R193), which is
the model's reading (log 26), and its event is not posted again; while long-vector accesses are under way, or two commands wait in the
queue, the bundle waits (R28, R95). -/
def IssueWaits (i : Instr) (s : State) (e : Engine) (scope : BitVec 2) : Prop :=
  let st := s.x.me
  (∀ c a, st.fail = some (c, a) → (s.drained scope = false → WaitsNoting i s (.acks scope.toNat))
      ∧ (s.drained scope = true → ∃ log,
          exec i s = .next (({ s with x := { s.x with log := log, me := { st with fail := none } } } : State).trapFail c a)))
  ∧ (st.fail = none → s.longBusy st = true → WaitsNoting i s .seq)
  ∧ (st.fail = none → s.longBusy st = false → 2 ≤ inQueue s e → WaitsNoting i s .queue)

/-- The instruction issues its command, and its bundle is complete: no register changes. -/
def Issued (i : Instr) (s : State) (e : Engine) (scope : BitVec 2) (blk : List Byte) (ctr : Option Nat) (more : State → Cmd → Prop) :
    Prop :=
  s.x.me.fail = none → s.longBusy s.x.me = false → inQueue s e < 2 → ∃ (u : State) (c : Cmd), exec i s = .next u
    ∧ u.x = { s.x with me := s.x.me.done s.x.me.g (s.x.me.pc + 1), log := u.x.log } ∧ Enqueues s u c i e scope blk ctr ∧ more u c

/-- Both. -/
def Issues (i : Instr) (s : State) (e : Engine) (scope : BitVec 2) (blk : List Byte) (ctr : Option Nat) (more : State → Cmd → Prop) :
    Prop :=
  IssueWaits i s e scope ∧ Issued i s e scope blk ctr more

/-- A command of the issuing tile's own engine, which leaves the retransmit buffers alone. -/
def OnItsTile (s u : State) (c : Cmd) : Prop := c.st = .queued ∧ c.exTile = s.here ∧ u.unacked = s.unacked

/-- R208, R296, R298, R322: copies, stream copies, matrix commands and transfers are issued with the record at their address; a stream
that is not the strand's is ILLEGAL. A transfer is served by the home of RBASE, whatever the rights there, or by the issuing tile where
RBASE has none; sixteen of a tile are outstanding at most. That RBASE is translated at issue, and that a transfer without a home is
served by the issuing tile, are the model's choices (log 36); so is that a block is translated page by page (log 77, `BlockAt`). -/
def TransfersIssue : Prop :=
  ∀ (s : State) (d a b : RegNo) (p : BitVec 2) (pa : Nat) (ctr : Option Nat), s.corr = [] → s.x.log = [] →
    let g := s.g a
    let blk (n : Nat) : List Byte := memBytes s.mem (localOf pa) n
    let n := d.toNat % 4
    let own := (s.stream s.here s.x.me.core n).owner = some s.x.me.sid
    (BlockAt s g 64 192 pa → CounterAt s (s.g b) ctr → Issues (.cpy a b p) s .copy p (blk 192) ctr (OnItsTile s))
    ∧ (¬ own → exec (.cpys d a p) s = .next s.illegalC)
    ∧ (own → BlockAt s g 64 192 pa → CounterAt s (wd (bfield (blk 192) 0x10 8)) ctr →
        Issues (.cpys d a p) s .copy p (blk 192) ctr (fun u c => OnItsTile s u c ∧ c.num = n))
    ∧ (BlockAt s g 64 64 pa → CounterAt s (s.g b) ctr → Issues (.mxldb a b p) s .matrix p (blk 64) ctr (OnItsTile s))
    ∧ (BlockAt s g 64 128 pa → CounterAt s (s.g b) ctr →
        Issues (.mxrun a b p) s .matrix p (blk 128) ctr (OnItsTile s) ∧ Issues (.mxdrain a b p) s .matrix p (blk 128) ctr (OnItsTile s))
    ∧ (∀ pc, BlockAt s g 64 64 pa → CounterOf s (s.g b) pc →
        let count := (s.cmds.filter (fun c => c.eng == .getput && c.tile == s.here)).length
        let rb := wd (bfield (blk 64) 0 8)
        ∀ i ∈ [Instr.get a b p, .put a b p],
          (∀ ra, mapsTo s rb needNone ra = true →
            (16 ≤ count → WaitsNoting i s .queue)
            ∧ (count < 16 → Issues i s .getput p (blk 64) (some pc) (fun u c => c.st = .held ∧ u.unacked = s.unacked
              ∧ c.exTile = destOf s.x.me.pasture (s.homeOf ra) ∧ c.num = s.homeKey ra)))
          ∧ (2 ^ 56 ≤ rb.toNat → count < 16 → Issues i s .getput p (blk 64) (some pc) (fun u c => c.st = .held
              ∧ u.unacked = s.unacked ∧ c.exTile = s.here ∧ c.num = s.here)))

/-- R83, R88, R278, R279, R285, R286: bank commands are issued with the descriptor at their address. A range outside the scratchpad of
the device is PROT; one that R278 does not allow, or that is empty, holds no word; one on another tile takes its number among the
strand's posted operations now, and waits for the engine's acceptance to be sent. -/
def BankCommandsIssue : Prop :=
  ∀ (s : State) (a b : RegNo) (p : BitVec 2) (pa pc pd : Nat), s.corr = [] → s.x.log = [] → BlockAt s (s.g a) 64 64 pa →
    CounterOf s (s.g b) pc →
    let bs := memBytes s.mem (localOf pa) 64
    let dst := wd (bfield bs 0 8)
    let len := bfield bs 0x20 4
    let ty := bfield bs 0x24 1
    let lo := localOf pd
    let size := bankSize ty
    let n := len * size
    let spad : Prop := pd / 2 ^ 45 % 2 ^ 11 = s.devnum.toNat ∧ pd / 2 ^ 42 % 8 = 1
    let h := tileOf lo
    ∀ x ∈ [(Instr.badd a b p, needW, false), (.baxpy a b p, needW, false), (.bscale a b p, needW, false),
        (.bmax a b p, needW, false), (.bfill a b p, needW, false), (.bsum a b p, needR, false), (.bexps a b p, needR, true)],
      mapsTo s dst x.2.1 pd = true →
      let types : Prop := if x.2.2 then ty = 0 ∨ ty = 2 else ty ≤ 3 ∨ ty = 10 ∨ ty = 11
      let sized : Prop := 1 ≤ len ∧ len ≤ 65536 ∧ types
      let issued (hi num : Nat) : Prop :=
        (h ≠ s.here → s.postRoom s.x.me.party s.here = false → WaitsNoting x.1 s (.acks 4))
        ∧ (h = s.here ∨ s.postRoom s.x.me.party s.here = true → Issues x.1 s .bank p bs (some pc) (fun u c => c.st = .queued
            ∧ c.exTile = h ∧ c.lo = lo ∧ c.hi = hi ∧ c.num = num
            ∧ (h = s.here → u.unacked = s.unacked ∧ u.waiting = s.waiting)
            ∧ (h ≠ s.here → ∃ k : Packet, u.unacked = s.unacked ++ [k] ∧ u.waiting = s.waiting ++ [k] ∧ k.body = .post (.bank c.id)
                ∧ k.party = .strand c.sid ∧ k.src = s.here ∧ k.dst = (s.pas c.pasture).forward h
                ∧ k.seq = seqGet s.seqNext k.party k.dst ∧ seqGet u.seqNext k.party k.dst = k.seq + 1)))
      (¬ spad → Traps x.1 s cProt dst)
      ∧ (∀ last, spad → sized → mapsTo s (dst + wd (n - 1)) x.2.1 last = true →
          (last = pd + n - 1 ∧ lo % size = 0 ∧ lo / 2 ^ 17 = (lo + n - 1) / 2 ^ 17 → issued (lo + n) 1)
          ∧ (¬ (last = pd + n - 1 ∧ lo % size = 0 ∧ lo / 2 ^ 17 = (lo + n - 1) / 2 ^ 17) → issued lo 0))
      ∧ (spad → len = 0 → types → lo % size = 0 → issued lo 1)
      ∧ (spad → ¬ types → issued lo 0)

/-- R341, R342, R355, R379 to R381: the step-cache, select and Flock commands are issued; what is malformed is PROT, and an
instruction that no handler or no other strand may execute is ILLEGAL. FPOP waits for its record from then on. -/
def OtherCommandsIssue : Prop :=
  ∀ (s : State) (d a b : RegNo) (pa : Nat) (ctr : Option Nat), s.corr = [] → s.x.log = [] → s.x.me.isCtl = false →
    let g := s.g a
    let st := s.x.me
    let blk (n : Nat) : List Byte := memBytes s.mem (localOf pa) n
    Issues (.scinv a) s .matrix 0 [] none (fun u c => OnItsTile s u c ∧ c.arg = g)
    ∧ (BlockAt s g 64 64 pa →
        let bs := blk 64
        let region := wd (bfield bs 0 8)
        let size := bfield bs 8 4
        (scSetBad bs = true → Traps (.scset a) s cProt g)
        ∧ (∀ p1 p2, scSetBad bs = false →
            (region ≠ 0 → size ≠ 0 → mapsTo s region needRW p1 = true ∧ s.homeOf p1 = .tile s.here
              ∧ mapsTo s (region + wd (64 * size - 1)) needRW p2 = true ∧ s.homeOf p2 = .tile s.here) →
            Issues (.scset a) s .matrix 0 bs none (OnItsTile s))
        ∧ (∀ p1, scSetBad bs = false → region ≠ 0 → size ≠ 0 → mapsTo s region needRW p1 = true → s.homeOf p1 ≠ .tile s.here →
            Traps (.scset a) s cProt region))
    ∧ (st.hslot = true → ∀ i ∈ [Instr.selopen a, .selpush a b, .selemit a b, .selreset, .fpop d a, .fdone],
        exec i s = .next s.illegalC)
    ∧ (st.hslot = false → s.selOwned s.here st.sid = none → ∀ i ∈ [Instr.selpush a b, .selemit a b, .selreset],
        exec i s = .next s.illegalC)
    ∧ (st.hslot = false → ∀ n, s.selOwned s.here st.sid = some n →
        Issues .selreset s .select 0 [] none (fun u c => OnItsTile s u c ∧ c.num = n ∧ (u.selCtx s.here n).owner = none)
        ∧ (BlockAt s g 32 32 pa → CounterAt s (s.g b) ctr →
            (selPushBad (s.selCtx s.here n) (blk 32) = true → Traps (.selpush a b) s cProt g)
            ∧ (selEmitBad (s.selCtx s.here n) (blk 32) = true → Traps (.selemit a b) s cProt g)
            ∧ (selPushBad (s.selCtx s.here n) (blk 32) = false →
                Issues (.selpush a b) s .select 0 (blk 32) ctr (fun u c => OnItsTile s u c ∧ c.num = n))
            ∧ (selEmitBad (s.selCtx s.here n) (blk 32) = false →
                Issues (.selemit a b) s .select 0 (blk 32) ctr (fun u c => OnItsTile s u c ∧ c.num = n))))
    ∧ (st.hslot = false → BlockAt s g 32 32 pa →
        (s.selOpenBad (blk 32) = true → Traps (.selopen a) s cProt g)
        ∧ (∀ n, s.selOpenBad (blk 32) = false →
            (s.selOwned s.here st.sid = some n ∨ (s.selOwned s.here st.sid = none ∧ s.selFreeOne s.here = some n
              ∧ (s.tl s.here).selWait = [])) →
            Issued (.selopen a) s .select 0 (blk 32) none (fun u c => OnItsTile s u c ∧ c.num = n
              ∧ (u.selCtx s.here n).owner = some st.sid))
        ∧ (s.selOpenBad (blk 32) = false → st.fail = none → s.selOwned s.here st.sid = none →
            s.selFreeOne s.here = none ∨ (s.tl s.here).selWait ≠ [] →
            (st.sid ∈ (s.tl s.here).selWait → WaitsNoting (.selopen a) s .queue)
            ∧ (st.sid ∉ (s.tl s.here).selWait → ∃ u : State, exec (.selopen a) s = .next u
              ∧ (∃ log, u.x = ((s.noting log).park .queue).x)
              ∧ (u.tl s.here).selWait = (s.tl s.here).selWait ++ [st.sid] ∧ u.cmds = s.cmds ∧ SameMem s u)))
    ∧ (BlockAt s g 32 32 pa →
        let push (i : Instr) (pr : Nat) : Prop :=
          let bs := blk 32
          let dptr := wd (bfield bs 8 8)
          (bfield bs 6 2 ≠ 0 ∨ 2 ^ 56 ≤ dptr.toNat ∨ 0xFFFFFFFE < pr → Traps i s cProt g)
          ∧ (∀ q h, bfield bs 6 2 = 0 → pr ≤ 0xFFFFFFFE → mapsTo s dptr needNone q = true → s.homeOf q = .tile h →
              Issues i s .flock 0 (recSet bs 0 4 pr) none (fun u c => OnItsTile s u c ∧ c.num = h))
          ∧ (∀ q, bfield bs 6 2 = 0 → pr ≤ 0xFFFFFFFE → mapsTo s dptr needNone q = true → (∀ h, s.homeOf q ≠ .tile h) →
              Traps i s cProt dptr)
        push (.fpush a) (bfield (blk 32) 0 4) ∧ push (.fpushRel a) (bfield (blk 32) 0 4 + s.x.src.vt.toNat % 2 ^ 32))
    ∧ (st.hslot = false → Issues .fdone s .flock 0 [] none (OnItsTile s))
    ∧ (∀ q, st.hslot = false → g.toNat % 32 = 0 → mapsTo s g needW q = true →
        (s.homeOf q ≠ .tile s.here → Traps (.fpop d a) s cProt g)
        ∧ (s.homeOf q = .tile s.here → IssueWaits (.fpop d a) s .flock 0
          ∧ (st.fail = none → s.longBusy st = false → inQueue s .flock < 2 → ∃ (u : State) (c : Cmd), exec (.fpop d a) s = .next u
            ∧ Enqueues s u c (.fpop d a) .flock 0 [] none ∧ OnItsTile s u c ∧ c.lo = localOf q ∧ u.x.me.wait = some (.fpop c.id d)
            ∧ u.x.me.cOnly = true ∧ u.x.me.g = st.g ∧ u.x.me.pc = st.pc)))

/-- A command's counter can be written at once, on the tile as whose hart it runs, and lies outside n bytes at an address. -/
def CounterClear (s : State) (c : Cmd) (key n : Nat) : Prop :=
  ∀ pa, c.ctr = some pa → s.homeOf pa = .tile c.base ∧ canCount s pa = true ∧ (localOf pa + 8 ≤ key ∨ key + n ≤ localOf pa)

/-- A command is over, and has completed at its counter, if it has one; nothing but that and n bytes at an address, which hold v,
has changed in memory. -/
def Wrote (s u : State) (c : Cmd) (key n v : Nat) (err : Option Nat) : Prop :=
  memRead u.mem key n = v % 2 ^ (8 * n)
    ∧ (∀ b, (b < key ∨ key + n ≤ b) → (∀ pa, c.ctr = some pa → b < localOf pa ∨ localOf pa + 8 ≤ b) →
        memGet u.mem b = memGet s.mem b)
    ∧ (∀ pa, c.ctr = some pa → CountValue s u pa err) ∧ (u.cmd c.id).map (·.st) = some (.finished err)

/-- The same of a command that has written nothing else. -/
def Ended (s u : State) (c : Cmd) (err : Option Nat) : Prop :=
  (∀ b, (∀ pa, c.ctr = some pa → b < localOf pa ∨ localOf pa + 8 ≤ b) → memGet u.mem b = memGet s.mem b)
    ∧ (∀ pa, c.ctr = some pa → CountValue s u pa err) ∧ (u.cmd c.id).map (·.st) = some (.finished err)

/-- The command that the event concerns, which has made no access yet, while the schedule lets it make all; its counter, if it has one,
can be written at once. -/
def Runs (s : State) (c : Cmd) : Prop :=
  s.cmd s.inp.k = some c ∧ s.inp.vals = [] ∧ c.log = [] ∧ s.mem.wf = true
    ∧ ∀ pa, c.ctr = some pa → s.homeOf pa = .tile c.base ∧ canCount s pa = true

/-- An engine of tile t reaches an address of pasture p with the rights it needs, by an entry of the tile's TLB. -/
def Reaches (s : State) (p t : Nat) (va : Word) (n : Need) (pa : Nat) : Prop :=
  va.toNat < 2 ^ 56 ∧ ∃ e, tlbFind (s.tl t).tlb p va.toNat = some e ∧ s.checkEntry p e va.toNat n = .inl pa

/-- The commands that an engine holds, as a command's acceptance counts them (R286, R302, R324, R356): those of its tile from acceptance
to completion; for a bank command, the installed ones of its bank. -/
def heldBeside (s : State) (c : Cmd) : Nat :=
  (s.cmds.filter (fun k => k.eng == c.eng && (match c.eng with
    | .bank => k.st == .held && k.lo / 2 ^ 17 == c.lo / 2 ^ 17
    | .matrix => k.accepted && k.exTile == c.exTile && k.ord != 0
    | _ => k.accepted && k.tile == c.tile))).length

/-- R28, R286, R295, R302, R313, R324, R356, R375: an engine accepts the command at the head of a core's queue while it has room for it:
32 copies, 16 matrix commands, 8 select commands, 4 bank commands of one bank; a push is counted as it is accepted. A malformed
matrix command completes at once with 0x40, nothing done; a malformed copy is marked with it, and completes in its turn. A bank command
for another tile goes to it as the posted operation that it was numbered as. -/
def CommandsAccepted : Prop :=
  (∀ (s : State) (c : Cmd), s.cmd s.inp.k = some c → s.mayAccept c = true → (s.strandOf c.sid).isSome = true → c.eng ≠ .getput →
      c.eng ≠ .message → c.eng ≠ .join →
      let n := if c.eng = .flock then 0 else heldBeside s c
      let cap := match c.eng with | .copy => 32 | .matrix => 16 | .select => 8 | .bank => 4 | _ => 1
      let bad : Prop := c.eng = .matrix ∧ s.mxBad c = true
      let err (c : Cmd) : Option Nat := if c.eng = .copy then (if s.copyBad c then some 0x40 else none) else c.err
      (c.eng = .bank → c.exTile = c.tile) →
      (cap ≤ n → exec .commandAccept s = .next s)
      ∧ (n < cap → ¬ bad → ∃ (u : State) (o : Nat), exec .commandAccept s = .next u
          ∧ u.cmds = lupd (·.id == c.id) (fun c => { c with st := .held, ord := o, err := err c }) s.cmds ∧ u.strands = s.strands ∧ SameMem s u
          ∧ (c.isPush = true → (u.flk c.tile).pushed = (s.flk c.tile).pushed + (if c.eng = .flock then 1 else 0)))
      ∧ (n < cap → bad → Runs s c → ∃ u : State, exec .commandAccept s = .next u ∧ Ended s u c (some 0x40)))
  ∧ (∀ (s : State) (c : Cmd) (k : Packet), s.cmd s.inp.k = some c → s.mayAccept c = true → (s.strandOf c.sid).isSome = true →
      c.eng = .bank → c.exTile ≠ c.tile → s.waiting.find? (fun k => k.body == .post (.bank c.id)) = some k →
      ∃ (u : State) (l : Nat), exec .commandAccept s = .next u
        ∧ u.cmds = lupd (·.id == c.id) (fun c => { c with st := .sent }) s.cmds ∧ u.mesh = s.mesh ++ [{ k with cls := l }]
        ∧ u.waiting = ldel (·.id == k.id) s.waiting ∧ u.strands = s.strands ∧ SameMem s u)

/-- R32, R290, R355: a command whose work is done ORs its flags into FLAGOUT, completes at its counter, and its report ends it. A free
selection context goes to the first strand that waits for one. -/
def CommandsReported : Prop :=
  (∀ (s : State) (c : Cmd) (flagout : Word) (fl : BitVec 5) (err : Option Nat), Runs s c → c.st = .ending flagout fl err →
      c.eng ≠ .message → c.eng ≠ .join →
      (flagout = 0 → ∃ u : State, exec .completionReport s = .next u ∧ Ended s u c err)
      ∧ (∀ q, flagout ≠ 0 → Reaches s c.pasture c.base flagout needW q → s.homeOf q = .tile c.base → s.badAt (localOf q) 8 = false →
          s.bankHeld (localOf q) 8 = false → CounterClear s c (localOf q) 8 → ∃ u : State, exec .completionReport s = .next u
            ∧ Wrote s u c (localOf q) 8 (memRead s.mem (localOf q) 8 ||| fl.toNat) err))
  ∧ (∀ (s : State) (c : Cmd) (e : Option Nat), s.cmd s.inp.k = some c → c.st = .finished e → s.ends = [] →
      (c.exTile = c.tile → exec .completionReport s = .next { s with cmds := ldel (·.id == c.id) s.cmds })
      ∧ (∀ k, c.exTile ≠ c.tile → c.exTile < 16384 → s.mesh.find? (fun k => k.body == .report c.id) = some k →
          ∃ u : State, exec .completionReport s = .next u ∧ u.cmds = ldel (·.id == c.id) s.cmds ∧ u.mesh = ldel (·.id == k.id) s.mesh
            ∧ SameMem s u ∧ u.strands = s.strands))
  ∧ (∀ (s : State) (sid : Word) (r : List Word) (i : Nat), (s.tl s.inp.k).selWait = sid :: r → s.selFreeOne s.inp.k = some i →
      ∃ u : State, exec .selcontextGrant s = .next u ∧ (u.tl s.inp.k).selWait = r ∧ (u.selCtx s.inp.k i).owner = some sid
        ∧ (∀ j, j ≠ i → u.selCtx s.inp.k j = s.selCtx s.inp.k j) ∧ u.strands = s.strands ∧ SameMem s u)

/-- R260, R262, R300: SBIND gives a free stream to the strand, with a ring of scratchpad on its tile, in one bank, that it may read and
write; SFREE frees one, waiting in long mode for the sequencer, and a command that would fill it ends with UNBOUND. -/
def StreamsBind : Prop :=
  ∀ (s : State) (d a : RegNo) (pa pr : Nat), s.corr = [] → s.x.log = [] →
    let st := s.x.me
    let n := d.toNat % 4
    let m := s.stream s.here st.core n
    let bs := memBytes s.mem (localOf pa) 32
    let buf := bfield bs 0 8
    let len := bfield bs 8 4
    let bad : Prop := buf % 256 ≠ 0 ∨ len % 256 ≠ 0 ∨ len < 256 ∨ 131072 < len ∨ 1 < bfield bs 0xC 1 ∨ bfield bs 0xD 19 ≠ 0
    let freed (u : State) : Prop := u.x = { s.x with me := st.done st.g (st.pc + 1) } ∧ u.stream s.here st.core n = {}
      ∧ u.strands = s.strands ∧ SameMem s u
    (st.hslot = true ∨ (st.vlive = false ∧ st.lmode = false) ∨ m.owner ≠ none → exec (.sbind d a) s = .next s.illegalC)
    ∧ (st.hslot = false → (st.vlive || st.lmode) = true → m.owner = none → BlockAt s (s.g a) 32 32 pa →
        (bad → Traps (.sbind d a) s cProt (s.g a))
        ∧ (¬ bad → (∀ i, i < len / 256 → mapsTo s (wd buf + wd (256 * i)) needRW (pr + 256 * i) = true
              ∧ s.homeOf (pr + 256 * i) = .tile s.here ∧ isSpad (localOf (pr + 256 * i)) = true
              ∧ localOf (pr + 256 * i) / 2 ^ 17 = localOf pr / 2 ^ 17) →
            ∃ u : State, exec (.sbind d a) s = .next u ∧ u.x = { s.x with me := st.done st.g (st.pc + 1), log := u.x.log } ∧ SameMem s u
              ∧ u.stream s.here st.core n = {
                  owner := some st.sid, base := wd buf, len := len, long := bfield bs 0xC 1 == 1
                  buf := (List.range (len / 256)).map (fun i => pr + 256 * i) }
              ∧ u.strands = s.strands ∧ u.cmds = s.cmds)
        ∧ (¬ bad → len = 256 → mapsTo s (wd buf) needNone pr = true →
            (s.homeOf pr ≠ .tile s.here ∨ isSpad (localOf pr) = false → Traps (.sbind d a) s cProt (s.g a))
            ∧ (∀ e, s.homeOf pr = .tile s.here → isSpad (localOf pr) = true →
                tlbFind (s.tl s.here).tlb st.pasture buf = some e → e.r = false ∨ e.w = false ∨ e.s = true →
                Traps (.sbind d a) s cProt (wd buf))))
    ∧ (m.owner ≠ some st.sid → exec (.sfree d) s = .next s.illegalC)
    ∧ (m.owner = some st.sid → st.lmode = true → s.seqIdle = false → Waits (.sfree d) s .seq)
    ∧ (m.owner = some st.sid → (st.lmode = false ∨ s.seqIdle = true) →
        let fills (c : Cmd) : Prop := c.eng = .copy ∧ c.isCpys = true ∧ c.tile = s.here ∧ c.core = st.core ∧ c.num = n
        ((∀ c ∈ s.cmds, ¬ fills c) → ∃ u : State, exec (.sfree d) s = .next u ∧ freed u ∧ u.cmds = s.cmds)
        ∧ (∀ c, s.cmds = [c] → fills c → c.st = .queued → c.exTile = c.tile → c.ctr = none → c.err = none → c.log = [] →
            ∃ u : State, exec (.sfree d) s = .next u ∧ freed u ∧ u.cmds = [{ c with st := .finished (some 0x42), started := true }]))

/-- R299, R306, R330, R343, R383: the status instructions: counters, and what the engine of the tile holds; an undefined selector is ILLEGAL.
Of the counters, those of cycles read 0 until there may have been one to count, and are open from then on (log 7). R326: MXWAIT.
R370, R382: FFLOOR. -/
def EngineStatus : Prop :=
  ∀ (s : State) (d a b : RegNo) (n : BitVec 7),
    let x := s.tl s.here
    let st := s.x.me
    let k := n.toNat
    let reads (i : Instr) (v : Word) : Prop := ∃ t : State, exec i s = .next t ∧ RegSet st t.x.me d v
      ∧ t = { s with free := t.free, x := { s.x with me := st.done t.x.me.g (st.pc + 1) } } ∧ SameMem s t
    let held (e : Engine) (own : Cmd → Nat) : Nat :=
      (s.cmds.filter (fun c => c.eng == e && own c == s.here && c.accepted && (e != .matrix || c.ord != 0))).length
    -- the permits that operands being fetched for a stream have taken
    let taken (j : Nat) : Nat := ((s.fillers s.here st.core j).map s.permitsHeld).foldl (· + ·) 0
    let mine (j : Nat) (f : Stream → Nat) : Nat :=
      let m := s.stream s.here st.core j
      if m.owner = some st.sid then f m else 0
    (k ≤ 6 → k ≠ 5 → reads (.cpystat d n) (s.ctr s.here (0x300 + 8 * k)))
    ∧ (k = 5 → (∃ v, reads (.cpystat d n) v) ∧ (s.ctr s.here 0x328 = 0 → reads (.cpystat d n) 0))
    ∧ (k = 8 → reads (.cpystat d n) (wd (held .copy (·.tile))))
    ∧ (12 ≤ k → k ≤ 15 → reads (.cpystat d n) (wd (mine (k - 12) (·.ready))))
    ∧ (16 ≤ k → k ≤ 19 → reads (.cpystat d n) (wd (mine (k - 16) (fun m =>
        m.len / (if m.long then 256 else 32) - m.ready - taken (k - 16)))))
    ∧ (k = 7 ∨ (9 ≤ k ∧ k ≤ 11) ∨ 20 ≤ k → exec (.cpystat d n) s = .next s.illegalC)
    ∧ (k ≤ 7 → reads (.mxstat d n) (s.ctr s.here (0x400 + 8 * k)))
    ∧ (k = 8 → reads (.mxstat d n) (wd (held .matrix (·.exTile))))
    ∧ (16 ≤ k → k ≤ 31 → reads (.mxstat d n) (wd ((s.image s.here (k - 16)).gen + (s.image s.here (k - 16)).st * 2 ^ 16)))
    ∧ ((9 ≤ k ∧ k ≤ 15) ∨ 32 ≤ k → exec (.mxstat d n) s = .next s.illegalC)
    ∧ (k ≤ 6 → reads (.scstat d n) (s.ctr s.here (0x500 + 8 * k)))
    ∧ (k = 8 → reads (.scstat d n) (wd ((List.range 64).filter (fun i => (s.scEntry s.here i).v)).length))
    ∧ (k = 9 → reads (.scstat d n) (zx x.scThresh)) ∧ (k = 10 → reads (.scstat d n) (wd x.scSlot))
    ∧ (k = 11 → reads (.scstat d n) x.scRegion)
    ∧ (k = 7 ∨ 12 ≤ k → exec (.scstat d n) s = .next s.illegalC)
    ∧ (k ≤ 8 → reads (.fstat d n) (s.ctr s.here (0xF00 + 8 * k)))
    ∧ (k = 9 → (∃ v, reads (.fstat d n) v) ∧ (s.ctr s.here 0xF48 = 0 → reads (.fstat d n) 0))
    ∧ (k = 16 → reads (.fstat d n) (wd (x.flock.recs.filter (·.sram)).length))
    ∧ (k = 17 → reads (.fstat d n) (wd (x.flock.recs.length - (x.flock.recs.filter (·.sram)).length)))
    ∧ (∀ r, x.flock.tree = some r → (k = 19 → reads (.fstat d n) (wd r.pushed)) ∧ (k = 20 → reads (.fstat d n) (wd r.popped))
        ∧ (k = 21 → reads (.fstat d n) (wd r.finished)))
    ∧ (∀ p, s.pasOfTile s.here = some p → k = 22 → reads (.fstat d n) (if (s.pas p).doneLatch then 1 else 0))
    ∧ ((10 ≤ k ∧ k ≤ 15) ∨ 23 ≤ k → exec (.fstat d n) s = .next s.illegalC)
    ∧ (s.pasOfTile s.here = none ∨ (∃ p, s.pasOfTile s.here = some p ∧ (s.pas p).domain = none) →
        let ps := x.flock.recs.map (·.prio) ++ x.flock.given.map (·.2.prio) ++ x.flock.inflight.map (·.2)
          ++ (s.pushing s.here).map (fun c => bfield c.blk 0 4) ++ (x.flock.tree.map (·.floor)).toList ++ [0xFFFFFFFF]
        ∃ v, v ∈ ps ∧ (∀ q ∈ ps, v ≤ q) ∧ CWrites (.ffloor d) s d (wd v) ∧ (k = 18 → reads (.fstat d n) (wd v)))
    ∧ (s.g a = 0 →
        let busy := s.cmds.any (fun c => c.sid == st.sid && c.tile == s.here
          && match c.op with | .mxldb .. | .mxrun .. | .mxdrain .. | .mxsend .. => true | _ => false)
        (busy = false → Goes (.mxwait a b) s (st.pc + 1))
        ∧ (busy = true → st.hslot = false → Waits (.mxwait a b) s .mxidle))
    ∧ (∀ pa, s.g a ≠ 0 → s.corr = [] → st.hslot = false → localAccess s (s.g a) 8 needR pa = true →
        let v := memRead s.mem (localOf pa) 8
        let c := (s.g b).toNat % 2 ^ 48
        (c ≤ v % 2 ^ 48 ∨ 2 ^ 63 ≤ v → Goes (.mxwait a b) s (st.pc + 1))
        ∧ (¬ (c ≤ v % 2 ^ 48 ∨ 2 ^ 63 ≤ v) → Waits (.mxwait a b) s (.counter (localOf pa) false c)))

end Sys2Proof

/-- R28 to R32, R208, R260, R262, R285, R296, R298, R322, R326, R330, R341 to R343, R355, R379 to R383: engine commands as a strand sees
them. The clauses that logs 7, 26, 36 and 77 back are the model's choices, said with each. -/
def Obligations.EngineCommands : Prop :=
  TransfersIssue ∧ BankCommandsIssue ∧ StreamsBind ∧ OtherCommandsIssue ∧ CommandsAccepted ∧ CommandsReported ∧ EngineStatus

/-! ### Engine commands: what they do -/

namespace Sys2Proof

/-- No word is in error and no bank command holds one, so that nothing stands in the way of an engine's access. -/
def Quiet (s : State) : Prop := s.bad = [] ∧ s.corr = [] ∧ (∀ c ∈ s.cmds, c.eng ≠ .bank)

/-- A command's engine holds it, its gate is clear (R30), its tile works, and no command of the engine on that tile was accepted before
it (R28, R300, R324). -/
def Turn (s : State) (c : Cmd) (e : Engine) : Prop :=
  c.eng = e ∧ c.st = .held ∧ s.gateOpen c = true ∧ (s.tl c.exTile).failed = false
    ∧ ∀ d ∈ s.cmds, d.eng = e → d.exTile = c.exTile ∨ d.tile = c.tile → d.accepted = true → c.ord ≤ d.ord

/-- n elements of z bytes in a row on the tile as whose hart a command runs, each aligned and reached with the rights it needs, from
physical address pa on. -/
def InARow (s : State) (c : Cmd) (va : Word) (need : Need) (pa z n : Nat) : Prop :=
  ∀ i, i < n → (va + wd (z * i)).toNat % z = 0 ∧ Reaches s c.pasture c.base (va + wd (z * i)) need (pa + z * i)
    ∧ s.homeOf (pa + z * i) = .tile c.base ∧ localOf (pa + z * i) = localOf pa + z * i

/-- A command has asked another tile for n bytes, and goes on when they come. -/
def AsksFor (s u : State) (c : Cmd) (h : Nat) (addr : Word) (pa n : Nat) : Prop :=
  (∃ k : Packet, u.mesh = s.mesh ++ [k] ∧ k.body = .fetch c.sid addr (localOf pa) (.load n false 0) ∧ k.party = .cmd c.id
      ∧ k.src = c.base ∧ k.dst = (s.pas c.pasture).forward h)
    ∧ u.unacked = s.unacked ∧ (u.cmd c.id).map (·.st) = some c.st ∧ SameMem s u

/-- A command has written n bytes on another tile by a posted operation, numbered for that tile, and completes when it is
acknowledged. -/
def PostsWrite (s u : State) (c : Cmd) (h : Nat) (addr : Word) (pa n v : Nat) : Prop :=
  (∃ (k : Packet) (l : Nat), u.unacked = s.unacked ++ [k] ∧ u.mesh = s.mesh ++ [{ k with cls := l }]
      ∧ k.body = .post (.store (localOf pa) n (BitVec.ofNat 2048 v) addr) ∧ k.party = .cmd c.id ∧ k.src = c.base
      ∧ k.dst = (s.pas c.pasture).forward h ∧ k.seq = seqGet s.seqNext k.party k.dst)
    ∧ (u.cmd c.id).map (·.st) = some c.st ∧ SameMem s u

/-- R31, R82, R208, R293 to R297: a copy, and a transfer, of one element: at once where it is the command's own tile, elsewhere by a
fetch or a posted operation; and of n elements of one type, in a row on each side. A transfer whose descriptor is malformed completes
with 0x40. -/
def TransfersRun : Prop :=
  (∀ (s : State) (c : Cmd) (ps pd : Nat), Runs s c → Quiet s → Turn s c .copy → c.isCpys = false → c.exTile = c.tile →
      s.copyBad c = false →
      let h := shapeOf c
      let z := copySize h.st
      let w := copySize h.dt
      let x := memRead s.mem (localOf ps) z
      h.dims.length = 1 → h.dims.all (·.ext == 1) = true → h.flagout = 0 → h.src.toNat % z = 0 → h.dst.toNat % w = 0 →
      Reaches s c.pasture c.tile h.src needR ps → Reaches s c.pasture c.tile h.dst needW pd →
      (s.homeOf ps = .tile c.tile → s.homeOf pd = .tile c.tile → CounterClear s c (localOf pd) w →
        ∃ u : State, exec .cpyExec s = .next u ∧ Wrote s u c (localOf pd) w (h.conv c x).bits none)
      ∧ (∀ t, s.homeOf ps = .tile t → t ≠ c.tile → ∃ u : State, exec .cpyExec s = .next u ∧ AsksFor s u c t h.src ps z)
      ∧ (∀ t, s.homeOf ps = .tile c.tile → s.homeOf pd = .tile t → t ≠ c.tile → s.postRoom (.cmd c.id) c.tile = true →
          ∃ u : State, exec .cpyExec s = .next u ∧ PostsWrite s u c t h.dst pd w (h.conv c x).bits)
      ∧ (h.st = h.dt → (h.conv c x).bits = x)
      ∧ (h.st ≠ h.dt → h.scl = false → (h.conv c x).bits =
            (convert h.st h.dt (if h.rnd = 7 then c.mode else h.rnd) (h.sat || c.msat) c.mftz x).bits))
  ∧ (∀ (s : State) (c : Cmd) (ps pd n : Nat), Runs s c → Quiet s → Turn s c .copy → c.isCpys = false → c.exTile = c.tile →
      s.copyBad c = false →
      let h := shapeOf c
      let z := copySize h.st
      h.dims = [{ ext := n, sstr := z, dstr := z }] → h.st = h.dt → h.flagout = 0 →
      InARow s c h.src needR ps z n → InARow s c h.dst needW pd z n →
      localOf ps + z * n ≤ localOf pd ∨ localOf pd + z * n ≤ localOf ps → CounterClear s c (localOf pd) (z * n) →
      ∃ u : State, exec .cpyExec s = .next u ∧ Wrote s u c (localOf pd) (z * n) (memRead s.mem (localOf ps) (z * n)) none)
  ∧ (∀ (s : State) (c : Cmd), Runs s c → Quiet s → s.gateOpen c = true → c.eng = .getput → c.st = .held →
      let bs := c.blk
      let n := 2 ^ bfield bs 0x2C 1
      let ra := wd (bfield bs 0 8)
      let la := wd (bfield bs 8 8)
      let get : Prop := ∃ a b p, c.op = .get a b p
      let put : Prop := ∃ a b p, c.op = .put a b p
      (xferBad bs = true → ∃ u : State, exec .getputExec s = .next u ∧ Ended s u c (some 0x40))
      ∧ (xferBad bs = false → bfield bs 0x28 4 = 0 → ∃ u : State, exec .getputExec s = .next u ∧ Ended s u c none)
      ∧ (∀ pr pl t, xferBad bs = false → bfield bs 0x10 8 = 0 → bfield bs 0x28 4 = 1 → bfield bs 0x2C 1 ≤ 3 →
          ra.toNat % n = 0 → la.toNat % n = 0 → c.num = t → s.homeOf pr = .tile t → s.homeOf pl = .tile c.tile →
          (get → Reaches s c.pasture c.tile ra needR pr → Reaches s c.pasture c.tile la needW pl →
            (t = c.tile → CounterClear s c (localOf pl) n →
              ∃ u : State, exec .getputExec s = .next u ∧ Wrote s u c (localOf pl) n (memRead s.mem (localOf pr) n) none)
            ∧ (t ≠ c.tile → ∃ u : State, exec .getputExec s = .next u ∧ AsksFor s u c t ra pr n))
          ∧ (put → Reaches s c.pasture c.tile ra needW pr → Reaches s c.pasture c.tile la needR pl →
            (t = c.tile → CounterClear s c (localOf pr) n →
              ∃ u : State, exec .getputExec s = .next u ∧ Wrote s u c (localOf pr) n (memRead s.mem (localOf pl) n) none)
            ∧ (t ≠ c.tile → s.postRoom (.cmd c.id) c.tile = true →
              ∃ u : State, exec .getputExec s = .next u ∧ PostsWrite s u c t ra pr n (memRead s.mem (localOf pl) n))))
      ∧ (∀ pr pl, xferBad bs = false → bfield bs 0x10 8 = 0 → bfield bs 0x2C 1 ≤ 3 → bfieldS bs 0x18 8 = n → bfieldS bs 0x20 8 = n →
          c.num = c.tile →
          let m := bfield bs 0x28 4
          localOf pr + n * m ≤ localOf pl ∨ localOf pl + n * m ≤ localOf pr →
          (get → InARow s c ra needR pr n m → InARow s c la needW pl n m → CounterClear s c (localOf pl) (n * m) →
            ∃ u : State, exec .getputExec s = .next u ∧ Wrote s u c (localOf pl) (n * m) (memRead s.mem (localOf pr) (n * m)) none)
          ∧ (put → InARow s c ra needW pr n m → InARow s c la needR pl n m → CounterClear s c (localOf pr) (n * m) →
            ∃ u : State, exec .getputExec s = .next u ∧ Wrote s u c (localOf pr) (n * m) (memRead s.mem (localOf pl) (n * m)) none)))

/-- R299 to R301: an operand of one element, or of as many of one type as it holds, goes into the ring, or is zeros where the permits
were reclaimed; a fetch that has had no reply within the interval reclaims them, once, and skips the element of a CPY. -/
def StreamsFill : Prop :=
  (∀ (s : State) (c : Cmd), Runs s c → Quiet s → Turn s c .copy → c.isCpys = true → c.exTile = c.tile → s.copyBad c = false →
      c.orphan = false →
      let h := shapeOf c
      let m := s.stream c.tile c.core c.num
      let slot := m.slotPa (m.rd + m.ready)
      let z := copySize h.st
      let w := copySize h.dt
      let single : Prop := h.dims.length = 1 ∧ h.dims.all (·.ext == 1) = true
      m.owner = some c.sid → m.ready < m.slots → h.flagout = 0 → c.pos = 0 →
      (∀ i, i < m.size → s.homeOf (slot + i) = .tile c.tile) → CounterClear s c (localOf slot) m.size →
      let filled (v : Nat) (e : Option Nat) : Prop := ∃ u : State, exec .cpysOperand s = .next u
        ∧ Wrote s u c (localOf slot) m.size v e ∧ u.stream c.tile c.core c.num = { m with ready := m.ready + 1 }
      (∀ ps, single → c.lost = false → c.err = none → h.src.toNat % z = 0 → Reaches s c.pasture c.tile h.src needR ps →
          s.homeOf ps = .tile c.tile → filled ((h.conv c (memRead s.mem (localOf ps) z)).bits % 2 ^ (8 * w)) none)
      ∧ (∀ ps n, h.dims = [{ ext := n, sstr := z, dstr := 0 }] → h.st = h.dt → z * n = m.size → c.lost = false → c.err = none →
          InARow s c h.src needR ps z n → filled (memRead s.mem (localOf ps) m.size) none)
      ∧ (single → c.lost = true → filled 0 c.err))
  ∧ (∀ (s : State) (c : Cmd) (k t : Nat), s.cmd s.inp.k = some c → c.eng = .copy → c.st = .held → c.log = [(k, .out t)] →
      (s.unacked.all (fun u => !(u.party == .cmd c.id && u.key == k))) = true →
      let late : Prop := t + (s.pas c.pasture).pcb.reclaim ≤ s.now
      (¬ late ∨ c.lost = true → exec .permitReclaim s = .next s)
      ∧ (late → c.lost = false → c.isCpys = false → exec .permitReclaim s =
          .next { s with cmds := lupd (·.id == c.id) (fun c => { c with log := [(k, .fault cHomeLost)] }) s.cmds })
      ∧ (late → c.lost = false → c.isCpys = true → ∃ u : State, exec .permitReclaim s = .next u ∧ SameMem s u
          ∧ u.ctr c.tile 0x330 = s.ctr c.tile 0x330 + wd (s.permitsHeld c)
          ∧ u.cmds = lupd (·.id == c.id) (fun c => { c with lost := true, err := c.err <|> some cHomeLost }) s.cmds))

/-- R82, R280 to R288: a bank command is installed; the first of its bank runs over its range: each form on a range of n elements, with
its result at each, or its one word; a malformed one completes with 0x40. -/
def BankCommandsRun : Prop :=
  (∀ (s : State) (c : Cmd) (k : Packet), s.cmd s.inp.k = some c → c.eng = .bank → c.st = .arrived →
      (∀ d ∈ s.cmds, d.eng = .bank → d.st = .arrived → d.lo / 2 ^ 17 = c.lo / 2 ^ 17 → d.id ≠ c.id → c.ord < d.ord) →
      (s.unacked.find? (fun k => k.body == .post (.bank c.id))) = some k →
      let full : Prop := 4 ≤ (s.cmds.filter (fun d => d.eng == .bank && d.st == .held && d.lo / 2 ^ 17 == c.lo / 2 ^ 17)).length
      (full → exec .bankInstall s = .next s)
      ∧ (¬ full → ∃ (u : State) (j : Packet) (o : Nat),
        exec .bankInstall s = .next u ∧ u.cmds = lupd (·.id == c.id) (fun c => { c with st := .held, ord := o }) s.cmds
        ∧ u.mesh = s.mesh ++ [j] ∧ j.body = .ack k.id ∧ j.dst = k.src ∧ seqGet u.seqExp k.party c.exTile = k.seq + 1
        ∧ SameMem s u))
  ∧ (∀ (s : State) (c : Cmd), Runs s c → s.bad = [] → s.corr = [] → s.gateOpen c = true → c.eng = .bank → c.st = .held →
      (s.tl c.exTile).failed = false →
      (∀ d ∈ s.cmds, d.eng = .bank → d.st = .held → d.lo / 2 ^ 17 = c.lo / 2 ^ 17 → d.id ≠ c.id → c.ord < d.ord) →
      let d := bankDesc c.blk
      let z := bankSize d.ty
      let m := c.mode
      let run (q : State → Prop) : Prop := ∃ u : State, exec .bankCommandExec s = .next u ∧ q u
      let n := d.len
      -- the SRC range is the range itself or lies outside it; RES lies on the tile and outside the range
      let srcAt (ps : Nat) : Prop := Reaches s c.pasture c.exTile d.src needR ps
      let beside (ps : Nat) : Prop := ps = s.devnum.toNat * 2 ^ 45 + c.lo
        ∨ ps + z * n ≤ s.devnum.toNat * 2 ^ 45 + c.lo ∨ s.devnum.toNat * 2 ^ 45 + c.hi ≤ ps
      let resAt (pr : Nat) : Prop := Reaches s c.pasture c.exTile d.res (bankResNeed c.op) pr
      let apart (pr : Nat) : Prop := s.homeOf pr = .tile c.exTile ∧ (localOf pr + 8 ≤ c.lo ∨ c.hi ≤ localOf pr)
      (bankBad c d = true → run (fun u => Ended s u c (some 0x40)))
      ∧ (∀ ps, bankSrc c.op = true → d.len = 1 → srcAt ps → ¬ beside ps → run (fun u => Ended s u c (some 0x40)))
      ∧ (∀ pr, bankReads c.op = true → Reaches s c.pasture c.exTile d.res needNone pr → (s.homeOf pr ≠ .tile c.exTile
          ∨ (c.lo < c.hi ∧ c.lo < localOf pr + 8 ∧ localOf pr < c.hi)) → run (fun u => Ended s u c (some 0x40)))
      ∧ (bankBad c d = false → d.flagout = 0 → c.hi = c.lo + z * n →
          let x (i : Nat) : Nat := memRead s.mem (c.lo + z * i) z
          let F (n : Nat) : FVal := decodeF d.ty n c.mftz
          let A : FVal := decodeF 1 d.aux c.mftz
          let I (n : Nat) : Int := decodeInt d.ty n
          let w := 8 * z
          let fits (v : FVal) : Nat := (roundTo d.ty m c.msat c.mftz v).bits
          let writes (v : Nat → Nat) : Prop := CounterClear s c c.lo (z * n) →
            run (fun u => Wrote s u c c.lo (z * n) (packElems w ((List.range n).map v)) none)
          (∀ a b p, c.op = .bfill a b p → writes (fun _ => d.aux))
          ∧ (∀ a b p, c.op = .bscale a b p → (d.ty ≤ 3 → writes (fun i => fits (mulF A (F (x i))).1))
              ∧ (4 ≤ d.ty → writes (fun i => ((I (d.aux % 2 ^ w) * I (x i)) % 2 ^ w).toNat)))
          ∧ (∀ ps, (n ≠ 0 → beside ps) → ps + z * n ≤ 2 ^ 56 → d.src.toNat % 65536 + z * n ≤ 65536 → InARow s c d.src needR ps z n →
              let y (i : Nat) : Nat := memRead s.mem (localOf ps + z * i) z
              (∀ a b p, c.op = .badd a b p → (d.ty ≤ 3 → writes (fun i => fits (addF m (F (x i)) (F (y i))).1))
                ∧ (4 ≤ d.ty → writes (fun i => ((I (x i) + I (y i)) % 2 ^ w).toNat)))
              ∧ (∀ a b p, c.op = .baxpy a b p → (d.ty ≤ 3 → writes (fun i => fits (fmaF m (F (x i)) A (F (y i))).1))
                ∧ (4 ≤ d.ty → writes (fun i => ((I (d.aux % 2 ^ w) * I (y i) + I (x i)) % 2 ^ w).toNat)))
              ∧ (∀ a b p, c.op = .bmax a b p → (d.ty ≤ 3 → writes (fun i => (minMaxF d.ty true c.mftz (x i) (y i)).bits))
                ∧ (4 ≤ d.ty → writes (fun i => (max (I (x i)) (I (y i)) % 2 ^ w).toNat))))
          ∧ (∀ pr, resAt pr → apart pr → CounterClear s c (localOf pr) 8 →
              (∀ a b p, c.op = .bsum a b p →
                (4 ≤ d.ty → run (fun u => Wrote s u c (localOf pr) 8 (((List.range n).map (fun i => I (x i))).sum % 2 ^ 64).toNat none))
                ∧ (d.ty ≤ 3 → (∀ i, i < n → FVal.proper (F (x i))) → ∃ f : FVal, FVal.proper f
                    ∧ FVal.rat f = ((List.range n).map (fun i => FVal.rat (F (x i)))).sum
                    ∧ run (fun u => Wrote s u c (localOf pr) 8 (roundTo (if d.ty = 1 then 1 else 0) m c.msat c.mftz f).bits none)))
              ∧ (∀ a b p, c.op = .bexps a b p →
                run (fun u => Wrote s u c (localOf pr) 8 (bankExps32 c d (memRead s.mem (localOf pr) 8)
                    ((List.range n).map (fun i => if d.ty = 2 then x i * 2 ^ 16 else x i))).bits none)))))

/-- R126 to R129, R307 to R323, R341, R342: the matrix commands: an image of one element, i8 or floating; a row of i8 elements by a
column; one floating element by one; a drain; and the settings of the step cache. -/
def MatrixCommandsRun : Prop :=
  ∀ (s : State) (c : Cmd), Runs s c → Quiet s → Turn s c .matrix →
    let t := c.exTile
    let d := mxLoad c
    let p := mxParam c
    (∀ a b q ps, c.op = .mxldb a b q → s.mxLoadBad c = false → d.k = 1 → d.n = 1 → d.fmt = 8 → d.scl = 0 →
        Reaches s c.pasture t d.src needR ps → s.homeOf ps = .tile t →
        let v := signedOf 8 (memRead s.mem (localOf ps) 1)
        ∃ u : State, exec .mxldbExec s = .next u ∧ Ended s u c none
          ∧ (let m := u.image t (2 * d.macro_ + d.slot)
             m.st = 2 ∧ m.gen = d.gen ∧ m.load = (d.macro_, d.slot, 1, 1, 8)
             ∧ (m.cols.getD 0 {}).cells.getD 0 (.nan true) = .q v (decide (v < 0)) (v == 0)
             ∧ (∀ i, i ≠ 2 * d.macro_ + d.slot → u.image t i = s.image t i)))
    ∧ (∀ a b q ps, c.op = .mxldb a b q → s.mxLoadBad c = false → d.k = 1 → d.n = 1 → d.fmt ∈ [2, 3, 4, 5, 6] → d.scl = 0 →
        d.src.toNat % mxSize d.fmt = 0 → Reaches s c.pasture t d.src needR ps → s.homeOf ps = .tile t →
        let x := decodeF d.fmt (memRead s.mem (localOf ps) (mxSize d.fmt)) c.mftz
        let r := FVal.rat x
        FVal.proper x → ∃ u : State, exec .mxldbExec s = .next u ∧ Ended s u c none
          ∧ (let m := u.image t (2 * d.macro_ + d.slot)
             let col := m.cols.getD 0 {}
             let cell := col.cells.getD 0 (.nan true)
             m.st = 2 ∧ m.gen = d.gen ∧ m.load = (d.macro_, d.slot, 1, 1, d.fmt)
             ∧ (r = 0 → cell = .q 0 x.neg true)
             -- with 2^e its leading power of 2, the element is held in units of 2^(e-6): the nearest integer, at most 127
             ∧ (r ≠ 0 → (2 : ℚ) ^ col.e ≤ |r| ∧ |r| < (2 : ℚ) ^ (col.e + 1) ∧ ∃ v : Int, cell = .q v (decide (r < 0)) false
                 ∧ 0 ≤ (v : ℚ) * r ∧ |v| ≤ 127
                 ∧ (2 * abs ((v : ℚ) - r * (2 : ℚ) ^ (6 - col.e)) ≤ 1 ∨ (|v| = 127 ∧ 127 ≤ |r| * (2 : ℚ) ^ (6 - col.e))))))
    ∧ (∀ a b q ps h, c.op = .mxldb a b q → s.mxLoadBad c = false → d.k = 1 → d.n = 1 → d.fmt = 8 → d.scl = 0 →
        Reaches s c.pasture t d.src needR ps → s.homeOf ps = .tile h → h ≠ t →
        ∃ u : State, exec .mxldbExec s = .next u ∧ (u.image t (2 * d.macro_ + d.slot)).st = 1
          ∧ (u.cmd c.id).map (·.st) = some .held ∧ SameMem s u)
    ∧ (∀ a b q, c.op = .mxrun a b q → s.mxParamBad c false false = false → p.acc = 0 →
      ((s.image t (2 * p.macro_ + p.slot)).st ≠ 2 → ∃ u : State, exec .mxrunExec s = .next u ∧ Ended s u c (some 0x48))
      ∧ (∀ po, p.m = 1 → p.n = 1 → p.ofmt = 0 →
          p.asc = false → p.sc = false → p.sten = false → p.xout = 0 → p.out ≠ 0 → p.flagout = 0 → p.out.toNat % 4 = 0 →
          Reaches s c.pasture t p.out needW po → s.homeOf po = .tile t → CounterClear s c (localOf po) 4 →
          let image (load : Nat × Nat × Nat × Nat × Nat) (e : Int) (cells : List BCell) : Prop := s.image t (2 * p.macro_ + p.slot) =
            { st := 2, gen := p.bgen, load := load, cols := [{ e := e, scale := [], cells := cells }] }
          -- a row of at most 96 elements of i8 by a column: the exact sum of products
          (∀ (pa : Nat → Nat) (v : Nat → Int), p.k ≤ 96 → p.afmt = 8 →
              image (p.macro_, p.slot, p.k, 1, 8) 6 ((List.range 96).map (fun k =>
                if k < p.k then .q (v k) (decide (v k < 0)) (v k == 0) else .q 0 false true)) →
              (∀ k, k < p.k → -128 ≤ v k ∧ v k ≤ 127 ∧ s.homeOf (pa k) = .tile t
                ∧ Reaches s c.pasture t (p.a + BitVec.ofInt 64 (p.akstr * k)) needR (pa k)) →
              let y : Int := ((List.range p.k).map (fun k => signedOf 8 (memRead s.mem (localOf (pa k)) 1) * v k)).sum
              ∃ u : State, exec .mxrunExec s = .next u
                ∧ Wrote s u c (localOf po) 4 (roundTo 0 0 false false (.fin (decide (y < 0)) y.natAbs 1)).bits none)
          -- one floating element by one of an image: the exact product, rounded once to FP32
          ∧ (∀ pa g (e v : Int) (neg : Bool), p.k = 1 → p.afmt ∈ [2, 3, 4, 5, 6] → mxInt g = false →
              c.msat = false → p.sat = false → c.mftz = false →
              image (p.macro_, p.slot, 1, 1, g) e (.q v neg (v == 0) :: List.replicate 95 (.q 0 false true)) →
              p.a.toNat % mxSize p.afmt = 0 → Reaches s c.pasture t p.a needR pa → s.homeOf pa = .tile t →
              let x := decodeF p.afmt (memRead s.mem (localOf pa) (mxSize p.afmt)) false
              FVal.proper x → ∃ (u : State) (f : FVal), exec .mxrunExec s = .next u ∧ FVal.proper f
                ∧ FVal.rat f = FVal.rat x * v * (2 : ℚ) ^ (e - 6) ∧ (FVal.rat f = 0 → f.neg = false)
                ∧ Wrote s u c (localOf po) 4 (roundTo 0 0 false false f).bits none)))
    ∧ (∀ a b q pa po, c.op = .mxdrain a b q → s.mxParamBad c true false = false → p.m = 1 → p.n = 1 → p.ofmt = 0 → p.xout = 0 →
          p.out ≠ 0 → p.flagout = 0 →
          p.out.toNat % 4 = 0 → Reaches s c.pasture t p.acc needR pa → s.homeOf pa = .tile t →
          Reaches s c.pasture t p.out needW po → s.homeOf po = .tile t → CounterClear s c (localOf po) 4 →
          ∃ u : State, exec .mxdrainExec s = .next u
            ∧ Wrote s u c (localOf po) 4 (roundTo 0 (if p.rnd = 7 then c.mode else p.rnd) (p.sat || c.msat) c.mftz
                (decodeF 0 (memRead s.mem (localOf pa) 4) c.mftz)).bits none)
    ∧ (∀ a, c.op = .scset a → ∃ u : State, exec .scsetExec s = .next u ∧ Ended s u c none
        ∧ (u.tl t).scRegion = wd (bfield c.blk 0 8) ∧ (u.tl t).scSlot = bfield c.blk 8 4
        ∧ (u.tl t).scThresh.toNat = (if bfield c.blk 12 4 = 2 ^ 31 then 0 else bfield c.blk 12 4)
        ∧ (bfield c.blk 0x10 1 % 2 = 1 ∨ (s.tl t).scRegion ≠ wd (bfield c.blk 0 8) ∨ (s.tl t).scSlot ≠ bfield c.blk 8 4 →
            (u.tl t).sc = [])
        ∧ (¬ (bfield c.blk 0x10 1 % 2 = 1 ∨ (s.tl t).scRegion ≠ wd (bfield c.blk 0 8) ∨ (s.tl t).scSlot ≠ bfield c.blk 8 4) →
            (u.tl t).sc = (s.tl t).sc))
    ∧ (∀ a, c.op = .scinv a → ∃ u : State, exec .scinvExec s = .next u ∧ Ended s u c none
        ∧ (c.arg.getLsbD 63 = true → (u.tl t).sc = [])
        ∧ (c.arg.getLsbD 63 = false → s.scFind t (c.arg.toNat % 2 ^ 32) = none → (u.tl t).sc = (s.tl t).sc)
        ∧ (∀ i, c.arg.getLsbD 63 = false → s.scFind t (c.arg.toNat % 2 ^ 32) = some i →
            u.scEntry t i = {} ∧ ∀ j, j ≠ i → u.scEntry t j = s.scEntry t j))

/-- R347 to R357: the select commands: a context is opened, takes keys into its list, writes a list out, and is cleared. Keys are kept in
rank order, the list no longer than K, and what it does not hold ranks behind all that it holds. -/
def SelectCommandsRun : Prop :=
  ∀ (s : State) (c : Cmd), Runs s c → Quiet s → Turn s c .select → c.exTile = c.tile → (s.strandOf c.sid).isSome = true →
    (∀ d ∈ s.cmds, d.eng = .select → d.tile = c.tile → d.st = .queued ∨ d.accepted = true → c.id ≤ d.id) →
    let t := c.tile
    let x := s.selCtx t c.num
    let bs := c.blk
    (∀ a, c.op = .selopen a → ∃ u : State, exec .selopenExec s = .next u ∧ Ended s u c none
      ∧ u.selCtx t c.num = { x with
          k := bfield bs 0 4, c := bfield bs 4 1, ktype := bfield bs 5 1, smallest := bfield bs 6 1 % 2 == 1
          row := bfield bs 6 1 / 2 % 2 == 1, lists := List.replicate (bfield bs 4 1) [], err := none })
    ∧ (c.op = .selreset → ∃ u : State, exec .selresetExec s = .next u ∧ Ended s u c none
        ∧ u.selCtx t c.num = { owner := x.owner, heldK := x.heldK, heldT := x.heldT })
    ∧ (∀ a b ps h, c.op = .selpush a b → bfield bs 0x10 4 = 1 → x.c = 1 → x.lists = [[]] → 0 < x.k → x.err = none →
        Reaches s c.pasture t (wd (bfield bs 0 8)) needR ps → s.homeOf ps = .tile h →
        (h = t → ∃ u : State, exec .selpushExec s = .next u ∧ Ended s u c none
          ∧ (let e : Cand := { idx := bfield bs 0x14 4, key := memRead s.mem (localOf ps) (keySize x.ktype), push := c.ord }
             u.selCtx t c.num = { x with lists := [[e]] }))
        ∧ (h ≠ t → ∃ u : State, exec .selpushExec s = .next u
          ∧ AsksFor s u c h (wd (bfield bs 0 8)) ps (keySize x.ktype) ∧ u.selCtx t c.num = x))
    ∧ (∀ a b ps e r, c.op = .selemit a b → bfield bs 0x10 2 = 1 → x.c = 1 → x.lists = [e :: r] → x.err = none →
        Reaches s c.pasture t (wd (bfield bs 0 8)) needW ps → s.homeOf ps = .tile t →
        (bfield bs 0x12 1 = 1 → CounterClear s c (localOf ps) 4 →
          ∃ u : State, exec .selemitExec s = .next u ∧ Wrote s u c (localOf ps) 4 e.idx none ∧ u.selCtx t c.num = x)
        ∧ (bfield bs 0x12 1 = 0 → Reaches s c.pasture t (wd (bfield bs 0 8) + 8) needW (ps + 8) → s.homeOf (ps + 8) = .tile t →
            CounterClear s c (localOf ps) 16 → ∃ u : State, exec .selemitExec s = .next u
              ∧ Wrote s u c (localOf ps) 16 (e.idx % 2 ^ 64 + e.key % 2 ^ 64 * 2 ^ 64) none ∧ u.selCtx t c.num = x))
    ∧ (∀ a b ps, c.op = .selpush a b → x.c = 1 → x.lists = [[]] → 0 < x.k → x.err = none → x.row = false →
        let n := bfield bs 0x10 4
        let z := keySize x.ktype
        bfieldS bs 8 8 = z → InARow s c (wd (bfield bs 0 8)) needR ps z n →
        let e (i : Nat) : Cand := { idx := bfield bs 0x14 4 + i, key := memRead s.mem (localOf ps + z * i) z, push := c.ord }
        ∃ (u : State) (l : List Cand), exec .selpushExec s = .next u ∧ Ended s u c none ∧ u.selCtx t c.num = { x with lists := [l] }
          ∧ l.length = min n x.k ∧ l.Pairwise (fun f g => candBefore x f g = true) ∧ (∀ f ∈ l, ∃ i, i < n ∧ f = e i)
          ∧ ∀ i, i < n → e i ∈ l ∨ ∀ f ∈ l, candBefore x f (e i) = true)
    ∧ (∀ a b ps l, c.op = .selemit a b → bfield bs 0x12 1 = 1 → x.c = 1 → x.lists = [l] → x.err = none →
        let n := bfield bs 0x10 2
        InARow s c (wd (bfield bs 0 8)) needW ps 4 n → CounterClear s c (localOf ps) (4 * n) →
        ∃ u : State, exec .selemitExec s = .next u ∧ u.selCtx t c.num = x
          ∧ Wrote s u c (localOf ps) (4 * n) (packElems 32 ((List.range n).map (fun p => (l[p]?.map Cand.idx).getD 0xFFFFFFFF))) none)
    ∧ (∀ (y : SelCtx) (f g : Cand),
        let tie : Prop := f.idx < g.idx ∨ (f.idx = g.idx ∧ f.push < g.push)
        let F (n : Nat) : FVal := decodeF y.ktype n false
        let ranks (a b : ℚ) : Prop := candBefore y f g = true ↔ (if y.smallest then a < b else b < a) ∨ (a = b ∧ tie)
        (isFloat y.ktype = false → ranks (decodeInt y.ktype f.key) (decodeInt y.ktype g.key))
        ∧ (isFloat y.ktype = true → FVal.proper (F f.key) → FVal.proper (F g.key) → ranks (FVal.rat (F f.key)) (FVal.rat (F g.key)))
        ∧ (isFloat y.ktype = true → (F f.key).isNaN = true → (F g.key).isNaN = false →
            candBefore y f g = false ∧ candBefore y g f = true))
    ∧ (∀ (y : SelCtx) (l : List Cand) (e : Cand), 0 < y.k → y.lists = [l] → l.length ≤ y.k →
        ∃ l', (y.offer 0 e).lists = [l'] ∧ l'.length ≤ y.k ∧ (∀ f ∈ l', f = e ∨ f ∈ l)
          ∧ (l.length < y.k → l'.length = l.length + 1 ∧ e ∈ l'))

end Sys2Proof

/-- R80 to R84, R204, R278 to R323, R341, R342, R347 to R357: the engines' commands run. -/
def Obligations.EnginesRun : Prop :=
  TransfersRun ∧ StreamsFill ∧ BankCommandsRun ∧ MatrixCommandsRun ∧ SelectCommandsRun

/-! ### The Flock -/

namespace Sys2Proof

/-- The records of a unit, wherever it keeps them: priority, bytes, place in the order. -/
def records (l : List FRec) : List (Nat × List Byte × Nat) := l.map (fun r => (r.prio, r.bytes, r.order))

/-- A record is the first of its tile below a limit: by bucket, then by first insertion (R368, R371). -/
def FirstRecord (s : State) (t limit : Nat) (r : FRec) : Prop :=
  let w := 2 ^ (s.tilePcb t).wshift
  r ∈ (s.flk t).recs ∧ r.prio < limit ∧ ∀ q ∈ (s.flk t).recs, q.prio < limit →
    q = r ∨ r.prio / w < q.prio / w ∨ (r.prio / w = q.prio / w ∧ r.order < q.order)

/-- A tile holds no record below a limit. -/
def NoRecord (s : State) (t limit : Nat) : Prop := ∀ q ∈ (s.flk t).recs, limit ≤ q.prio

/-- R369, R375, R379, R380: a push inserts its record into a unit of the same tile, or posts it to the tile that its home address names,
where it is inserted in its turn; a full unit holds it back, or refuses it. A record that comes back takes its first place. -/
def PushesRun : Prop :=
  (∀ (s : State) (c : Cmd), s.cmd s.inp.k = some c → c.isPush = true → Turn s c .flock → s.pushBehind c = false →
      c.ctr = none → c.exTile = c.tile → (s.strandOf c.sid).isSome = true →
      let h := (s.pas c.pasture).forward c.num
      (h = c.tile → s.flockFull h = true → ∃ u : State, exec .fpushExec s = .next u ∧ (u.flk h).recs = (s.flk h).recs
        ∧ (u.cmd c.id).map (·.st) = some .held ∧ u.strands = s.strands)
      ∧ (h = c.tile → s.flockFull h = false → ∃ u : State, exec .fpushExec s = .next u
        ∧ records (u.flk h).recs = records (s.flk h).recs ++ [(bfield c.blk 0 4, c.blk, if c.pos = 0 then s.ids else c.pos - 1)]
        ∧ (u.cmd c.id).map (·.st) = some (.finished none) ∧ u.strands = s.strands ∧ SameMem s u)
      ∧ (h ≠ c.tile → h < 16384 → s.postRoom (.cmd c.id) c.tile = true → ∃ (u : State) (k : Packet), exec .fpushExec s = .next u
        ∧ u.unacked = s.unacked ++ [k] ∧ u.mesh = s.mesh ++ [k]
        ∧ k.body = .post (.push c.id { prio := bfield c.blk 0 4, bytes := c.blk, order := c.pos - 1 })
        ∧ k.src = c.tile ∧ k.cls = 1 ∧ k.dst = (s.pas c.pasture).forward h ∧ (u.cmd c.id).map (·.st) = some .sent
        ∧ (∀ t, u.flk t = s.flk t) ∧ SameMem s u))
  ∧ (∀ (s : State) (k : Packet) (t n : Nat) (r : FRec), InTurn s k t → k.dst < 16384 → t < 16384 → k.body = .post (.push n r) →
      ((s.tl t).failed = true → ∃ u : State, exec .flockRecordArrival s = .next u ∧ Answered s u k t (.nack k.id cHomeLost 0)
        ∧ SameMem s u)
      ∧ ((s.tl t).failed = false → s.flockFull t = true → ¬ (k.src < 16384 ∧ (s.tl k.src).failed = true) →
        ∃ u : State, exec .flockRecordArrival s = .next u ∧ u.seqExp = s.seqExp
        ∧ (u.flk t).recs = (s.flk t).recs ∧ u.dropped.map (·.id) = s.dropped.map (·.id) ++ [k.id])
      ∧ ((s.tl t).failed = false → s.flockFull t = false → ∃ u : State, exec .flockRecordArrival s = .next u
        ∧ Answered s u k t (.ack k.id) ∧ records (u.flk t).recs = records (s.flk t).recs ++ [(r.prio, r.bytes, if r.order = 0 then s.ids else r.order)]
        ∧ SameMem s u))

/-- A pop under way: command n of a strand that waits for it, its buffer on its tile and free of any hold, while the schedule lets it
write all of it. -/
def PopOf (s : State) (c : Cmd) (n : Nat) (d a : RegNo) (st : Strand) : Prop :=
  s.cmd n = some c ∧ c.op = .fpop d a ∧ c.ctr = none ∧ c.exTile = c.tile ∧ s.strandOf c.sid = some st ∧ st.wait = some (.fpop c.id d)
    ∧ s.mem.wf = true ∧ s.bankHeld c.lo 32 = false ∧ s.inp.vals = [] ∧ c.log = [] ∧ c.lo + 32 ≤ 2 ^ 45
    ∧ ∀ i, i < 4 → s.homeOf (s.devnum.toNat * 2 ^ 45 + c.lo + 8 * i) = .tile c.tile

/-- R380: a record is delivered to a pop: into the buffer, its priority into VT, 1 into the register. -/
def PopGets (s u : State) (c : Cmd) (d : RegNo) (st : Strand) (r : FRec) : Prop :=
  memBytes u.mem c.lo 32 = r.bytes ∧ SameMemBut s u c.lo 32 ∧ (u.cmd c.id).map (·.st) = some (.finished none)
    ∧ ∃ st', u.strandOf c.sid = some st' ∧ RegSet st st' d 1 ∧ st' = { (st.done st'.g (st.pc + 1)) with vt := wd r.prio }

/-- R380: the record waits for the strand, which has been pre-empted. -/
def PopKeeps (s u : State) (c : Cmd) (giver : Nat) (r : FRec) : Prop :=
  (u.cmd c.id).map (fun c => (c.st, c.blk, c.num, c.hi)) = some (.ran, r.bytes, giver, r.order) ∧ u.strands = s.strands ∧ SameMem s u

/-- R373, R376: a pop whose tile holds no record for it: with the DONE latch set it completes with 0; otherwise it asks another tile, or,
where there is none to ask, parks. -/
def PopSeeks (i : Instr) (s : State) (c : Cmd) (d : RegNo) (st : Strand) (mesh : List Packet) : Prop :=
  let b := s.bound c.tile
  (s.doneAt c.pasture = true → ∃ (u : State) (st' : Strand), exec i s = .next u ∧ SameMem s u
    ∧ (u.cmd c.id).map (·.st) = some (.finished none)
    ∧ u.strandOf c.sid = some st' ∧ RegSet st st' d 0 ∧ st' = st.done st'.g (st.pc + 1))
  ∧ (s.doneAt c.pasture = false → s.nextAsk c b = none → ∃ u : State, exec i s = .next u ∧ SameMem s u ∧ u.strands = s.strands
    ∧ (u.cmd c.id).map (·.st) = some .parked ∧ u.mesh = mesh)
  ∧ (∀ g, s.doneAt c.pasture = false → s.nextAsk c b = some g → ∃ (u : State) (k : Packet), exec i s = .next u ∧ SameMem s u
    ∧ u.strands = s.strands ∧ (u.cmd c.id).map (fun c => (c.st, c.asked)) = some (.asking, c.asked ++ [g]) ∧ u.mesh = mesh ++ [k]
    ∧ k.body = .steal c.id b ∧ k.src = c.tile ∧ k.dst = g)

/-- R370 to R373, R376, R380, R381: pops, stealing and registration. That a pop parks before the first tree result is the model's
choice (log 41), and so is that FDONE removes an entry at another origin tile as it is performed (log 40). -/
def PopsRun : Prop :=
  (∀ (s : State) (c : Cmd) (d a : RegNo) (st : Strand), PopOf s c s.inp.k d a st → Turn s c .flock → s.popBehind c = false →
      let t := c.tile
      let o := s.entryTile c.pasture c.sid
      ((s.flk t).tree = none → ∃ u : State, exec .fpopExec s = .next u ∧ (u.cmd c.id).map (·.st) = some .parked
        ∧ u.strands = s.strands ∧ SameMem s u)
      ∧ (∀ r, (s.flk t).tree ≠ none → FirstRecord s t (s.bound t) r → (s.flk t).given.find? (·.1 == c.id) = none → r.bytes.length = 32 →
        bfield r.bytes 0 4 = r.prio →
        (o = t → ∃ u : State, exec .fpopExec s = .next u
          ∧ (st.inSlot = true → PopGets s u c d st r) ∧ (st.inSlot = false → PopKeeps s u c t r)
          ∧ records (u.flk t).recs = records (ldel (·.order == r.order) (s.flk t).recs)
          ∧ (c.sid, r.prio) ∈ (u.flk t).inflight ∧ (u.flk t).popped = (s.flk t).popped + 1)
        ∧ (o ≠ t → o < 16384 → ∃ (u : State) (k : Packet), exec .fpopExec s = .next u ∧ u.mesh = s.mesh ++ [k]
          ∧ k.body = .register c.id t r.prio ∧ k.src = t ∧ k.dst = (s.pas c.pasture).forward o ∧ (c.id, r) ∈ (u.flk t).given
          ∧ records (u.flk t).recs = records (ldel (·.order == r.order) (s.flk t).recs)
          ∧ (u.cmd c.id).map (·.st) = some .asking ∧ u.strands = s.strands ∧ SameMem s u))
      ∧ ((s.flk t).tree ≠ none → NoRecord s t (s.bound t) → PopSeeks .fpopExec s c d st s.mesh))
  ∧ (∀ (s : State) (k : Packet) (t n bound : Nat) (c : Cmd), s.packet s.inp.k = some k → s.inp.m ≠ 2 → k.body = .steal n bound →
      k.dst = t → t < 16384 → s.cmd n = some c → c.tile ≠ t →
      let u0 := s.flk t
      let limit := min bound (s.bound t)
      let few : Prop := u0.tree = none ∨ (s.tl t).failed = true
        ∨ (u0.recs.filter (·.prio < limit)).length < max 1 (s.tilePcb t).stealmin
      (few → ∃ (u : State) (j : Packet), exec .stealRequest s = .next u ∧ u.mesh = ldel (·.id == k.id) s.mesh ++ [j]
        ∧ j.body = .stealAnswer n t none ∧ j.dst = k.src ∧ (u.flk t).recs = u0.recs ∧ SameMem s u)
      ∧ (∀ r, ¬ few → FirstRecord s t limit r → u0.given.find? (·.1 == n) = none → ∃ (u : State) (j : Packet),
        exec .stealRequest s = .next u ∧ u.mesh = ldel (·.id == k.id) s.mesh ++ [j] ∧ SameMem s u
        ∧ records (u.flk t).recs = records (ldel (·.order == r.order) u0.recs)
        ∧ (s.entryTile c.pasture c.sid = t → j.body = .stealAnswer n t (some r) ∧ j.dst = c.tile ∧ (c.sid, r.prio) ∈ (u.flk t).inflight)
        ∧ (s.entryTile c.pasture c.sid ≠ t → j.body = .register n t r.prio ∧ (n, r) ∈ (u.flk t).given)))
  ∧ (∀ (s : State) (k : Packet) (n giver prio : Nat) (c : Cmd) (r : FRec), s.packet s.inp.k = some k → s.inp.m < 2 →
      k.body = .register n giver prio → s.cmd n = some c → giver ≠ c.tile → (s.flk giver).given.find? (·.1 == n) = some (n, r) →
      let o := s.entryTile c.pasture c.sid
      ∃ (u : State) (j : Packet), exec .inflightRegister s = .next u ∧ u.mesh = ldel (·.id == k.id) s.mesh ++ [j]
        ∧ j.body = .stealAnswer n giver (some r) ∧ j.dst = c.tile ∧ (c.sid, r.prio) ∈ (u.flk o).inflight
        ∧ (u.flk o).popped = (s.flk o).popped + 1 ∧ SameMem s u)
  ∧ (∀ (s : State) (k : Packet) (n g : Nat) (c : Cmd) (d a : RegNo) (st : Strand), s.packet s.inp.k = some k → PopOf s c n d a st →
      (∀ r, k.body = .stealAnswer n g (some r) → r.bytes.length = 32 → bfield r.bytes 0 4 = r.prio → ∃ u : State, exec .stealAnswer s = .next u
        ∧ (st.inSlot = true → PopGets s u c d st r) ∧ (st.inSlot = false → PopKeeps s u c g r) ∧ u.mesh = ldel (·.id == k.id) s.mesh)
      ∧ (k.body = .stealAnswer n g none → NoRecord s c.tile (s.bound c.tile) →
        PopSeeks .stealAnswer s c d st (ldel (·.id == k.id) s.mesh)))
  ∧ (∀ (s : State) (c : Cmd) (d a : RegNo) (st : Strand), PopOf s c s.inp.k d a st → c.st = .ran → c.blk.length = 32 →
      (st.inSlot = true → ∃ u : State, exec .fpopExec s = .next u
        ∧ PopGets s u c d st { prio := bfield c.blk 0 4, bytes := c.blk, order := c.hi })
      ∧ (st.inSlot = false → exec .fpopExec s = .next s))
  ∧ (∀ (s : State) (c : Cmd), s.cmd s.inp.k = some c → c.op = .fdone → Turn s c .flock → c.ctr = none → c.exTile = c.tile →
      let o := s.entryTile c.pasture c.sid
      ∃ u : State, exec .fdoneExec s = .next u ∧ (u.cmd c.id).map (·.st) = some (.finished none) ∧ u.strands = s.strands ∧ SameMem s u
        ∧ (s.hasEntry c.pasture c.sid = true → (u.flk o).inflight = ldel (·.1 == c.sid) (s.flk o).inflight
          ∧ (u.flk o).finished = (s.flk o).finished + 1)
        ∧ (s.hasEntry c.pasture c.sid = false → ∀ t, u.flk t = s.flk t))

end Sys2Proof

/-- R365 to R373, R375, R376, R379 to R381: the Flock units. The clauses that logs 40 and 41 back are the model's choices, said with
them. -/
def Obligations.FlockUnits : Prop := PushesRun ∧ PopsRun

/-! ### The trees of a pasture -/

namespace Sys2Proof

/-- R243: a waiting strand that counts as parked by itself. That a GARRIVE which waits for its phase counts with GWAIT and GBAR is the
model's choice (log 82). -/
def Parked (s : State) (st : Strand) : Prop :=
  st.stop = none
    ∧ ((∃ pa, st.wait = some (.fullEmpty pa) ∨ st.wait = some (.resv pa)) ∨ (∃ pa z n, st.wait = some (.counter pa z n))
      ∨ (∃ pa d, st.wait = some (.mwait pa d)) ∨ (∃ d, st.wait = some (.latch d)) ∨ (∃ n a b, st.wait = some (.group n a b))
      ∨ st.wait = some .follow
      ∨ (∃ n d, st.wait = some (.fpop n d) ∧ (∃ c, s.cmd n = some c ∧ c.st = .parked)
          ∧ ∀ e ∈ (s.flk (s.entryTile st.pasture st.sid)).inflight, e.1 ≠ st.sid))

/-- R145, R243: a follower in the stream of a parked leader that waits for its next bundle. -/
def FollowsParked (s : State) (st : Strand) : Prop :=
  st.stop = none ∧ st.wait = none ∧ st.pend = none
    ∧ ∃ f l, st.follow = some f ∧ f.joined = true ∧ f.stream = [] ∧ s.strandOf f.leader = some l ∧ Parked s l

/-- R244: what mode A asks of one sampling instant. The commands of parked pops are none that is queued or running (log 42). -/
def AllParked (s : State) (p : Nat) : Prop :=
  (∃ st ∈ s.strands, st.pasture = p)
    ∧ (∀ st ∈ s.strands, st.pasture = p → (∃ t, st.place = .fold t ∧ Parked s st)
        ∨ (∃ t c n, st.place = .slot t c n ∧ n < 14 ∧ (Parked s st ∨ FollowsParked s st)))
    ∧ (∀ t ∈ s.pasTiles p, (s.tl t).arrivals = [] ∧ (s.tl t).readyQ = [])
    ∧ (s.pas p).pool = 0 ∧ (s.pas p).classQ = [] ∧ (s.pas p).overflow = []
    ∧ (∀ c ∈ s.cmds, c.pasture = p → c.isPop = true ∧ c.st = .parked)
    ∧ (∀ k ∈ s.unacked ++ s.mesh ++ s.dropped ++ s.resend ++ s.waiting, k.pasture ≠ p)
    ∧ (s.area p).hostwake = 0

end Sys2Proof

/-- R34, R35, R370, R373 to R376, R387, R425: sampling, whatever the pasture's state, and whether all is parked at that instant; the result
at a tile, FLOCK_DONE and its latch, deadlock mode A (R243, R244), which is frozen while the pasture is stopped, stall mode B (R246), whose
window the model judges when its event comes, not before its end (log 42), and the sums of a domain of devices, whose other samples are an
input of five words each: device, floor, pushed, popped, done (log 43). Logs 42 and 43 are the model's choices. -/
def Obligations.PastureTrees : Prop :=
  (∀ s : State,
      let p := s.inp.k
      let ts := s.pasTiles p
      let total (f : Flock → Nat) : Nat := (ts.map (fun t => f (s.flk t))).sum % 2 ^ 64
      s.hasPas p = true → s.sampleDone p = true → (∀ t ∈ ts, ∀ e ∈ (s.flk t).inflight, (s.strandOf e.1).isSome = true) →
        ∃ (u : State) (r : TreeRes), exec .treeSample s = .next u
        ∧ (u.pas p).sample = some r ∧ r.judged = false ∧ r.floor ≤ 0xFFFFFFFF ∧ (∀ t ∈ ts, r.floor ≤ s.contribution t)
        ∧ (r.floor = 0xFFFFFFFF ∨ ∃ t ∈ ts, r.floor = s.contribution t)
        ∧ r.pushed = total (·.pushed) ∧ r.popped = total (·.popped) ∧ r.finished = total (·.finished)
        ∧ (r.allParked = true ↔ AllParked s p)
        ∧ (∀ t ∈ ts, (u.flk t).last = s.contribution t) ∧ (∀ t, (u.flk t).recs = (s.flk t).recs)
        ∧ u.strands = s.strands ∧ SameMem s u)
  ∧ (∀ (s : State) (p : Nat) (r : TreeRes),
      let t := s.inp.k
      let q := s.pas p
      s.pasOfTile t = some p → s.hasPas p = true → q.sample = some r →
      let done : Prop := r.pushed = r.popped ∧ r.popped = r.finished ∧ r.pushed ≠ q.lastDone
      let dead : Prop := q.st = .running ∧ q.pcb.modeB = false ∧ r.allParked = true
      let takes (u : State) : Prop := (u.flk t).tree = some { r with judged := false }
      (r.judged = true → ∃ u : State, exec .treeResult s = .next u ∧ takes u ∧ u.strands = s.strands ∧ SameMem s u
        ∧ (∀ c ∈ u.cmds, c.eng = .flock → c.tile = t → c.isPop = true → c.st ≠ .parked))
      ∧ (r.judged = false → q.domain = none → ¬ done → ¬ dead → ∃ u : State, exec .treeResult s = .next u ∧ takes u
        ∧ (u.pas p).sample = some { r with judged := true } ∧ (u.pas p).st = q.st ∧ u.strands = s.strands ∧ SameMem s u
        ∧ (u.pas p).doneLatch = (q.doneLatch && r.pushed == q.lastDone))
      ∧ (r.judged = false → q.domain = none → done →
        (∀ c ∈ s.cmds, c.isPop = true → c.ctr = none ∧ c.exTile = c.tile) → ∃ u : State, exec .treeResult s = .next u ∧ takes u
          ∧ (u.pas p).doneLatch = true ∧ (u.pas p).lastDone = r.pushed ∧ (u.pas p).st = q.st
          ∧ u.mem = (s.post p (corner q.pcb.rootp) 0x30 noCls noWhere 0 (wd r.pushed)).mem
          ∧ (∀ c d a st, s.cmds.filter (fun c => c.pasture == p && c.isPop && c.st == .parked) = [c] → c.op = .fpop d a →
              s.strandOf c.sid = some st → ∃ st', u.strandOf c.sid = some st' ∧ RegSet st st' d 0
                ∧ st' = st.done st'.g (st.pc + 1)))
      ∧ (r.judged = false → q.domain = none → ¬ done → dead → ∃ (u : State) (e : SvEvent), exec .treeResult s = .next u ∧ takes u
        ∧ (u.pas p).st = .stopped ∧ (u.pad q.pcb.rootp).svq = (s.pad q.pcb.rootp).svq ++ [e]
        ∧ e.cause = wd (2 * 2 ^ 16 + cDeadlock) ∧ e.past = p))
  ∧ (∀ s : State,
      let p := s.inp.k
      let q := s.pas p
      s.hasPas p = true → q.st = .running → q.pcb.modeB = true →
      let idle : Prop := q.fires = 0 ∧ q.bundles = 0 ∧ q.flits = 0 ∧ (s.herd p ≠ [] ∨ q.pool ≠ 0)
      let opens (u : State) : Prop := (u.pas p).winStart = s.now ∧ (u.pas p).fires = 0 ∧ (u.pas p).bundles = 0 ∧ (u.pas p).flits = 0
      (s.now < q.winStart + q.pcb.mbwin → exec .stall s = .next s)
      ∧ (q.winStart + q.pcb.mbwin ≤ s.now → ¬ idle → ∃ u : State, exec .stall s = .next u ∧ opens u ∧ (u.pas p).st = .running
        ∧ u.strands = s.strands ∧ SameMem s u)
      ∧ (q.winStart + q.pcb.mbwin ≤ s.now → idle → ∃ (u : State) (e : SvEvent), exec .stall s = .next u ∧ opens u
        ∧ (u.pas p).st = .stopped ∧ (u.pad q.pcb.rootp).svq = (s.pad q.pcb.rootp).svq ++ [e]
        ∧ e.cause = wd (2 * 2 ^ 16 + cStall) ∧ e.past = p))
  ∧ (∀ s : State,
      let p := s.inp.k
      let own := s.sampleOf p
      s.hasPas p = true → (s.committed = false ∨ s.feat2.getLsbD 7 = true) →
      (s.inp.vals = [] → ∃ u : State, exec .flockDomainSample s = .next u ∧ (u.pas p).domain = none ∧ (u.pas p).peers = [] ∧ SameMem s u)
      ∧ (∀ d f a b c, s.inp.vals = [d, f, a, b, c] → (2048 ≤ d.toNat ∨ d.toNat = s.devnum.toNat) → exec .flockDomainSample s = .next s)
      ∧ (∀ d f a b c, s.inp.vals = [d, f, a, b, c] → d.toNat < 2048 → d.toNat ≠ s.devnum.toNat → ∃ (u : State) (r : TreeRes), exec .flockDomainSample s = .next u
        ∧ (u.pas p).domain = some r ∧ (u.pas p).peers = [(d.toNat, f.toNat)]
        ∧ r.floor = min 0xFFFFFFFF (min own.floor f.toNat) ∧ r.pushed = (own.pushed + a.toNat) % 2 ^ 64
        ∧ r.popped = (own.popped + b.toNat) % 2 ^ 64 ∧ r.finished = (own.finished + c.toNat) % 2 ^ 64))

/-! ### Controller cores -/

namespace Sys2Proof

/-- The issuing agent is core c of paddock p, which addresses memory physically (R419). -/
def OnCore (s : State) (p c : Nat) : Prop := s.x.me.place = .ctl p c ∧ (s.ctl p c).sv.asp = 0xFF

/-- A physical address of some tile's memory (R22, R24, R25). -/
def TileAddr (s : State) (a : Word) : Prop := (∃ t, s.homeOf a.toNat = .tile t) ∧ badPa a.toNat = false ∧ a.toNat < 2 ^ 56

/-- The core's bundle is complete; its registers are as they were. -/
def CoreGoesOn (s u : State) : Prop := ∃ log, u.x = { s.x with me := s.x.me.done s.x.me.g (s.x.me.pc + 1), log := log }

/-- Posted stores of the given bytes leave the core, in order, for the homes of their addresses, and its bundle is complete. -/
def CorePosts (s u : State) (l : List (Word × List Byte)) : Prop :=
  CoreGoesOn s u ∧ SameMem s u ∧ ∃ ks : List Packet, u.unacked = s.unacked ++ ks ∧ u.mesh = s.mesh ++ ks
    ∧ ks.length = l.length ∧ ∀ (i : Nat) (k : Packet) (a : Word) (bs : List Byte), ks[i]? = some k → l[i]? = some (a, bs) →
        (∃ v : VLong, k.body = .post (.store (localOf a.toNat) bs.length v a) ∧ leBytes bs.length v.toNat = bs)
        ∧ k.src = s.here ∧ k.party = s.x.me.party ∧ (s.hasPas 0xFF = false → .tile k.dst = s.homeOf a.toNat)

/-- One posted operation leaves the core for the home of an address, and its bundle is complete. -/
def CoreSends (i : Instr) (s : State) (a : Word) (o : Post) : Prop :=
  ∃ (u : State) (k : Packet), exec i s = .next u ∧ CoreGoesOn s u ∧ SameMem s u ∧ u.unacked = s.unacked ++ [k] ∧ u.mesh = s.mesh ++ [k]
    ∧ k.body = .post o ∧ k.src = s.here ∧ k.party = s.x.me.party ∧ (s.hasPas 0xFF = false → .tile k.dst = s.homeOf a.toNat)

/-- R181, R190 to R192, R200 to R206, R418, R419: a core that addresses physically: its loads, round-trip atomics and counter reads of a
tile's memory are pinned fetches, its stores, AMOP and AMOZ posted operations; ALIGN comes before XLATE. -/
def CoreAccesses : Prop :=
  ∀ (s : State) (p c : Nat) (d a b op : RegNo) (z : BitVec 3) (w : BitVec 2) (o : BitVec 14), OnCore s p c → s.x.me.rsv = false →
    let n := clsBytes z
    let m := szBytes w
    let ea := s.ea a o n
    let g := s.g a
    let loads : List Instr := [.ld d a z o, .ldp d a z o, .ldAcq d a z o]
    let room : Prop := s.postRoom s.x.me.party s.here = true
    (ea.toNat % n ≠ 0 → ∀ i ∈ .st d a z o :: loads, exec i s = .next (s.trapC cAlign ea))
    ∧ (ea.toNat % n = 0 → 2 ^ 56 ≤ ea.toNat ∨ badPa ea.toNat = true → ∀ i ∈ .st d a z o :: loads, exec i s = .next (s.trapC cXlate ea))
    ∧ (ea.toNat % n = 0 → TileAddr s ea →
        (∀ i ∈ loads, Waits i s (.fetch ea ea.toNat (.load n (decide (z.toNat < 3)) d)))
        ∧ (room → ∃ u : State, exec (.st d a z o) s = .next u ∧ CorePosts s u [(ea, leBytes n (s.g d).toNat)])
        ∧ (¬ room → Waits (.st d a z o) s (.acks 4)))
    ∧ (g.toNat % m = 0 → TileAddr s g →
        Waits (.amor d a b op w) s (.fetch g g.toNat (.amor op m (wd ((s.g b).toNat % 2 ^ (8 * m))) d))
        ∧ Waits (.cas d a b w) s (.fetch g g.toNat (.cas m (s.g d) (s.g b) d))
        ∧ (room → CoreSends (.amop a b op w) s g (.amo op (localOf g.toNat) m (wd ((s.g b).toNat % 2 ^ (8 * m))) g))
        ∧ (¬ room → Waits (.amop a b op w) s (.acks 4)))
    ∧ (g.toNat % 16 = 0 → TileAddr s g → room → CoreSends (.amoz a b) s g (.amoz (localOf g.toNat) (s.g b) g))
    ∧ (g.toNat % 8 = 0 → TileAddr s g → Waits (.ccwait a b) s (.fetch g g.toNat (.poll false ((s.g b).toNat % 2 ^ 48)))
        ∧ (room → ∃ u : State, exec (.ccset a b) s = .next u ∧ CorePosts s u [(g, leBytes 8 (s.g b).toNat)]))

/-- R215, R230, R367, R418, R435: what the aligned word at an offset of control space holds, under the tile field 0x1FFF for a core of
paddock p, or of a tile. -/
def ControlHolds (s : State) (p t off v : Nat) : Prop :=
  let x := s.tl t
  (t = 0x1FFF ∧ ((off < 2 ^ 20 ∧ v = memRead s.mem (sramKey p off) 8) ∨ (off = 0x100000 ∧ v = (s.pad p).share)
    ∨ (off = 0x100008 ∧ v = (s.pad p).caps) ∨ (0x100010 ≤ off ∧ v = 0)))
  ∨ (t ≠ 0x1FFF ∧
    ((s.committed = false ∧ ((0x100 ≤ off ∧ off < 0x600) ∨ (0xE00 ≤ off ∧ off < 0x1100)) ∧ off ∉ [0x230, 0x328, 0xE28, 0xF48]
        ∧ v = (s.ctr t off).toNat)
    ∨ (off = 0x1100 ∧ v = x.tstop)
    ∨ (∃ i, i < 3 ∧ ((off = 0x1108 + 8 * i ∧ v = x.stopSent.getD i 0) ∨ (off = 0x1120 + 8 * i ∧ v = x.stopRcvd.getD i 0)))
    ∨ (∃ i sid st, i < 64 ∧ x.stopSlots.find? (fun e => e.1 == i) = some (i, sid, st)
        ∧ ((off = 0x1140 + 16 * i ∧ v = sid.toNat) ∨ (off = 0x1148 + 16 * i ∧ v = st)))
    ∨ (∃ i, i < 64 ∧ (∀ e ∈ x.stopSlots, e.1 ≠ i) ∧ (off = 0x1140 + 16 * i ∨ off = 0x1148 + 16 * i) ∧ v = 0)
    ∨ (off = 0x1600 ∧ v = x.spillbase.toNat) ∨ (off = 0x1608 ∧ x.spillblk = some v) ∨ (off = 0x1610 ∧ v = x.foldbase.toNat)
    ∨ ((off < 0x100 ∨ off = 0x1138 ∨ (0x1540 ≤ off ∧ off < 0x1600) ∨ 0x1618 ≤ off) ∧ v = 0)))

/-- R9, R191, R367, R418, R419, R435: a core's loads and stores of control space: a load takes its bytes of the word at once; a store
writes SRAM, the power share within 3,000 W, SPILLBASE and FOLDBASE within their limits, and nothing else. -/
def CoreControlSpace : Prop :=
  ∀ (s : State) (p c : Nat) (d a : RegNo) (z : BitVec 3) (o : BitVec 14), OnCore s p c → p < 56 → s.x.me.rsv = false → z.toNat ≠ 7 →
    let n := clsBytes z
    let ea := s.ea a o n
    let e := ea.toNat
    let t := e / 2 ^ 29 % 2 ^ 13
    let off := e % 2 ^ 29
    e % n = 0 → e < 2 ^ 56 → badPa e = false → s.homeOf e = .control →
    (∀ v, ControlHolds s p t (off / 8 * 8) v →
      let raw := v / 2 ^ (8 * (e % 8)) % 2 ^ (8 * n)
      ∀ i ∈ [Instr.ld d a z o, .ldp d a z o, .ldAcq d a z o], ∃ u : State, exec i s = .next u
        ∧ RegSet s.x.me u.x.me d (if z.toNat < 3 then BitVec.ofInt 64 (signedOf (8 * n) raw) else wd raw)
        ∧ u = { s with free := s.free + 1, x := { s.x with me := s.x.me.done u.x.me.g (s.x.me.pc + 1) } })
    ∧ (let stores (q : State → Prop) : Prop := ∃ u : State, exec (.st d a z o) s = .next u ∧ CoreGoesOn s u ∧ q u
       let g := (s.g d).toNat
       let others := (((List.range 56).filter (· != p)).map (fun q => (s.pad q).share)).sum
       (t = 0x1FFF → off < 2 ^ 20 → s.mem.wf = true → stores (fun u => memRead u.mem (sramKey p off) n = g % 2 ^ (8 * n)
          ∧ SameMemBut s u (sramKey p off) n))
       ∧ (n = 8 → t = 0x1FFF → off = 0x100000 → stores (fun u => SameMem s u
          ∧ (u.pad p).share = (if others + g % 2 ^ 32 ≤ 3000 then g % 2 ^ 32 else (s.pad p).share)))
       ∧ (n = 8 → t ≠ 0x1FFF → off = 0x1610 → stores (fun u => SameMem s u
          ∧ (u.tl t).foldbase = (if g < 2 ^ 56 ∧ s.homeOf g = .tile t ∧ localOf g < 2 ^ 42 then s.g d else (s.tl t).foldbase)))
       ∧ (n = 8 → t ≠ 0x1FFF → off = 0x1600 → (∀ q, s.pasOfTile t = some q → (s.pas q).everOpen = false) → stores (fun u => SameMem s u
          ∧ (u.tl t).spillbase =
            (if g % 4096 = 0 ∧ g < 2 ^ 56 ∧ s.homeOf g = .tile t ∧ localOf g < 2 ^ 42 then s.g d else (s.tl t).spillbase)))
       ∧ (0x100008 ≤ off ∨ (t ≠ 0x1FFF ∧ (off < 0x1600 ∨ 0x1618 ≤ off)) → stores (fun u => u = { s with x := u.x })))

/-- R60, R418, R442: what a controller core executes, where no feature is declined: ILLEGAL is the rest. -/
def CoreInstructions : Prop :=
  ∀ (s : State) (d a b c : RegNo) (p z : BitVec 2) (cls : BitVec 3) (o : BitVec 14) (o12 : BitVec 12) (o17 : BitVec 17) (o25 : BitVec 25)
      (i8 : BitVec 8) (i7 : BitVec 7) (n4 : BitVec 4) (w : W32), s.x.me.isCtl = true → s.committed = false →
    (∀ i ∈ [Instr.nopC, .csrr d i8, .csrw a i8, .time d, .trap i8, .jr a, .ret, .homeof d a, .lea d a o17, .br o25, .call o25,
        .brc a b cls o, .cmps a b cls p, .cmpsi a cls p o12, .brl d a o17, .ld d a cls o, .st d a cls o, .ldp d a cls o, .ldAcq d a cls o,
        .stRel d a cls p o12, .amop a b c z, .amoz a b, .amor d a b c z, .cas d a b z, .ccwait a b, .ccset a b, .fence p, .discard a b,
        .pref a, .mint a b, .tlbinv a b, .gstop a, .ctxld a b, .ctxst a b, .sret, .resume, .kill, .hold, .go, .drain, .reset, .create,
        .destroy, .qctl, .post, .shrink, .lost, .liw d w, .lih d w, .brLong w, .calll w, .leaLong d a w, .ccwaitLong a w],
      s.permits false i = true)
    ∧ (∀ i ∈ [Instr.follow a, .leave, .udecline, .uret, .mig a, .pin, .unpin, .ldfe d a o, .ldff d a o, .stef d a o, .stff d a o,
        .fempty a o, .ffull a o, .lrw d a o, .sch d a o, .relr a o, .get a b p, .put a b p, .spawn d a, .spawnw d a, .join a, .dlset a,
        .endStrand, .yield, .sliceinfo d i8, .gbar i8, .garrive i8, .gwait i8, .vldV d a o, .vldW d a o, .vstV d a o, .vstW d a o,
        .vmodeShort, .vmodeLong, .vclr, .vsync, .vloop a b, .vloopLong n4 w, .sbind d a, .sfree d, .badd a b p, .baxpy a b p, .bscale a b p,
        .bmax a b p, .bexps a b p, .bsum a b p, .bfill a b p, .cpy a b p, .cpys d a p, .cpystat d i7, .mxldb a b p, .mxrun a b p,
        .mxdrain a b p, .mxwait a b, .mxstat d i7, .mxsend a b p, .scset a, .scinv a, .scstat d i7, .selopen a, .selpush a b, .selemit a b,
        .selreset, .fpush a, .fpushRel a, .fpop d a, .fdone, .ffloor d, .fstat d i7, .msend a b, .msendh a b, .mpost a, .mwait d a,
        .mprobe d a, .mcancel a, .hend, .wake a, .haltt a, .insp a b], s.permits false i = false)
    ∧ (∀ i ∈ [Instr.nopA, .add d a b, .mul d a b, .div d a b, .bext d a 1 1, .sel d a b c, .movi d 1, .fadd d a b cls cls, .fcvt d a cls cls cls
        true], s.permits true i = true)
    ∧ (∀ (l : Bool), ∀ i ∈ [Instr.vadd l d a b cls cls l, .vcmp l d a b cls cls l cls, .vext l d a b cls cls, .vredAdd l d a cls cls,
        .vdotIp l d a b cls cls l, .vcvt l d a b cls l c, .vlog2 l d a cls cls], s.permits true i = false)

/-- The C slot has read the pieces of a range: their data, noted from key i on, are bs. -/
def PiecesRead (s : State) : List (Word × Nat) → Nat → List Byte → Prop
  | [], _, bs => bs = []
  | (_, n) :: r, i, bs => ∃ v rest, s.noted i = some v ∧ v < 2 ^ (8 * n) ∧ PiecesRead s r (i + 1) rest ∧ bs = leBytes n v ++ rest

/-- What the C slot has noted of the physical addresses of pieces, from key 16 on, is what a core that addresses physically finds. -/
def PlacesNoted (s : State) (l : List (Word × Nat)) : Prop :=
  ∀ (i : Nat) (x : Word × Nat), l[i]? = some x → s.noted (16 + i) = none ∨ s.noted (16 + i) = some x.1.toNat

/-- The pieces of a block of bytes. -/
def BytePieces : List (Word × Nat) → List Byte → List (Word × List Byte)
  | [], _ => []
  | (a, n) :: r, bs => (a, bs.take n) :: BytePieces r (bs.drop n)

/-- R429: the generation that MINT writes for a template: 0 for the controllers; the tile's; the slot's occupancy number. -/
def MintsGen (s : State) (em : List Byte) (g : Nat) : Prop :=
  let q := s.pas (emPas em)
  let row := bfield em 2 2
  let col := bfield em 0 2
  (emSel em = 0xFE ∧ g = 0)
  ∨ (emSel em = 0xFF ∧ q.binding row col ≠ none ∧ g = (tget q.regen (row * 65536 + col) 0).toNat)
  ∨ (emSel em < 64 ∧ emSel em % 16 ≤ 13 ∧ ∃ t, q.binding row col = some t ∧ g = (tget (s.tl t).occ (emSel em) 0).toNat)

/-- R428, R429: MINT reads a template, gives it its generation and its seal, and stores the earmark. A core stands on no tile, so that it
fetches the template (R190, R418) and goes on when it has come. -/
def Mints : Prop :=
  ∀ (s : State) (p c : Nat) (a b : RegNo), OnCore s p c →
    let t := s.g a
    let d := s.g b
    (t.toNat % 16 ≠ 0 → exec (.mint a b) s = .next (s.trapC cAlign t))
    ∧ (t.toNat % 16 = 0 → d.toNat % 16 ≠ 0 → exec (.mint a b) s = .next (s.trapC cAlign d))
    ∧ (t.toNat % 16 = 0 → d.toNat % 16 = 0 →
        (s.noted 5 = none → 2 ^ 56 ≤ t.toNat ∨ badPa t.toNat = true → exec (.mint a b) s = .next (s.trapC cXlate t))
        ∧ (s.noted 5 = none → TileAddr s t → s.x.me.rsv = false → Waits (.mint a b) s (.fetch t t.toNat (.block 16 5)))
        ∧ (∀ cause, s.noted 5 = some (2 ^ 128 + cause) → exec (.mint a b) s = .next (s.trapC cause t))
        ∧ (∀ v, s.noted 5 = some v → v < 2 ^ 128 →
            let em := leBytes 16 v
            let q := s.pas (emPas em)
            (s.hasPas (emPas em) = false ∨ emReserved em = true ∨ (∀ g, ¬ MintsGen s em g) →
              exec (.mint a b) s = .next (s.trapC cProt t))
            ∧ (∀ g, s.hasPas (emPas em) = true → emReserved em = false → MintsGen s em g →
                (2 ^ 56 ≤ d.toNat ∨ badPa d.toNat = true → exec (.mint a b) s = .next (s.trapC cXlate d))
                ∧ (TileAddr s d →
                    (s.postRoom s.x.me.party s.here = true → ∃ u : State, exec (.mint a b) s = .next u
                      ∧ (let e := em.take 6 ++ leBytes 2 g ++ (em.drop 8).take 2
                         CorePosts s u [(d, e ++ q.sealOf e)]))
                    ∧ (s.postRoom s.x.me.party s.here = false → Waits (.mint a b) s (.acks 4))))))

/-- A strand that CTXLD and CTXST may name: it stands stopped, or its pasture does (R430). -/
def StandsStopped (s : State) (sid : Word) (st : Strand) : Prop :=
  s.strandOf sid = some st ∧ (st.stop ≠ none ∨ (s.pas st.pasture).st = .stopped)

/-- R431: the context of a strand after CTXST has taken the 256 bytes bs. -/
def ContextTaken (st st' : Strand) (bs : List Byte) : Prop :=
  let w (o n : Nat) : Nat := bfield bs o n
  (∀ r : RegNo, r ≠ 0 → st'.gr r = wd (w (8 + 8 * r.toNat) 8)) ∧ st'.gr 0 = 0
    ∧ st'.pc = BitVec.ofNat 53 (w 0x88 8) ∧ st'.vt = wd (w 0x98 8) ∧ st'.sca.toNat = w 0xA4 4 ∧ st'.scb.toNat = w 0xA8 4
    ∧ st'.deadline.toNat = w 0xB0 5 ∧ st'.budget.toNat = w 0xB5 3 ∧ st'.grp.toNat = w 0xB8 4
    ∧ st'.utc = wd (w 0xC0 8 % 2 ^ 10) ∧ st'.utpc = wd (w 0xC8 8) ∧ st'.utval = wd (w 0xD0 8)
    ∧ (∀ i, i < 64 → st'.sw.getLsbD i =
        (if 10 ≤ i ∧ i ≤ 12 ∧ 5 ≤ w 0x90 8 / 2 ^ 10 % 8 then false
         else if i < 14 ∨ i = 18 ∨ i = 21 then (wd (w 0x90 8)).getLsbD i else st.sw.getLsbD i))
    ∧ st'.edDue = (st.edDue || decide (st'.deadline ≠ st.deadline))
    ∧ st'.place = st.place ∧ st'.wait = st.wait ∧ st'.stop = st.stop ∧ st'.v = st.v ∧ st'.slice = st.slice ∧ st'.sid = st.sid

/-- R430, R431: CTXLD stores the image of a stopped strand; CTXST replaces its context. A strand that is not stopped is PROT. A range
that crosses a page of 64 KiB is two pieces, which is the model's reading of R431 (log 77). -/
def ContextsMove : Prop :=
  ∀ (s : State) (p c : Nat) (a b : RegNo), OnCore s p c →
    let d := s.g a
    let sid := s.g b
    let l := pageParts d 256
    (d.toNat % 64 ≠ 0 → exec (.ctxld a b) s = .next (s.trapC cAlign d) ∧ exec (.ctxst a b) s = .next (s.trapC cAlign d))
    ∧ (d.toNat % 64 = 0 → (∀ st, ¬ StandsStopped s sid st) →
        exec (.ctxld a b) s = .next (s.trapC cProt sid) ∧ exec (.ctxst a b) s = .next (s.trapC cProt sid))
    ∧ (∀ st, d.toNat % 64 = 0 → StandsStopped s sid st → PlacesNoted s l →
        (s.noted 16 = none → 2 ^ 56 ≤ d.toNat ∨ badPa d.toNat = true →
          exec (.ctxld a b) s = .next (s.trapC cXlate d) ∧ exec (.ctxst a b) s = .next (s.trapC cXlate d))
        ∧ ((∀ x ∈ l, TileAddr s x.1) →
            ((s.outstanding s.x.me.party).length < 31 → (s.unacked.filter (·.src == s.here)).length < 511 →
              ∃ u : State, exec (.ctxld a b) s = .next u ∧ CorePosts s u (BytePieces l st.foldImage))
            ∧ (s.x.me.rsv = false → s.noted 112 = none → ∀ x, l[0]? = some x → ∃ log,
                exec (.ctxst a b) s = .next ((s.noting log).park (.fetch d d.toNat (.block x.2 112))))
            ∧ (∀ bs, PiecesRead s l 112 bs → ∃ (u : State) (st' : Strand), exec (.ctxst a b) s = .next u ∧ CoreGoesOn s u ∧ SameMem s u
                ∧ u.strandOf sid = some st' ∧ ContextTaken st st' bs)))

/-- An entry of a TLB maps a byte of a range of a pasture; a range of 0 bytes names all of it. -/
def MapsByte (e : TlbEntry) (n lo len : Nat) : Prop := e.asp = n ∧ (len = 0 ∨ (e.base < lo + len ∧ lo < e.base + 2 ^ e.bits))

/-- The access for which a waiting C slot stands at its home (R178, R196, R197, R205, R405, R408): its virtual address and its rights. -/
def AwaitedAccess (st : Strand) (va : Word) (need : Need) : Prop :=
  ∃ q, st.pend = some q ∧
    let r (a : RegNo) : Word := ({ st with g := q.g } : Strand).gr a
    let is (i : Instr) : Prop := q.w0.toNat < 2 ^ 31 ∧ decodeC q.w0.toNat = .ok i
    (∃ d a i, (is (.ldfe d a i) ∨ is (.stef d a i) ∨ is (.lrw d a i)) ∧ va = r a + sx i * 8 ∧ need = needRW)
      ∨ (∃ d a i, is (.ldff d a i) ∧ va = r a + sx i * 8 ∧ need = needR)
      ∨ (∃ a b, is (.amoz a b) ∧ va = r a ∧ need = needRW)
      ∨ (∃ a b, (is (.ccwait a b) ∨ is (.mxwait a b)) ∧ va = r a ∧ need = needR)
      ∨ (∃ a, is (.join a) ∧ va = r a ∧ need = needR)
      ∨ (∃ d a, is (.mwait d a) ∧ va = r a + 24 ∧ need = needR)
      ∨ (∃ a v, 2 ^ 31 ≤ q.w0.toNat ∧ decodeLong q.w0.toNat q.w1.toNat = .ok (.ccwaitLong a v) ∧ va = r a ∧ need = needR)

/-- The word at which a strand waits for what others do. -/
def WaitsAt (st : Strand) (pa : Nat) : Prop :=
  st.wait = some (.fullEmpty pa) ∨ st.wait = some (.resv pa) ∨ (∃ z n, st.wait = some (.counter pa z n))
    ∨ (∃ d, st.wait = some (.mwait pa d)) ∨ (∃ a b, st.wait = some (.handlerRoom a pa b))

/-- Translated again, its address still names that word, with the rights it needs. -/
def KeepsPlace (s : State) (st : Strand) (pa : Nat) : Prop :=
  ∃ va need e x, AwaitedAccess st va need ∧ s.walk st.pasture (paddockOf st.tile) va.toNat = .ok e
    ∧ s.checkEntry st.pasture e va.toNat need = .inl x ∧ localOf x = pa ∧ s.homeOf x = .tile st.tile

/-- A strand of pasture n loses its place. -/
def LosesPlace (s : State) (n : Nat) (st : Strand) : Prop := st.pasture = n ∧ ∃ pa, WaitsAt st pa ∧ ¬ KeepsPlace s st pa

/-- What a strand of the pasture keeps when its translations are dropped: everything, but that an access which it has not made yet
is made from its start again, and what a reply brings of a bundle, which was read before, is not used (R179, R180). One that stands at a
word keeps its place there where its address still leads to it, the model's reading of an access in progress (log 78). -/
def TranslatesAgain (s : State) (st st' : Strand) : Prop :=
  { st' with wait := st.wait, pend := st.pend } = st
    ∧ (st.pend = none → st'.pend = none)
    ∧ (∀ q, st.pend = some q → ∃ q', st'.pend = some q' ∧ { q' with log := q.log } = q ∧ ∀ x ∈ q'.log, x ∈ q.log)
    ∧ ((∀ pa, ¬ WaitsAt st pa) → (∀ a pa r, st.wait ≠ some (.fetch a pa r)) → (∀ a pa r, st.wait ≠ some (.reply a pa r)) →
        (∀ a pa z t, st.wait ≠ some (.poll a pa z t)) → (∀ a b, st.wait ≠ some (.pool a b)) → st'.wait = st.wait)
    ∧ ((∃ a pa r, st.wait = some (.fetch a pa r)) ∨ (∃ a pa z t, st.wait = some (.poll a pa z t))
        ∨ (∃ a b, st.wait = some (.pool a b)) → st'.wait = none)
    ∧ (∀ a pa, st.wait = some (.reply a pa .code) → ∃ n k, st'.wait = some (.reply a pa (.block n k)))
    ∧ (∀ a pa r, st.wait = some (.reply a pa r) → ∃ r', st'.wait = some (.reply a pa r'))
    ∧ (∀ pa, WaitsAt st pa → (KeepsPlace s st pa → st'.wait = st.wait) ∧ (¬ KeepsPlace s st pa → st'.wait = none))

/-- R179, R180, R419, R436: TLBINV waits as FENCE.D; every tile's TLB drops the entries of the pasture that map a byte of the range, and a
controller's all it has; walks and bundle fetches of the pasture begin again; a strand that loses its place at a word leaves the tile's
lists; and it completes when no access that was translated with one of the entries is left. How far an access must have come to be
performed and not translated again, and when TLBINV completes, is the model's reading (logs 53, 78). -/
def Invalidates : Prop :=
  ∀ (s : State) (p c n : Nat) (a b : RegNo), s.x.me.place = .ctl p c → (s.ctl p c).sv.asp.toNat = n →
    let lo := (s.g a).toNat
    let len := (s.g b).toNat
    let lists := s.mesh ++ s.unacked ++ s.waiting ++ s.dropped ++ s.resend
    (56 ≤ n ∨ s.hasPas n = false → exec (.tlbinv a b) s = .next (s.trapC cProt (zx s.sv.asp)))
    ∧ (n < 56 → s.hasPas n = true →
        (lo % 65536 ≠ 0 ∨ len % 65536 ≠ 0 → exec (.tlbinv a b) s = .next (s.trapC cAlign (s.g a)))
        ∧ (lo % 65536 = 0 → len % 65536 = 0 →
            (s.drained 2 = false → Waits (.tlbinv a b) s (.acks 2))
            ∧ (s.drained 2 = true → s.x.me.fail = none → s.noted 100 = none → ∃ u : State, exec (.tlbinv a b) s = .next u
              ∧ (∀ t e, e ∈ (u.tl t).tlb ↔ e ∈ (s.tl t).tlb ∧ ¬ MapsByte e n lo len) ∧ (∀ q d, (u.ctl q d).sv.tlb = [])
              ∧ SameMem s u ∧ u.mesh = s.mesh ∧ u.unacked = s.unacked ∧ u.cmds = s.cmds ∧ u.pastures = s.pastures
              ∧ u.strands.length = s.strands.length
              ∧ (∀ (i : Nat) (st st' : Strand), s.strands[i]? = some st → u.strands[i]? = some st' →
                  (st.pasture ≠ n → st' = st) ∧ (st.pasture = n → TranslatesAgain s st st'))
              ∧ (∀ t, s.pasOfTile t = some n → (u.tl t).fbuf = [] ∧ (u.tl t).walkRuns = [] ∧ (u.tl t).walks = (s.tl t).walks
                  ∧ (∀ w, w ∈ (u.tl t).fe ↔ w ∈ (s.tl t).fe ∧ ∀ st ∈ s.strands, st.sid = w.sid → ¬ LosesPlace s n st)
                  ∧ (∀ w, w ∈ (u.tl t).resvQ ↔ w ∈ (s.tl t).resvQ ∧ ∀ st ∈ s.strands, st.sid = w.1 → ¬ LosesPlace s n st))
              ∧ ((∀ k ∈ lists, k.pasture ≠ n) → (∀ d ∈ s.cmds, d.pasture ≠ n) →
                  (∀ x ∈ s.tiles, ∀ y ∈ x.2.long, y.2.q = []) → CoreGoesOn s u)
              ∧ ((∀ x ∈ s.tiles, ∀ e ∈ x.2.tlb, ¬ MapsByte e n lo len) → (∀ x ∈ s.ctls, ∀ e ∈ x.2.sv.tlb, ¬ MapsByte e n lo len) →
                  CoreGoesOn s u)
              ∧ (∀ t e k pa m v ad, e ∈ (s.tl t).tlb → MapsByte e n lo len → k ∈ lists → k.pasture = n → k.id < s.ids →
                  k.body = .post (.store pa m v ad) → pa < localOf e.pa + 2 ^ e.bits → localOf e.pa < pa + m →
                  u.x.me.wait = some (.acks 2) ∧ u.x.me.pc = s.x.me.pc))
            ∧ (∀ v, s.drained 2 = true → s.x.me.fail = none → s.noted 100 = some v → s.noted 101 = some 0 →
                exec (.tlbinv a b) s = .next { s with x := { s.x with me := s.x.me.done s.x.me.g (s.x.me.pc + 1) } })))

/-- R434, R435: GSTOP stops a pasture; every tile of it keeps its stop record: the time, the packets it has sent and received, and of
each slot the SID, the PC and how the strand stands; a follower leaves its leader (R145). That PARKED is any wait, and that SENT and RCVD
are the counts of that instant, is the model's reading (log 45). -/
def GangStops : Prop :=
  ∀ (s : State) (a : RegNo), s.x.me.isCtl = true →
    let n := (s.g a).toNat
    (56 ≤ n ∨ s.hasPas n = false → exec (.gstop a) s = .next (s.trapFree cProt))
    ∧ (n < 56 → s.hasPas n = true →
        ((s.pas n).st ≠ .running → Goes (.gstop a) s (s.x.me.pc + 1))
        ∧ ((s.pas n).st = .running → ∃ u : State, exec (.gstop a) s = .next u ∧ CoreGoesOn s u ∧ SameMem s u
          ∧ (u.pas n).st = .stopped ∧ (∀ m, m ≠ n → u.pas m = s.pas m)
          ∧ (∀ t ∈ s.pasTiles n, (u.tl t).tstop = s.pasTime n t ∧ (u.tl t).stopSent = (s.tl t).sent
            ∧ (u.tl t).stopRcvd = (s.tl t).rcvd
            ∧ (∀ st ∈ s.strands, ∀ core m, st.place = .slot t core m → (16 * core + m, st.sid,
                (if st.stop ≠ none then 3 else if st.wait ≠ none then 2 else 1) * 2 ^ 62 + st.pc.toNat) ∈ (u.tl t).stopSlots))
          ∧ u.strands.map (fun st => (st.sid, st.g, st.pc, st.place, st.stop)) = s.strands.map (fun st => (st.sid, st.g, st.pc, st.place, st.stop))
          ∧ (∀ st ∈ u.strands, st.pasture = n → st.follow = none)))

end Sys2Proof

/-- R418, R419, R428 to R431, R434 to R436: what a controller core executes, its accesses and its control space, and the system
instructions. The clauses that logs 45, 53, 77 and 78 back are the model's
choices, said with them. -/
def Obligations.ControllerInstructions : Prop :=
  CoreInstructions ∧ CoreAccesses ∧ CoreControlSpace ∧ Mints ∧ ContextsMove ∧ Invalidates ∧ GangStops

namespace Sys2Proof

/-- A service of SYS ends with r in g1, and its bundle is complete (R432). -/
def Answers (s u : State) (r : Nat) : Prop :=
  RegSet s.x.me u.x.me 1 (wd r) ∧ ∃ log, u.x = { s.x with me := s.x.me.done u.x.me.g (s.x.me.pc + 1), log := log }

/-- It answers r and does nothing else. -/
def Declines (i : Instr) (s : State) (r : Nat) : Prop := ∃ u : State, exec i s = .next u ∧ Answers s u r ∧ u = { s with x := u.x }

/-- R223, R416, R431: what a strand that was stopped becomes as it goes on: a DEADLINE that CTXST gave it takes effect now; an MWAIT
whose latch was set meanwhile returns 1; nothing else changes. -/
def GoesOn (s : State) (st st' : Strand) : Prop :=
  let now := s.pasTime st.pasture st.tile
  let woken : Prop := (∃ d, st.wait = some (.latch d)) ∧ st.inSlot = true ∧ 16 * st.core + st.slotNo ∈ (s.tl st.tile).latch
  (st.edDue = false → ¬ woken → st' = st)
  ∧ (st.edDue = true → st'.edDue = false ∧ st'.slice.ed =
      (if st.deadline = 0 then (st.slice.accept : Int) + (s.pas st.pasture).pcb.age else deadlineTime st.deadline now))
  ∧ (∀ d, st.wait = some (.latch d) → woken → st'.gr d = (if d = 0 then 0 else 1) ∧ st'.pc = st.pc + 1 ∧ st'.wait = none)

/-- R432: RESUME, KILL and HOLD of a strand. That a follower which is held does not leave its leader is the model's reading (log 27). -/
def StrandServices : Prop :=
  ∀ s : State, s.x.me.isCtl = true →
    let sid := s.g 1
    (s.strandOf sid = none → Declines .resume s 1 ∧ Declines .kill s 1 ∧ Declines .hold s 1)
    ∧ (∀ st, s.strandOf sid = some st →
        (st.stop = none → Declines .resume s 2)
        ∧ (st.stop ≠ none → ∃ (u : State) (st' : Strand), exec .resume s = .next u ∧ Answers s u 0 ∧ SameMem s u
          ∧ u.strandOf sid = some st' ∧
            (let r := { st with stop := none, cOnly := st.cOnly || (s.g 2).getLsbD 0 }
             ((s.pas st.pasture).st = .running → s.hasPas st.pasture = true → GoesOn s r st')
              ∧ ((s.pas st.pasture).st ≠ .running ∨ s.hasPas st.pasture = false → st' = r)))
        ∧ (st.stop ≠ none → Declines .hold s 0)
        ∧ (st.stop = none → (∀ k, st.follow = some k → k.leader ≠ sid) → ∃ u : State, exec .hold s = .next u ∧ Answers s u 0 ∧ SameMem s u
          ∧ u.strandOf sid = some { st with stop := some .held }
          ∧ (∀ f ∈ u.strands, ∀ k, f.follow = some k → k.leader ≠ sid))
        ∧ (s.strands.filter (fun x => x.sid == sid) = [st] → ∃ u : State, exec .kill s = .next u ∧ Answers s u 0
          ∧ u.strandOf sid = none))

/-- R217, R220, R224, R230, R232, R246, R301, R367, R423, R424: a control block that CREATE accepts. -/
def GoodBlock (s : State) (b : List Byte) : Prop :=
  let f (o k : Nat) : Nat := bfield b o k
  let inside (p : Nat) : Prop := f 1 1 ≤ p / 8 ∧ p / 8 < f 1 1 + f 3 1 ∧ f 2 1 ≤ p % 8 ∧ p % 8 < f 2 1 + f 4 1
  f 0 1 < 56 ∧ s.hasPas (f 0 1) = false
    ∧ f 3 1 ≠ 0 ∧ f 4 1 ≠ 0 ∧ f 1 1 + f 3 1 ≤ 7 ∧ f 2 1 + f 4 1 ≤ 8 ∧ inside (f 5 1)
    ∧ (∀ p, inside p → s.pasOfPaddock p = none ∧ (s.pad p).boot ≠ 2)
    ∧ f 6 1 < 2 ∧ 16 ≤ f 8 4 ∧ f 8 4 ≤ 262144 ∧ 1 ≤ f 0xC 1 ∧ f 0xC 1 ≤ 31 ∧ 256 ≤ f 0xD 3
    ∧ f 0x18 1 = 0 ∧ (∀ i, i < 7 → 1 ≤ f (0x19 + i) 1) ∧ (∀ i, i < 8 → f (0x20 + 8 * i) 8 < 2 ^ 40)
    ∧ 1000 ≤ f 0x60 4 ∧ f 0x60 4 ≤ 1000000000 ∧ 2 ≤ f 0x64 1 ∧ f 0x64 1 ≤ 32 ∧ f 0x65 1 < 3 ∧ 64 ≤ f 0x66 2 ∧ f 0x66 2 ≤ 1024
    ∧ f 0x68 1 ≤ 24 ∧ 1 ≤ f 0x6C 4 ∧ 1 ≤ f 0x70 2 ∧ f 0x70 2 ≤ 4096 ∧ 1000 ≤ f 0x74 4 ∧ f 0x74 4 ≤ 10000000 ∧ f 0x78 4 ≤ 1048576
    ∧ f 0x69 3 = 0 ∧ f 0x7C 4 = 0 ∧ f 0x8C 0x74 = 0 ∧ f 0x2C0 0x40 = 0
    ∧ f (0x100 + 8 * (f 3 1 * f 4 1)) (8 * (56 - f 3 1 * f 4 1)) = 0

/-- R424: what CREATE makes of a control block. The epoch is the time base of the root paddock's corner tile (log 69) and the key one of a
sequence of free values (log 12): both are the model's choices. -/
def Created (s u : State) (b : List Byte) : Prop :=
  let n := bfield b 0 1
  let f (o k : Nat) : Nat := bfield b o k
  let q := u.pas n
  let c := q.pcb
  u.hasPas n = true ∧ (∀ m, m ≠ n → u.pas m = s.pas m) ∧ u.strands = s.strands ∧ SameMem s u
    ∧ q.st = .running ∧ q.opened = 0 ∧ q.pool = 0 ∧ q.epoch = s.tileTime (corner (f 5 1)) ∧ q.rows = 12 * f 3 1
    ∧ q.cols = 12 * f 4 1 ∧ q.remap = [] ∧ q.regen = [] ∧ q.key = s.keys ∧ u.keys = s.keys + 1
    ∧ c.row = f 1 1 ∧ c.col = f 2 1 ∧ c.h = f 3 1 ∧ c.w = f 4 1 ∧ c.rootp = f 5 1 ∧ c.modeB = (f 6 1 % 2 == 1)
    ∧ c.mretry = f 7 1 ∧ c.pool = f 8 4 ∧ c.depth = f 0xC 1 ∧ c.dbud = f 0xD 3 ∧ c.age = f 0x10 4 ∧ c.margin = f 0x14 4
    ∧ (∀ i, i < 8 → c.weight.getD i 0 = f (0x18 + i) 1 ∧ c.watch.getD i 0 = f (0x20 + 8 * i) 8)
    ∧ c.mbwin = f 0x60 4 ∧ c.mign = f 0x64 1 ∧ c.wpol = f 0x65 1 ∧ c.migw = f 0x66 2 ∧ c.wshift = f 0x68 1
    ∧ c.delta = f 0x6C 4 ∧ c.stealmin = f 0x70 2 ∧ c.spillblk = f 0x72 2 ∧ c.reclaim = f 0x74 4 ∧ c.foldq = f 0x78 4
    ∧ c.evq = f 0x80 8 ∧ c.evqn = f 0x88 4
    ∧ (∀ j, j < f 3 1 * f 4 1 → c.roots.getD j 0 = f (0x100 + 8 * j) 8)

/-- R424, R432, R443: CREATE. The core fetches the block in pieces of 64 bytes. -/
def CreateService : Prop :=
  ∀ s : State, s.x.me.isCtl = true →
    let a := s.g 1
    (s.committed = false → Declines .create s 2)
    ∧ (s.committed = true → a.toNat % 64 ≠ 0 → Declines .create s 3)
    ∧ (s.committed = true → a.toNat % 64 = 0 →
        (∀ p c, OnCore s p c → s.noted 112 = none →
          (2 ^ 56 ≤ a.toNat ∨ badPa a.toNat = true → Declines .create s 3)
          ∧ (TileAddr s a → s.x.me.rsv = false → Waits .create s (.fetch a a.toNat (.block 64 112))))
        ∧ (∀ v, s.noted 112 = some v → 2 ^ 512 ≤ v → Declines .create s 3)
        ∧ (∀ v : Nat → Nat, (∀ i, i < 12 → s.noted (112 + i) = some (v i) ∧ v i < 2 ^ 512) →
            let b := (List.range 12).flatMap (fun i => leBytes 64 (v i))
            (¬ GoodBlock s b → Declines .create s 3)
            ∧ (GoodBlock s b → ∃ u : State, exec .create s = .next u ∧ Answers s u 0 ∧ Created s u b)))

/-- R219, R424 to R427, R432, R443: the services that act on a pasture, each in the state that it needs. What DRAIN keeps (the packets of
controllers, HOME of a group) and finishes (a store performed in part) is the model's reading (log 52). -/
def PastureServices : Prop :=
  (∀ s : State, s.x.me.isCtl = true → (56 ≤ (s.g 1).toNat ∨ s.hasPas (s.g 1).toNat = false) →
      ∀ i ∈ [Instr.go, .drain, .reset, .destroy, .qctl, .post, .shrink], Declines i s 1)
  ∧ (∀ (s : State) (p : Nat), s.x.me.isCtl = true → (s.g 1).toNat = p → p < 56 → s.hasPas p = true →
      let q := s.pas p
      let others (u : State) : Prop := ∀ m, m ≠ p → u.pas m = s.pas m
      (q.st ≠ .stopped → Declines .go s 2 ∧ Declines .drain s 2)
      ∧ (q.st ≠ .drained → Declines .reset s 2 ∧ Declines .destroy s 2)
      ∧ (q.st = .drained → Declines .qctl s 2)
      -- GO: what befell the strands while they were stopped takes effect, and detection goes on where it was frozen (R425)
      ∧ (q.st = .stopped → ∃ u : State, exec .go s = .next u ∧ Answers s u 0 ∧ (u.pas p).st = .running ∧ others u ∧ SameMem s u
        ∧ (u.pas p).winStart = q.winStart + (s.now - q.stopAt) ∧ (u.pas p).fires = q.fires ∧ (u.pas p).bundles = q.bundles
        ∧ (u.pas p).flits = q.flits
        ∧ (s.strands.Pairwise (fun x y => x.sid ≠ y.sid ∧ x.place ≠ y.place) → ∀ st ∈ s.strands,
            (st.pasture ≠ p → u.strandOf st.sid = some st)
            ∧ (st.pasture = p → st.stop ≠ none → u.strandOf st.sid = some st)
            ∧ (st.pasture = p → st.stop = none → ∃ st', u.strandOf st.sid = some st' ∧ GoesOn s st st')))
      -- DRAIN: a store that has been performed in part is performed whole (R98); of the groups HOME alone stands
      ∧ (q.st = .stopped → ∃ u : State, exec .drain s = .next u ∧ Answers s u 0 ∧ (u.pas p).st = .drained ∧ (u.pas p).opened = 0
        ∧ (u.pas p).pool = 0 ∧ (u.pas p).classQ = [] ∧ (u.pas p).overflow = [] ∧ others u
        ∧ (∀ n g, (n, g) ∈ (u.pas p).groups ↔ g = { home := g.home } ∧ g.home ≠ none ∧ ∃ g0, (n, g0) ∈ q.groups ∧ g0.home = g.home)
        ∧ (∀ st ∈ u.strands, st.pasture ≠ p) ∧ u.cmds = s.cmds.filter (·.pasture != p)
        ∧ (∀ t ∈ s.pasTiles p, (u.tl t).readyQ = [] ∧ (u.tl t).arrivals = [] ∧ (u.tl t).fe = [] ∧ (u.tl t).recvs = []
          ∧ (u.flk t).recs = [])
        ∧ (∀ k ∈ u.mesh ++ u.unacked ++ u.waiting ++ u.dropped ++ u.resend, k.pasture = p → ∃ r c, k.party = .ctl r c)
        ∧ ((∀ k ∈ s.mesh, k.pasture = p → k.log = []) → SameMem s u ∧ u.strands = s.strands.filter (·.pasture != p)))
      ∧ (q.st = .drained → ∃ u : State, exec .reset s = .next u ∧ Answers s u 0 ∧ (u.pas p).st = .running ∧ others u
        ∧ (∀ b, (isDram b || isSpad b) = true →
            memGet u.mem b = (if s.resetKeeps p (s.spared p) b then memGet s.mem b else 0)
            ∧ (b % 8 = 0 → u.isFull b = (!s.resetKeeps p (s.spared p) b || s.isFull b)))
        ∧ (∀ t ∈ s.pasTiles p, (u.tl t).ctrs = [] ∧ (u.tl t).images = [] ∧ (u.tl t).sc = [] ∧ u.flk t = {} ∧ (u.tl t).latch = []
          ∧ (u.tl t).sent = [0, 0, 0] ∧ (u.tl t).rcvd = [0, 0, 0]))
      ∧ (q.st = .drained → ∃ u : State, exec .destroy s = .next u ∧ Answers s u 0 ∧ u.hasPas p = false ∧ others u ∧ SameMem s u)
      ∧ (q.st ≠ .drained → ∃ u : State, exec .qctl s = .next u ∧ Answers s u 0 ∧ others u ∧ SameMem s u
        ∧ (∀ i, i < 8 → (u.pas p).opened.getLsbD i =
            (if (s.g 2).getLsbD i then (s.g 3).getLsbD 0 else q.opened.getLsbD i)))
      ∧ ((s.g 2).toNat % 32 ≠ 0 → Declines .post s 3)
      ∧ ((s.g 2).toNat % 32 = 0 →
          (∀ r c, OnCore s r c → s.noted 112 = none →
            (2 ^ 56 ≤ (s.g 2).toNat ∨ badPa (s.g 2).toNat = true → Declines .post s 3)
            ∧ (TileAddr s (s.g 2) → s.x.me.rsv = false → Waits .post s (.fetch (s.g 2) (s.g 2).toNat (.block 32 112))))
          ∧ (∀ v, s.noted 112 = some v →
              (2 ^ 256 ≤ v → Declines .post s 3)
              ∧ (v < 2 ^ 256 → ∃ u : State, exec .post s = .next u ∧ Answers s u 0
                ∧ u = { (s.postRecord p (leBytes 32 v)) with x := u.x }))))

/-- R438: SHRINK stops a running pasture, waits for the line to fall quiet, retires it where every tile of it has a replacement, and ends
once no access with an old translation is left; the pasture is then in the state it was in. The codes 1 and 3, and the waits of the core, are
the model's reading (log 51). -/
def LineRetires : Prop :=
  ∀ (s : State) (p t : Nat), s.x.me.isCtl = true → (s.g 1).toNat = p → p < 56 → s.hasPas p = true → (s.g 2).toNat = t →
    let q := s.pas p
    (∀ r c, s.noted 103 = none → q.logical t = some (r, c) → (s.g 3).toNat ≤ 2 →
      ∀ row : Bool, s.g 3 = (if row then 1 else 2) →
        let i := if row then r else c
        let line := q.line row i
        s.lineQuiet line = false →
        (q.st = .running → s.x.src.wait = none → exec .shrink s = .next ((s.gangStop p).park (.shrink true)))
        ∧ (q.st ≠ .running → s.x.src.wait = none → Waits .shrink s (.shrink false))
        ∧ (∀ was, q.st ≠ .running → s.x.src.wait = some (.shrink was) → Waits .shrink s (.shrink was)))
    ∧ (s.noted 103 = none →
        (q.logical t = none → Declines .shrink s 1)
        ∧ (∀ r c, q.logical t = some (r, c) → 2 < (s.g 3).toNat → Declines .shrink s 3))
    ∧ (∀ r c, s.noted 103 = none → s.noted 100 = none → q.st ≠ .running → s.x.src.wait = none → q.logical t = some (r, c) →
        ∀ row : Bool, s.g 3 = (if row then 1 else 2) →
          let i := if row then r else c
          let line := q.line row i
          let plan := s.planLine p (s.leaves p) (s.tables p) line (q.fwd.map (·.2)) s.free line
          s.lineQuiet line = true →
          (plan = none → ∃ u : State, exec .shrink s = .next u ∧ Answers s u 4 ∧ (u.pas p).rows = q.rows
            ∧ (u.pas p).cols = q.cols ∧ (u.pas p).remap = q.remap ∧ u.strands = s.strands)
          ∧ (∀ pl : Plan, plan = some pl → (pl.forwards q.fwd).length ≤ 256 → ∃ u : State, exec .shrink s = .next u
            ∧ (u.pas p).rows = (if row then q.rows - 1 else q.rows)
            ∧ (u.pas p).cols = (if row then q.cols else q.cols - 1) ∧ (u.pas p).st = q.st
            ∧ (u.pas p).retired = q.retired ++ line
            ∧ (Answers s u 0 ∨ (u.x.me.wait = some (.shrink false) ∧ u.x.me.pc = s.x.me.pc))
            ∧ ((∀ k ∈ s.mesh ++ s.unacked ++ s.waiting ++ s.dropped ++ s.resend, k.pasture ≠ p) → (∀ d ∈ s.cmds, d.pasture ≠ p) →
                (∀ x ∈ s.tiles, ∀ y ∈ x.2.long, y.2.q = []) → (∀ st ∈ s.strands, st.pasture ≠ p) → Answers s u 0)))
    ∧ (∀ was v w, s.noted 103 = some v → s.noted 100 = some w → s.noted 101 = some 0 → s.x.src.wait = some (.shrink was) →
        ∃ u : State, exec .shrink s = .next u ∧ Answers s u 0
          ∧ (u.pas p).st = (if was = true ∧ q.st = .stopped then .running else q.st))

/-- R179, R439: LOST and a missed heartbeat declare a tile failed; LOST ends once no access with an old translation is left. The codes are
the model's reading (log 51). -/
def TilesLost : Prop :=
  (∀ s : State, s.x.me.isCtl = true →
      let t := (s.g 1).toNat
      (8064 ≤ t → Declines .lost s 1)
      ∧ (t < 8064 → s.noted 100 = none → (s.tl t).failed = true → Declines .lost s 2)
      ∧ (t < 8064 → s.noted 100 = none → (s.tl t).failed = false → ∃ u : State, exec .lost s = .next u ∧ (u.tl t).failed = true
        ∧ (s.pasOfTile t ≠ none → (u.tl t).readyQ = [] ∧ (u.tl t).arrivals = [])
        ∧ (s.pasOfTile t = none → Answers s u 0)
        ∧ (Answers s u 0 ∨ (u.x.me.wait = some (.acks 2) ∧ u.x.me.pc = s.x.me.pc))
        ∧ (∀ p, s.pasOfTile t = some p →
            (∀ k ∈ s.mesh ++ s.unacked ++ s.waiting ++ s.dropped ++ s.resend, k.pasture ≠ p) → (∀ d ∈ s.cmds, d.pasture ≠ p) →
            (∀ x ∈ s.tiles, ∀ y ∈ x.2.long, y.2.q = []) → (∀ st ∈ s.strands, st.pasture ≠ p) → Answers s u 0))
      ∧ (∀ v, t < 8064 → s.noted 100 = some v → s.noted 101 = some 0 → s.pasOfTile t ≠ none → Declines .lost s 0))
  ∧ (∀ s : State,
      let t := s.inp.k
      (8064 ≤ t ∨ (s.tl t).failed = true → exec .heartbeatMiss s = .next s)
      ∧ (t < 8064 → (s.tl t).failed = false → ∃ u : State, exec .heartbeatMiss s = .next u ∧ (u.tl t).failed = true
        ∧ (s.pasOfTile t = none → SameMem s u ∧ u.strands = s.strands)))

/-- R421: a core takes its own pending fault, or the event at the head of its paddock's queue: the values go into its supervisor
registers, INH becomes 1, and PC the handler's address. With INH 1 it takes none. SV_SID 0, SV_SPC and SV_PAST 0xFF of a core's own fault
are the model's choice (log 53). -/
def SupervisorEvents : Prop :=
  ∀ s : State,
    let p := s.inp.k
    let c := s.inp.l
    let k := s.ctl p c
    p < 56 → c < 2 →
    let enters (u : State) (cause sid spc val : Word) (past : Nat) : Prop :=
      (u.ctl p c).ctx = { k.ctx with pc := BitVec.ofNat 53 (k.sv.vec.toNat / 8), wait := none, cOnly := false, pend := none }
        ∧ (u.ctl p c).sv = { k.sv with epc := wd (8 * k.ctx.pc.toNat), cause := cause, sid := sid, spc := spc, val := val
                                       past := BitVec.ofNat 8 past, inh := true, fault := none }
        ∧ (∀ j, j ≠ 2 * p + c → tget u.ctls j (Ctl.reset 0 0) = tget s.ctls j (Ctl.reset 0 0)) ∧ SameMem s u
    (k.sv.inh = true → exec .supervisorEventEntry s = .next s)
    ∧ (∀ n v, k.sv.inh = false → k.sv.halted = false → k.sv.fault = some (n, v) → ∃ u : State, exec .supervisorEventEntry s = .next u
        ∧ enters u (wd n) 0 (wd (8 * k.ctx.pc.toNat)) v 0xFF ∧ u.paddocks = s.paddocks)
    ∧ (∀ e r, k.sv.fault = none → k.sv.inh = false → k.sv.halted = false → (s.pad p).boot % 2 = 1 → k.ctx.pend = none →
        (s.pad p).svq = e :: r → (c = 0 ∨ (s.ctl p 0).sv.inh = true) → ∃ u : State, exec .supervisorEventEntry s = .next u
          ∧ enters u e.cause e.sid e.spc e.val e.past ∧ (u.pad p).svq = r)

end Sys2Proof

/-- R219, R421, R424 to R427, R432, R438, R439, R443: the services of SYS, and the entry into supervisor events. The clauses that logs 12, 27, 51,
52, 53 and 69 back are the model's choices, said with them. -/
def Obligations.SystemServices : Prop := StrandServices ∧ CreateService ∧ PastureServices ∧ LineRetires ∧ TilesLost ∧ SupervisorEvents

/-! ### Power, heat, bring-up -/

namespace Sys2Proof

/-- R19, R456: the matrix plane rate of a paddock follows its draw and its heat, step by step between 1 and 8 eighths; downward steps are
counted, those of heat too, which is the model's reading (log 55); the shares together stay within 3,000 W; at 115 °C the pasture stops. -/
def PowerAndHeat : Prop :=
  ∀ s : State,
    let p := s.inp.k
    let w := s.inp.m
    let d := s.pad p
    let becomes (i : Instr) (e : Paddock) : Prop := exec i s = .next { s with paddocks := tset s.paddocks p e }
    p < 56 →
    (d.share < w → 1 < d.rate → becomes .powerSample { d with rate := d.rate - 1, caps := d.caps + 1, calm := 0 })
    ∧ (d.share < w → d.rate ≤ 1 → becomes .powerSample { d with calm := 0 })
    ∧ (w + 100 ≤ d.share → becomes .powerSample { d with calm := d.calm + 1 })
    ∧ (w ≤ d.share → d.share < w + 100 → becomes .powerSample { d with calm := 0 })
    ∧ (d.calm < 10 → exec .powerStepUp s = .next s)
    ∧ (10 ≤ d.calm → becomes .powerStepUp { d with rate := min 8 (d.rate + 1), calm := 0 })
    ∧ (let others := (((List.range 56).filter (· != p)).map (fun q => (s.pad q).share)).sum
       (others + w ≤ 3000 → becomes .powerShareWrite { d with share := w })
       ∧ (w < 2 ^ 32 → 3000 < others + w → exec .powerShareWrite s = .next s))
    ∧ (1 < d.rate → becomes .thermalStepDown { d with rate := d.rate - 1, caps := d.caps + 1 })
    ∧ (d.rate ≤ 1 → becomes .thermalStepDown d)
    ∧ becomes .thermalStepUp { d with rate := min 8 (d.rate + 1) }
    ∧ (s.pasOfPaddock p = none → exec .thermalStop s = .next s)
    ∧ (∀ q, s.pasOfPaddock p = some q → s.hasPas q = true → (s.pas q).st ≠ .drained → ∃ u : State, exec .thermalStop s = .next u
        ∧ (u.pas q).st = .stopped ∧ (∀ m, m ≠ q → u.pas m = s.pas m) ∧ u.mem = (s.post q (corner p) 0x2C noCls noWhere 0 (wd p)).mem)

/-- R453, R455: bring-up checks each paddock's firmware image against its signature, over the digest of its header and body, and the fused
version, places the body of a good one at its load offset, and leaves no pasture, strand, packet or command; DRAM and scratchpad are 0 and FULL, features are not committed.
The public key must have the fused digest, and r and s of the signature, big-endian, lie between 0 and the order of the curve's base point.
Where the header holds its fields (log 73), that the load offset counts in the SRAM of the controllers (log 4), that an absent image or
one that does not fit is rejected (log 56), and the key's form and the curve's numbers (log 13) are the model's choices. -/
def BringUp : Prop :=
  ∀ s : State, s.mem.wf = true → ∃ u : State, exec .powerOn s = .next u ∧ u.strands = [] ∧ u.pastures = [] ∧ u.cmds = [] ∧ u.mesh = []
    ∧ u.tiles = [] ∧ u.empties = [] ∧ u.bad = [] ∧ u.committed = false ∧ u.mem.wf = true
    ∧ (∀ a, a < 2 ^ 43 → memGet u.mem a = 0)
    ∧ (∀ a, isHost a = true → memGet u.mem a = memGet s.mem a)
    ∧ (∀ (p : Nat) (b : List Byte), p < 56 → s.inp.images.getD p [] = b →
        let head := b.take 64
        let n := Config.headerLength head
        let off := Config.headerOffset head
        let good : Prop := b.length = 128 + n ∧ off + n ≤ 2 ^ 20 ∧ Config.minVersion ≤ Config.headerVersion head
          ∧ signedBy (sha256 (head ++ (b.drop 64).take n)) ((b.drop (64 + n)).take 64) = true
        let r := beNat ((b.drop (64 + n)).take 32)
        let sg := beNat (((b.drop (64 + n)).take 64).drop 32)
        (good → beNat (sha256 (beBytes 64 Config.bootKey.toNat)) = Config.keyDigest.toNat ∧ 0 < r ∧ r < p256N ∧ 0 < sg ∧ sg < p256N) ∧
        (u.pad p).version = Config.headerVersion head ∧ (u.pad p).image = b ∧ (¬ good → (u.pad p).boot = 2)
        ∧ (good → (u.pad p).boot = 1
          ∧ ∀ i, i < n → memGet u.mem (2 ^ 46 + p * 2 ^ 20 + off + i) = b.getD (64 + i) 0))

end Sys2Proof

/-- R19, R453, R455, R456: power, heat and bring-up. The clauses that logs 4, 13, 55, 56 and 73 back are the model's choices, said with
them. -/
def Obligations.PowerAndBringUp : Prop := PowerAndHeat ∧ BringUp

/-! ### The host's side -/

namespace Sys2Proof

/-- R3, R5, R441 to R443, R454: features and attestation. FEAT2 is written only before COMMIT, and to offered bits; GO asks for a report,
which is written once a nonce is there, with the values at hand. The report's layout and length, with 4 bytes for a version, its signature
(log 13), and the feature words that the host never writes (log 57) are the model's choices. -/
def FeaturesAndAttestation : Prop :=
  ∀ s : State,
    let offers (i : Nat) : Prop := s.committed = false ∨ s.feat2.getLsbD i = true
    (s.committed = true ∨ s.inp.l ≠ 2 → exec .featureWordWrite s = .next s)
    ∧ (s.committed = false → s.inp.l = 2 →
        exec .featureWordWrite s = .next { s with feat2 := BitVec.ofNat 32 (s.inp.val.toNat % 2 ^ 10) })
    ∧ exec .featureCommit s = .next { s with committed := true, featctl := true }
    ∧ (offers 9 → exec .attestationStart s = .next { s with attready := false, attbusy := true, attctl := true })
    ∧ (¬ offers 9 → exec .attestationStart s = .next s)
    ∧ (s.attbusy = false ∨ s.nonced = false → exec .attestationReportDone s = .next s)
    ∧ (s.attbusy = true → s.nonced = true → ∃ (u : State) (sig : BitVec 512), exec .attestationReportDone s = .next u
        ∧ u = { s with attrep := u.attrep, attready := true, attbusy := false }
        ∧ u.attrep.drop (u.attrep.length - 64) = beBytes 64 sig.toNat ∧ u.attrep.length = 2188
        ∧ (∀ i, i < 4 → bfield u.attrep (8 * i) 8 = (s.nonce.getD i 0).toNat)
        ∧ bfield u.attrep 32 4 = 0x46380000 ∧ bfield u.attrep 40 4 = (if s.committed then s.feat2.toNat else 0x3FF)
        ∧ bfield u.attrep 48 4 = s.devnum.toNat
        ∧ (∀ p, p < 56 → bfield u.attrep (52 + p) 1 = (s.pad p).boot % 256
            ∧ bfield u.attrep (108 + 36 * p) 4 = (s.pad p).version % 2 ^ 32
            ∧ (u.attrep.drop (112 + 36 * p)).take 32 = sha256 (s.pad p).image))

/-- The TLB of a tile maps an address of a pasture, with the rights needed, to pa. -/
def TileFinds (s : State) (p t : Nat) (va : Word) (n : Need) (pa : Nat) : Prop := s.xlateAt p t va n = some (.inl pa)

/-- R103, R219, R444, R446: launches, where no host write waits. A write that is not of 64 bytes is discarded and counted; one with relaxed ordering is refused where the
window does not take it; then the pasture and class, the packet, the pool and the addresses are checked, in that order; an accepted slice
joins the class queue with its set number, and ACC rises. That the registers stand where no pasture exists, the tile that translates, and
that a launch waits in the order of its port while AFFINITY is walked for, are the model's choices (logs 58, 80). -/
def Launches : Prop :=
  ∀ s : State,
    let p := s.inp.k
    let c := s.inp.l
    let n := s.inp.m
    let bs := s.inp.bytes
    let q := s.pas p
    let ar := s.area p
    let takesRo : Prop := ar.winopt.getLsbD c = true ∧ (s.committed = false ∨ s.feat2.getLsbD 8 = true)
    let root := corner q.pcb.rootp
    let aff := wd (bfield bs 0x10 8)
    let finds (va : Word) (k : Need) (pa : Nat) : Prop := TileFinds s p root va k pa
    let refused (reason : Nat) : Prop := ∃ u : State, exec .launch s = .next u ∧ (u.area p) = { ar with lref := ar.lref + 1 }
      ∧ u.mem = (s.post p (corner q.pcb.rootp) 0x2A c n 0 (wd reason)).mem ∧ (u.pas p).pool = q.pool ∧ (u.pas p).classQ = q.classQ
    p < 56 → c < 8 → n < 256 → s.hostQ = [] →
    (bs.length ≠ 64 → exec .launch s = .next { s with areas := tset s.areas p { ar with lref := ar.lref + 1 } })
    ∧ (bs.length = 64 → s.inp.ro = true → ¬ takesRo → ∃ u : State, exec .launch s = .next u
        ∧ u.area p = { ar with roref := ar.roref + 1 } ∧ (u.pas p).pool = q.pool ∧ (u.pas p).classQ = q.classQ
        ∧ (ar.roref ≠ 0 → u = { s with areas := u.areas }))
    ∧ (bs.length = 64 → (s.inp.ro = false ∨ takesRo) →
        let ctl := bfield bs 0x38 2
        let malformed : Prop := packetBad bs = true ∨ ctl % 8 ≠ c ∨ q.pcb.depth < ctl / 8 % 32
        let join := wd (bfield bs 0x18 8)
        (s.hasPas p = false ∨ q.st = .drained ∨ q.opened.getLsbD c = false → refused 1)
        ∧ (s.hasPas p = true → q.st ≠ .drained → q.opened.getLsbD c = true →
            (malformed → refused 2)
            ∧ (¬ malformed → q.pcb.pool ≤ q.pool → refused 3)
            ∧ (¬ malformed → q.pool < q.pcb.pool →
                (2 ^ 56 ≤ aff.toNat → refused 4)
                ∧ (s.xlateAt p root aff needNone = none → (∀ w ∈ (s.tl root).unitWalks, w.1 ≠ walkPage aff) → ∃ u : State,
                    exec .launch s = .next u ∧ SameMem s u ∧ u.areas = s.areas ∧ (u.pas p).pool = q.pool ∧ (u.pas p).classQ = q.classQ
                    ∧ u.hostQ = [{ port := s.inp.val.toNat % 4, ro := s.inp.ro, launch := some (p, c, n), key := 0, bytes := bs }])
                ∧ (∀ pa, finds aff needNone pa → (∀ t, s.homeOf pa ≠ .tile t) → refused 4)
                ∧ (∀ pa h, finds aff needNone pa → s.homeOf pa = .tile h → 2 ^ 56 ≤ join.toNat → refused 4)
                ∧ (∀ pa h pj, finds aff needNone pa → s.homeOf pa = .tile h → join ≠ 0 → finds join needRW pj →
                    (∀ t, s.homeOf pj ≠ .tile t) → refused 4)
                ∧ (∀ pa h, finds aff needNone pa → s.homeOf pa = .tile h →
                    (join = 0 ∨ ∃ pj t, finds join needRW pj ∧ s.homeOf pj = .tile t) →
                    ∃ (u : State) (l : Slice), exec .launch s = .next u ∧ (u.pas p).pool = q.pool + 1
                      ∧ (u.pas p).classQ = q.classQ ++ [l] ∧ l.entry = wd (bfield bs 0 8) ∧ l.arg = wd (bfield bs 8 8)
                      ∧ l.cls = c ∧ l.set = some n ∧ l.home = h ∧ u.area p = ar
                      ∧ tget (u.pas p).setstat (256 * c + n) (0, 0) =
                          ((tget q.setstat (256 * c + n) (0, 0)).1 + 1, (tget q.setstat (256 * c + n) (0, 0)).2)
                      ∧ SameMem s u))))

/-- R217, R219 to R221: a launch by firmware. The window and its counters are not concerned; DEPTH is used as written; the class must be
open and a pool entry free; where AFFINITY or JOIN fails, an event says so. How such a launch reaches the model is its own choice (log 76). -/
def FirmwareLaunches : Prop :=
  ∀ (s : State) (c : Nat),
    let p := s.inp.k
    let bs := s.inp.bytes
    let q := s.pas p
    let root := corner q.pcb.rootp
    let ctl := bfield bs 0x38 2
    let aff := wd (bfield bs 0x10 8)
    let join := wd (bfield bs 0x18 8)
    p < 56 → c < 8 → s.inp.l = 8 + c → s.inp.m < 256 →
    (bs.length ≠ 64 ∨ s.hasPas p = false ∨ q.opened.getLsbD c = false ∨ q.st = .drained ∨ packetBad bs = true ∨ ctl % 8 ≠ c
      ∨ q.pcb.pool ≤ q.pool → exec .launch s = .next s)
    ∧ (bs.length = 64 → s.hasPas p = true → q.opened.getLsbD c = true → q.st ≠ .drained → packetBad bs = false → ctl % 8 = c →
        q.pool < q.pcb.pool →
        (2 ^ 56 ≤ aff.toNat → exec .launch s = .next (s.post p root 0x2A c noWhere 0 4))
        ∧ (∀ pa h, TileFinds s p root aff needNone pa → s.homeOf pa = .tile h →
            (join = 0 ∨ ∃ pj t, TileFinds s p root join needRW pj ∧ s.homeOf pj = .tile t) →
            ∃ (u : State) (l : Slice), exec .launch s = .next u ∧ (u.pas p).pool = q.pool + 1
              ∧ (u.pas p).classQ = q.classQ ++ [l] ∧ l.entry = wd (bfield bs 0 8) ∧ l.arg = wd (bfield bs 8 8)
              ∧ l.cls = c ∧ l.set = none ∧ l.home = h ∧ l.depth = ctl / 8 % 32 ∧ u.areas = s.areas
              ∧ (u.pas p).setstat = q.setstat ∧ SameMem s u))

/-- R9, R233, R245, R435, R441, R445, R449: the host's register writes: EVQHEAD, which lets held records out, or is ignored outside the written
part of the ring; the counters that a write clears; HOSTWAKE; and the plain registers. REGISTER_WRITE, which stands for firmware's settings
too (HOME of a group: log 33), and what the registers of an area do where no pasture exists (log 58) are the model's choices. -/
def HostRegisterWrites : Prop :=
  ∀ s : State,
    let p := s.inp.k
    let v := s.inp.val
    let q := s.pas p
    let head : BitVec 32 := v.setWidth 32
    let cleared : Pasture := { q with evdrop := 0 }
    (s.hasPas p = true → (q.evqtail - q.evqhead).toNat < (head - q.evqhead).toNat → exec .evqheadWrite s = .next s)
    ∧ (s.hasPas p = false → exec .evqheadWrite s = .next s ∧ exec .evdropClear s = .next s)
    ∧ (s.hasPas p = true → (head - q.evqhead).toNat ≤ (q.evqtail - q.evqhead).toNat →
        (q.evheld = [] → exec .evqheadWrite s = .next { s with pastures := tset s.pastures p { q with evqhead := head } })
        ∧ (∀ r l, q.evheld = r :: l → q.pcb.evqn = (q.evqtail - q.evqhead).toNat → q.pcb.evqn ≠ 0 → head = q.evqhead + 1 →
            1 < q.pcb.evqn → l ≠ [] → r.length = 32 → s.mem.wf = true →
            let n := q.records
            ∃ u : State, exec .evqheadWrite s = .next u ∧ (u.pas p).evheld = l ∧ (u.pas p).evqtail = q.evqtail + 1
              ∧ (u.pas p).evqhead = head
              ∧ memBytes u.mem (hostKey (q.pcb.evq + 32 * (n % q.pcb.evqn))) 32 =
                  recSet r 2 1 (if n / q.pcb.evqn % 2 = 0 then 1 else 0))
        -- the last held record, and the one EVQ_LOST that says how many were lost
        ∧ (∀ r, q.evheld = [r] → q.pcb.evqn = (q.evqtail - q.evqhead).toNat → 2 ≤ q.pcb.evqn → head = q.evqhead + 2 →
            q.evdrop ≠ 0 → r.length = 32 → s.mem.wf = true →
            (q.lostHeld = true → ∃ u : State, exec .evqheadWrite s = .next u ∧ (u.pas p).evheld = [] ∧ (u.pas p).lostHeld = false
              ∧ (u.pas p).evqtail = q.evqtail + 1)
            ∧ (q.lostHeld = false → ∃ u : State, exec .evqheadWrite s = .next u ∧ (u.pas p).evheld = []
              ∧ (u.pas p).evqtail = q.evqtail + 2
              ∧ (let e := memBytes u.mem (hostKey (q.pcb.evq + 32 * ((q.records + 1) % q.pcb.evqn))) 32
                 bfield e 0 1 = 0x2B ∧ bfield e 24 8 = q.evdrop.toNat))))
    ∧ (s.hasPas p = true → exec .evdropClear s = .next { s with pastures := tset s.pastures p cleared })
    ∧ (p < 56 → exec .rorefClear s = .next { s with areas := tset s.areas p { s.area p with roref := 0 } }
        ∧ exec .hostwakeWrite s = .next { s with areas := tset s.areas p { s.area p with hostwake := v.setWidth 32 } }
        ∧ exec .lrefClear s = .next { s with areas := tset s.areas p { s.area p with lref := 0 } })
    ∧ (let writes (r : RegName) (u : State) : Prop := s.inp.reg = r → exec .registerWrite s = .next u
       let tile (f : Tile) : State := { s with tiles := tset s.tiles p f }
       (s.committed = false → writes .devnum { s with devnum := BitVec.ofNat 11 v.toNat }) ∧ (s.committed = true → writes .devnum s)
       ∧ (s.inp.reg = .attnonce → s.inp.l < 4 → ∃ u : State, exec .registerWrite s = .next u ∧ u.nonced = true
            ∧ (∀ i, i < 4 → u.nonce.getD i 0 = (if i = s.inp.l then v else s.nonce.getD i 0)))
       ∧ ((s.committed = false ∨ s.feat2.getLsbD 8 = true) → p < 56 →
            writes .winopt { s with areas := tset s.areas p { s.area p with winopt := v.setWidth 8 } })
       ∧ (let dram : Prop := v.toNat < 2 ^ 56 ∧ s.homeOf v.toNat = .tile p ∧ localOf v.toNat < 2 ^ 42
          let early : Prop := ∀ m, s.pasOfTile p = some m → (s.pas m).everOpen = false
          p < 8064 →
            (early → v.toNat % 4096 = 0 → dram → writes .spillbase (tile { s.tl p with spillbase := v }))
            ∧ (¬ early ∨ v.toNat % 4096 ≠ 0 ∨ ¬ dram → writes .spillbase s)
            ∧ (early → v.toNat < 65536 → writes .spillblk (tile { s.tl p with spillblk := some v.toNat }))
            ∧ (¬ early ∨ 65536 ≤ v.toNat → writes .spillblk s)
            ∧ (dram → writes .foldbase (tile { s.tl p with foldbase := v })) ∧ (¬ dram → writes .foldbase s))
       ∧ writes .featctl { s with featctl := v.getLsbD 0, committed := s.committed || v.getLsbD 0 }
       ∧ ((s.committed = false ∨ s.feat2.getLsbD 9 = true) →
            (v.getLsbD 0 = true → writes .attctl { s with attready := false, attbusy := true, attctl := true })
            ∧ (v.getLsbD 0 = false → writes .attctl { s with attctl := false }))
       ∧ (10000 ≤ v.toNat → v.toNat ≤ 100000000 → writes .linkTime { s with linkTime := v.toNat })
       ∧ (v.toNat < 10000 ∨ 100000000 < v.toNat → writes .linkTime s)
       ∧ (let group : Pasture := { q with groups := tset q.groups s.inp.l { tget q.groups s.inp.l {} with home := some v.toNat } }
          s.hasPas p = true → s.inp.l < 256 → v.toNat < 8064 →
            writes .groupHome { s with pastures := tset s.pastures p group })
       ∧ writes .other s)

/-- R214, R287, R437, R441, R445, R450, R451: the host's reads and writes, where no host access waits: BAR0 by words of 4 or 8 bytes, the tiles' memory through BAR2, whose
addresses past the tiles are Unsupported Request, whose uncorrectable words are Completer Abort; and the patrol scrubber. How a part waits,
what PATROL_SCRUB's inputs are and the address that its event names are the model's choices (log 59). -/
def HostAccesses : Prop :=
  (∀ s : State, s.hostQ = [] →
      let a := s.inp.k
      let n := s.inp.m
      let x := a % 2 ^ 45
      let t := x / 2 ^ 29 % 2 ^ 13
      let region := x / 2 ^ 42
      let memory : Prop := t < 8064 ∧ (region = 0 ∨ (region = 1 ∧ x % 2 ^ 29 < 2 ^ 21))
      (s.inp.l = 1 → n = 4 → a % 4 = 0 →
          exec .hostRead s = .next { s with hostStatus := .success, hostRead := leBytes 4 (s.bar0Read a) })
      ∧ (s.inp.l = 1 → n = 8 → a % 8 = 0 → exec .hostRead s =
          .next { s with hostStatus := .success, hostRead := leBytes 4 (s.bar0Read a) ++ leBytes 4 (s.bar0Read (a + 4)) })
      ∧ (s.inp.l = 1 → (n ≠ 4 ∧ n ≠ 8) ∨ a % n ≠ 0 →
          exec .hostRead s = .next { s with hostStatus := .unsupported, hostRead := [] })
      ∧ (s.inp.l ≠ 1 →
          (8064 ≤ t → exec .hostRead s = .next { s with hostStatus := .unsupported, hostRead := [] })
          ∧ (t < 8064 → region = 2 → exec .hostRead s = .next { s with
              free := s.free + 1, hostStatus := .success
              hostRead := (List.range n).map (fun i => BitVec.ofNat 8 (s.readControl 0 (x + i) 1)) })
          ∧ (memory → (s.tl t).failed = true → ∃ u : State, exec .hostRead s = .next u ∧ u.hostStatus = .success
              ∧ u.hostRead.length = n ∧ SameMem s u)
          ∧ (memory → (s.tl t).failed = false → s.bad = [] → 0 < n → s.bankHeld x n = true → ∃ u : State, exec .hostRead s = .next u
              ∧ u.hostStatus = s.hostStatus ∧ u.hostRead = s.hostRead ∧ SameMem s u)
          ∧ (memory → (s.tl t).failed = false → s.corr = [] →
              (s.bad = [] → s.bankHeld x n = false →
                exec .hostRead s = .next { s with hostStatus := .success, hostRead := memBytes s.mem x n })
              ∧ (s.badAt x n = true → ∃ u : State, exec .hostRead s = .next u ∧ u.hostStatus = .aborted ∧ u.hostRead = []
                  ∧ u.strands = s.strands ∧ ∃ h, (u.ctr h 0x160) = s.ctr h 0x160 + 1)))
      ∧ (s.mem.wf = true → s.inp.l = 1 → (∀ i, i < s.inp.bytes.length → a + i < 2 ^ 42) → ∃ u : State, exec .hostWrite s = .next u
          ∧ memBytes u.mem (3 * 2 ^ 42 + a) s.inp.bytes.length = s.inp.bytes ∧ SameMemBut s u (3 * 2 ^ 42 + a) s.inp.bytes.length)
      ∧ (s.mem.wf = true → s.inp.l ≠ 1 → memory → s.bankHeld x s.inp.bytes.length = false → s.bad = [] →
          x + s.inp.bytes.length ≤ 2 ^ 43 → ∃ u : State, exec .hostWrite s = .next u
          ∧ memBytes u.mem x s.inp.bytes.length = s.inp.bytes ∧ SameMemBut s u x s.inp.bytes.length)
      ∧ (s.inp.l ≠ 1 → memory → x % 8 = 0 → s.inp.bytes.length = 8 → s.bankHeld x 8 = true → ∃ u : State, exec .hostWrite s = .next u
          ∧ SameMem s u ∧ u.hostQ = [{ port := s.inp.m % 4, ro := s.inp.ro, launch := none, key := x, bytes := s.inp.bytes }])
      ∧ (s.inp.l ≠ 1 → 8064 ≤ t → exec .hostWrite s = .next s))
  ∧ (∀ (s : State) (o : Nat),
      let p := (o - 0x1000000) / 0x40000
      let r := (o - 0x1000000) % 0x40000
      let q := s.pas p
      (s.bar0Read 0 = 0x46380000) ∧ s.bar0Read 12 = 32 * 2 ^ 26 + 4 * 2 ^ 23
      ∧ s.bar0Read 8 = (if s.committed then s.feat2.toNat else 0x3FF) ∧ s.bar0Read 0x100 = s.devnum.toNat
      ∧ s.bar0Read 0x20 = (if s.featctl then 1 else 0) + (if s.committed then 2 else 0)
      ∧ s.bar0Read 0x2020 = (if s.attctl then 1 else 0) + (if s.attready then 2 else 0)
      ∧ (0x1000000 ≤ o → p < 56 →
          (r = 0x20000 → s.bar0Read o = q.evqhead.toNat) ∧ (r = 0x20004 → s.bar0Read o = q.evqtail.toNat)
          ∧ (r = 0x20008 → s.bar0Read o = q.evdrop.toNat) ∧ (r = 0x20028 → s.bar0Read o = (s.area p).hostwake.toNat)
          ∧ (r = 0x20018 → s.bar0Read o = (s.area p).roref.toNat) ∧ (r = 0x20020 → s.bar0Read o = (s.area p).lref.toNat)
          ∧ (∀ i, i < 2048 → r = 0x21000 + 8 * i → s.bar0Read o = (tget q.setstat i (0, 0)).1.toNat)
          ∧ (∀ i, i < 2048 → r = 0x21004 + 8 * i → s.bar0Read o = (tget q.setstat i (0, 0)).2.toNat)))
  ∧ (∀ (s : State) (w : Nat), s.inp.vals = [] → s.inp.l = 0 → s.inp.m = 0 → s.inp.k < 8064 → s.corr = [w] → s.bad = [] → (8 * w) / 2 ^ 29 % 2 ^ 13 = s.inp.k →
      8 * w < 2 ^ 43 → ∃ u : State, exec .patrolScrub s = .next u ∧ u.corr = [] ∧ SameMem s u
        ∧ u.ctr s.inp.k 0x158 = s.ctr s.inp.k 0x158 + 1)
  ∧ (∀ (s : State) (w : Nat), s.inp.vals = [] → s.inp.l = 0 → s.inp.m = 0 → s.inp.k < 8064 → s.corr = [] → s.bad = [w] → (8 * w) / 2 ^ 29 % 2 ^ 13 = s.inp.k →
      8 * w < 2 ^ 43 → ∃ u : State, exec .patrolScrub s = .next u ∧ u.bad = [w] ∧ u.ctr s.inp.k 0x160 = s.ctr s.inp.k 0x160 + 1
        ∧ (∀ p, s.pasOfTile s.inp.k = some p → u.mem =
            (s.post p s.inp.k cMemerr noCls s.inp.k 0 (wd (s.devnum.toNat * 2 ^ 45 + 8 * w))).mem))
  ∧ (∀ s : State, s.inp.vals = [] → s.inp.l = 0 → s.inp.k < 8064 → s.corr = [] → s.bad = [] → ∃ u : State,
      exec .patrolScrub s = .next u ∧ SameMem s u ∧ u.ctr s.inp.k 0x158 = s.ctr s.inp.k 0x158 + wd s.inp.m)

/-- R193, R452: a device is unreachable from one event and reachable again from another; once it has been unreachable for the link time-out,
every operation to it fails: nothing more is on its way there, and a posted operation is the first failed one of its strand, with
HOME_LOST. The three events in which this comes are the model's choice (log 61). -/
def LinkLoss : Prop :=
  ∀ s : State,
    let dev := s.inp.k
    let d := 32768 + dev
    (dev = s.devnum.toNat ∨ 2048 ≤ dev → exec .spanLinkTimeout s = .next s)
    ∧ (dev ≠ s.devnum.toNat → dev < 2048 →
        (s.inp.l = 1 → tfind s.spanDown dev = none → exec .spanLinkTimeout s = .next { s with spanDown := tset s.spanDown dev s.now })
        ∧ (s.inp.l = 1 → tfind s.spanDown dev ≠ none → exec .spanLinkTimeout s = .next s)
        ∧ (s.inp.l = 2 → exec .spanLinkTimeout s = .next { s with spanDown := tdel s.spanDown dev })
        ∧ (s.inp.l = 0 → tfind s.spanDown dev = none → exec .spanLinkTimeout s = .next s)
        ∧ (∀ since, s.inp.l = 0 → tfind s.spanDown dev = some since → s.now < since + s.linkTime → exec .spanLinkTimeout s = .next s)
        ∧ (∀ since, s.inp.l = 0 → tfind s.spanDown dev = some since → since + s.linkTime ≤ s.now →
            s.cmds = [] → s.waiting = [] → s.ends = [] → s.unacked.Pairwise (fun x y => x.id ≠ y.id) →
            (∀ k ∈ s.mesh ++ s.dropped ++ s.resend, k.dst = d → ∃ o, k.body = .post o) →
            (∀ k ∈ s.unacked, k.dst = d → ∃ sid o, k.party = .strand sid ∧ k.body = .post o) →
            ∃ u : State, exec .spanLinkTimeout s = .next u
              ∧ u.mesh = s.mesh.filter (fun k => k.dst != d) ∧ u.unacked = s.unacked.filter (fun k => k.dst != d)
              ∧ u.dropped = s.dropped.filter (fun k => k.dst != d) ∧ u.resend = s.resend.filter (fun k => k.dst != d)
              ∧ (∀ k sid pa n v a st, s.unacked.filter (fun k => k.dst == d) = [k] → k.party = .strand sid →
                  k.body = .post (.store pa n v a) → s.strandOf sid = some st → st.fail = none →
                  u.strandOf sid = some { st with fail := some (cHomeLost, a) })))

end Sys2Proof

/-- R9, R214, R219, R245, R435, R437, R441 to R446, R449 to R452, R454: the host's side. The clauses that logs 13, 33, 57, 58, 59, 61, 76
and 80 back are the model's choices, said with them. -/
def Obligations.HostSide : Prop := FeaturesAndAttestation ∧ Launches ∧ FirmwareLaunches ∧ HostRegisterWrites ∧ HostAccesses ∧ LinkLoss

/-! ### Bundles and steps -/

namespace Sys2Proof

/-- R53 to R56, R144: a bundle of two instructions: which cause it takes, and what is performed where it takes none. One of several turns
that a stop finds after n of them has taken those turns and is issued again: a move of its own abandons it, the model's choice (log 79).
A bundle that its C slot, an ILLEGAL slot or ILLEGAL_BUNDLE stops is charged one turn, one that its A slot stops that slot's turns: the
model's reading (log 23). -/
def CauseOrder : Prop :=
  ∀ (s rc ra : State) (c a : Instr), exec c s = .next rc → exec a s = .next ra →
    s.x.me.hslot = false ∨ s.x.me.hturns + ra.x.turns < 4096 →
    let whole : Prop := s.x.upTo = 0 ∨ ra.x.turns ≤ s.x.upTo
    let s1 := (s.charge 1).countIssue
    let sn := (s.charge ra.x.turns).countIssue
    let ill (t : State) : Prop := t.hasTrap cIllegal = true
    (ill rc → runPair c a s = exec c s1)
    ∧ (¬ ill rc → ill ra → runPair c a s = exec a s1)
    ∧ (¬ ill rc → ¬ ill ra → conflict c a = true → ∃ v, runPair c a s = .next ({ s1 with free := s1.free + 1 }.trapC cIllegalBundle v))
    ∧ (¬ ill rc → ¬ ill ra → conflict c a = false →
        (rc.x.trap ≠ none → runPair c a s = exec c s1)
        ∧ (rc.x.trap = none → rc.stalled = true → runPair c a s = .next rc)
        ∧ (rc.x.trap = none → rc.stalled = false → whole → ra.x.trap ≠ none → runPair c a s = exec a sn)
        ∧ (rc.x.trap = none → rc.stalled = false → ra.x.trap = none → ra.stalled = true → runPair c a s = .next ra)
        ∧ (∀ s2, rc.x.trap = none → rc.stalled = false → whole → ra.x.trap = none → ra.stalled = false → exec a sn = .next s2 →
            runPair c a s = exec c { s2 with x := { s2.x with aDone := true } })
        ∧ (rc.x.trap = none → rc.stalled = false → 0 < s.x.upTo → s.x.upTo < ra.x.turns → ra.stalled = false →
            ∃ u : State, runPair c a s = .next u ∧ u.x.me = s.x.me.charge s.x.upTo (s.pas s.x.me.pasture).pcb.migw ∧ SameMem s u
              ∧ u.x.trap = s.x.trap ∧ u.strands = s.strands))

/-- A strand issues a whole bundle, and nobody follows. -/
def Alone (s : State) : Prop :=
  s.x.me.isCtl = false ∧ s.x.me.hslot = false ∧ s.x.me.follow = none ∧ (∀ f ∈ s.strands, f.follow = none) ∧ s.x.src = s.x.me
    ∧ s.x.trap = none ∧ s.x.turns = 1 ∧ s.x.aDone = false ∧ s.x.me.wait = none ∧ s.x.upTo = 0

/-- R53, R54, R144, R148: LEA beside ADD, for any registers: both read what stood before the bundle, both write, one turn is charged;
where both name one destination, other than g0, the bundle is ILLEGAL_BUNDLE and writes nothing. -/
def BothSlotsRead : Prop :=
  ∀ (s : State) (dc ac da aa ba : RegNo) (i : BitVec 17), Alone s →
    let st := s.x.me
    let sum := wd ((st.gr aa).toNat + (st.gr ba).toNat)
    let addr := BitVec.ofInt 64 ((st.gr ac).toInt + i.toInt)
    (dc ≠ da ∨ dc = 0 → ∃ u : State, runPair (.lea dc ac i) (.add da aa ba) s = .next u
      ∧ (∀ r, u.x.me.gr r = (if r = 0 then 0 else if r = dc then addr else if r = da then sum else st.gr r))
      ∧ u.x.me.pc = st.pc + 1 ∧ u.x.me.budget.toNat = st.budget.toNat - 1 ∧ u.x.me.sw = st.sw ∧ u.x.trap = none
      ∧ u.strands = s.strands ∧ SameMem s u)
    ∧ (dc = da → dc ≠ 0 → ∃ (t : State) (v : Word), runPair (.lea dc ac i) (.add da aa ba) s = .next (t.trapC cIllegalBundle v)
      ∧ t.x.me.g = st.g ∧ t.x.me.pc = st.pc ∧ t.x.me.sw = st.sw ∧ t.x.me.budget.toNat = st.budget.toNat - 1 ∧ SameMem s t)

end Sys2Proof

/-- R53 to R56, R144: a bundle as a whole. The clauses that logs 23 and 79 back are the model's choices, said with them. -/
def Obligations.BundleOrder : Prop := CauseOrder ∧ BothSlotsRead

namespace Sys2Proof

/-- The 64 bits that a bundle's address holds. -/
def bundleAt (s : State) (key v : Nat) : Prop := v = memRead s.mem key 8

/-- R41 to R43, R140, R178, R180: a step runs the decoded instruction. The agent that moves takes its context into the latch, its bundle is
read at PC, and the two slots are run together, or the long instruction alone; then the context goes back. The tile counts its own fetch as
a pinned fetch performed (log 84), and a bundle whose C slot is ILLEGAL is charged one turn (log 23): both are the model's readings. -/
def StepIssues : Prop :=
  ∀ (s : State) (t core n pa : Nat) (st : Strand) (e : TlbEntry), s.sched = [] → s.cur = .strand t core n → s.canIssue s.cur = true →
    s.inSlotAt t core n = some st → st.pend = none → st.cOnly = false → st.follow = none → (st.hslot = true ∨ st.budget ≠ 0) →
    tlbFind (s.tl t).tlb st.pasture (8 * st.pc.toNat) = some e → s.checkEntry st.pasture e (8 * st.pc.toNat) { x := true } = .inl pa →
    s.homeOf pa = .tile t → s.bankHeld (localOf pa) 8 = false → s.bad = [] → s.corr = [] → s.code = [] →
    ∃ (f : State) (v : Nat), bundleAt s (localOf pa) v ∧ f.x.w0.toNat = v % 2 ^ 32 ∧ f.x.w1.toNat = v / 2 ^ 32
      ∧ f.x.me = { st with wait := none } ∧ f.x.src = st ∧ f.x.aDone = false ∧ f.x.trap = none ∧ f.x.turns = 1 ∧ f.x.gone = false
      ∧ f.x.log = [] ∧ f.x.only = s.x.only ∧ f.x.upTo = s.x.upTo
      ∧ f.strands = s.strands ∧ f.tiles = (s.bump t 0x130 1).tiles ∧ f.pastures = s.pastures ∧ f.cmds = s.cmds ∧ f.mesh = s.mesh ∧ f.mem = s.mem
      ∧ (∀ c a, v % 2 ^ 32 < 2 ^ 31 → decodeC (v % 2 ^ 32) = .ok c → decodeA (v / 2 ^ 32) = .ok a → f.permits false c = true →
          f.permits true a = true → step s = andThen (runPair c a f) (fun u => .next u.finishIssue))
      ∧ (∀ c, 2 ^ 31 ≤ v % 2 ^ 32 → decodeLong (v % 2 ^ 32) (v / 2 ^ 32) = .ok c → f.permits false c = true →
          (st.hslot = false ∨ st.hturns + 1 < 4096 → ∀ u, exec c f = .next u → u.stalled = false →
            step s = andThen (exec c (((f.charge 1).countIssue).upd (fun st => { st with arrived := false })))
              (fun u => .next u.finishIssue)))
      ∧ (∀ r, v % 2 ^ 32 < 2 ^ 31 → decodeC (v % 2 ^ 32) = .error r →
          step s = .next ((f.charge 1).countIssue.trapC cIllegal (wd (v % 2 ^ 32))).finishIssue)

/-- R180, R190: a bundle that another tile holds is fetched there: the strand waits with nothing performed, and one issue takes the bundle
from the fetch buffer of its core, which is the model's own (log 84). -/
def StepFetches : Prop :=
  ∀ (s : State) (t core n pa h : Nat) (st : Strand) (e : TlbEntry), s.sched = [] → s.cur = .strand t core n → s.canIssue s.cur = true →
    s.inSlotAt t core n = some st → st.pend = none → st.cOnly = false → st.follow = none → (st.hslot = true ∨ st.budget ≠ 0) →
    tlbFind (s.tl t).tlb st.pasture (8 * st.pc.toNat) = some e → s.checkEntry st.pasture e (8 * st.pc.toNat) { x := true } = .inl pa →
    s.homeOf pa = .tile h → h ≠ t → s.code = [] → s.strands.filter (fun x => x.sid == st.sid) = [st] →
    let buf := tget (s.tl t).fbuf core []
    ((∀ x ∈ buf, x.1 ≠ pa) → ∃ (u : State) (st' : Strand), step s = .next u ∧ u.strandOf st.sid = some st'
      ∧ st' = { st with wait := some (.fetch st.pcByte pa .code), parkedAt := st'.parkedAt } ∧ u.mesh = s.mesh ∧ u.tiles = s.tiles
      ∧ SameMem s u)
    ∧ (∀ v c a, buf.find? (fun x => x.1 == pa) = some (pa, v) → v < 2 ^ 64 → ∃ f : State,
        f.x.w0.toNat = v % 2 ^ 32 ∧ f.x.w1.toNat = v / 2 ^ 32 ∧ f.x.me = { st with wait := none } ∧ f.x.src = st ∧ f.x.aDone = false
        ∧ f.x.trap = none ∧ f.x.log = [] ∧ f.strands = s.strands ∧ f.pastures = s.pastures ∧ f.cmds = s.cmds ∧ f.mesh = s.mesh
        ∧ f.mem = s.mem ∧ tget (f.tl t).fbuf core [] = ldel (fun x => x == (pa, v)) buf
        ∧ (v % 2 ^ 32 < 2 ^ 31 → decodeC (v % 2 ^ 32) = .ok c → decodeA (v / 2 ^ 32) = .ok a → f.permits false c = true →
            f.permits true a = true → step s = andThen (runPair c a f) (fun u => .next u.finishIssue)))

/-- R418: a controller core runs the bundle at PC in its SRAM, which it fetches by byte offset: the model's choice (log 4). -/
def ControllerIssues : Prop :=
  ∀ (s : State) (p core : Nat), s.sched = [] → s.cur = .ctl p core → s.canIssue s.cur = true →
    let st := (s.ctl p core).ctx
    st.place = .ctl p core → st.pend = none → st.cOnly = false → st.follow = none → 8 * st.pc.toNat < 2 ^ 20 →
    s.x.only = [] → s.x.upTo = 0 →
    let v := memRead s.mem (sramKey p (8 * st.pc.toNat)) 8
    let f : State := { s with x := { me := { st with wait := none }, src := st, w0 := BitVec.ofNat 32 v, w1 := BitVec.ofNat 32 (v / 2 ^ 32)
                                     got := true } }
    (∀ c a, v % 2 ^ 32 < 2 ^ 31 → decodeC (v % 2 ^ 32) = .ok c → decodeA (v / 2 ^ 32) = .ok a → f.permits false c = true →
      f.permits true a = true → step s = andThen (runPair c a f) (fun u => .next u.finishIssue))
    -- R60, R418: an instruction that a controller core does not execute is ILLEGAL
    ∧ (∀ c, v % 2 ^ 32 < 2 ^ 31 → decodeC (v % 2 ^ 32) = .ok c → f.permits false c = false →
        step s = .next ((f.charge 1).countIssue.trapC cIllegal (wd (v % 2 ^ 32))).finishIssue)

/-- The other moves of a schedule are the model's own (log 2): an event runs its instruction on its inputs; time passes; an agent that may
not issue passes its turn; and with nothing scheduled and nobody to issue the machine stops. -/
def StepMoves : Prop :=
  ∀ (s : State) (r : List Move),
    (∀ i inp, s.sched = .event i inp :: r → step s = exec i { s with sched := r, inp := inp })
    ∧ (∀ n, s.sched = .tick n :: r → ∃ u : State, step s = .next u ∧ u.now = s.now + n ∧ u.sched = r ∧ u.mem = s.mem
        ∧ u.strands.map (·.sid) = s.strands.map (·.sid))
    ∧ (∀ a, s.sched = .issue a :: r → s.canIssue a = true → step s = issue a { s with sched := r })
    ∧ (∀ a, s.sched = .issue a :: r → s.canIssue a = false → step s = .next { s with sched := r })
    ∧ (∀ a ws, s.sched = .part a ws :: r → s.canIssue a = true →
        step s = issue a { s with sched := r, x := { s.x with only := ws } })
    ∧ (∀ a n, s.sched = .turns a n :: r → s.canIssue a = true →
        step s = issue a { s with sched := r, x := { s.x with upTo := n } })
    ∧ (s.sched = [] → s.canIssue s.cur = false → step s = .fault .nothingMoves)

end Sys2Proof

/-- R41 to R43, R140, R178, R180, R190, R418: a step runs the decoded instruction. The clauses that logs 2, 4, 23 and 84 back are the
model's choices, said with them. -/
def Obligations.StepRunsDecoded : Prop := StepIssues ∧ StepFetches ∧ ControllerIssues ∧ StepMoves

/-- R41 to R49, R60, R62, R64 to R70: words written out from the encoding rules, one of every format, and words that are refused. -/
def Obligations.WordsFromTheSpec : Prop :=
  decodeA 0x05914000 = .ok (.add 6 4 5)
  ∧ decodeA 0x15100001 = .ok (.addi 4 4 1)
  ∧ decodeA 0x2900000A = .ok (.movi 4 10)
  ∧ decodeC 0x0C602000 = .ok (.cmpsi 3 0 2 0)
  ∧ decodeC 0x0824BFFD = .ok (.brc 1 2 2 (-3))
  ∧ decodeLong 0x80A00000 0x12345678 = .ok (.liw 5 0x12345678)
  ∧ decodeC 0x24ACE180 = .ok (.cas 5 6 7 3)
  ∧ decodeC 0x280CE200 = .ok (.ccset 6 7)
  ∧ decodeC 0x00040E00 = .ok (.follow 2)
  ∧ decodeC 0x640CE000 = .ok (.mint 6 7)
  ∧ decodeC 0 = .ok .nopC ∧ decodeA 0 = .ok .nopA
  ∧ decodeC 0x00000001 = .error .reserved ∧ decodeC 0x00001800 = .error .unassigned

/-- R37, R194, R420, R425, R443, R455: the state after bring-up: memory is 0 and FULL and in its canonical form, no strand, slice, packet,
command or pasture exists, features are offered and not committed, the link time-out is 1 ms, the controllers run with no event in hand and address memory
physically. That host memory (log 5) and the controllers' SRAM (log 4) read 0, and that BOOTSTAT stands at 1, the state after a good
bring-up (log 3), are the model's choices. -/
def Obligations.ResetState : Prop :=
  State.reset.mem.wf = true ∧ (∀ a, memGet State.reset.mem a = 0) ∧ (∀ a, State.reset.isFull a = true) ∧ State.reset.bad = []
  ∧ State.reset.strands = [] ∧ State.reset.mesh = [] ∧ State.reset.cmds = [] ∧ State.reset.unacked = []
  ∧ (∀ p, State.reset.hasPas p = false) ∧ State.reset.committed = false ∧ (∀ i, i < 10 → State.reset.offers i = true)
  ∧ (∀ t, (State.reset.tl t).failed = false ∧ (State.reset.tl t).tlb = [] ∧ (State.reset.tl t).token = true ∧ ∀ o, State.reset.ctr t o = 0)
  ∧ (∀ p c, (State.reset.ctl p c).sv.inh = false ∧ (State.reset.ctl p c).sv.asp = 0xFF ∧ (State.reset.ctl p c).ctx.place = .ctl p c)
  ∧ (∀ p, (State.reset.pad p).svq = [] ∧ (State.reset.pad p).boot = 1) ∧ State.reset.linkTime = 1000000

/-- R6, R194, R210: every step keeps memory in its canonical form: from any state with that form, whatever moves. -/
def Obligations.MemoryStaysCanonical : Prop :=
  ∀ s t : State, s.mem.wf = true → step s = .next t → t.mem.wf = true
end

