-- ==== Sys2Proof/Laws/State.lean ====
section
/-! SUPPORT. One lemma per field per named update: what the update leaves alone, and what it writes. -/

namespace Sys2Proof.Machine

open Sys2Proof

/-! The issuing context -/

@[simp] theorem State.upd_x (s : State) (f : Strand → Strand) : (s.upd f).x = { s.x with me := f s.x.me } := rfl
@[simp] theorem State.upd_inp (s : State) (f : Strand → Strand) : (s.upd f).inp = s.inp := rfl
@[simp] theorem State.upd_sched (s : State) (f : Strand → Strand) : (s.upd f).sched = s.sched := rfl
@[simp] theorem State.upd_cur (s : State) (f : Strand → Strand) : (s.upd f).cur = s.cur := rfl
@[simp] theorem State.upd_now (s : State) (f : Strand → Strand) : (s.upd f).now = s.now := rfl
@[simp] theorem State.upd_free (s : State) (f : Strand → Strand) : (s.upd f).free = s.free := rfl
@[simp] theorem State.upd_ids (s : State) (f : Strand → Strand) : (s.upd f).ids = s.ids := rfl
@[simp] theorem State.upd_mem (s : State) (f : Strand → Strand) : (s.upd f).mem = s.mem := rfl
@[simp] theorem State.upd_empties (s : State) (f : Strand → Strand) : (s.upd f).empties = s.empties := rfl
@[simp] theorem State.upd_bad (s : State) (f : Strand → Strand) : (s.upd f).bad = s.bad := rfl
@[simp] theorem State.upd_corr (s : State) (f : Strand → Strand) : (s.upd f).corr = s.corr := rfl
@[simp] theorem State.upd_undo (s : State) (f : Strand → Strand) : (s.upd f).undo = s.undo := rfl
@[simp] theorem State.upd_strands (s : State) (f : Strand → Strand) : (s.upd f).strands = s.strands := rfl
@[simp] theorem State.upd_ctls (s : State) (f : Strand → Strand) : (s.upd f).ctls = s.ctls := rfl
@[simp] theorem State.upd_paddocks (s : State) (f : Strand → Strand) : (s.upd f).paddocks = s.paddocks := rfl
@[simp] theorem State.upd_tiles (s : State) (f : Strand → Strand) : (s.upd f).tiles = s.tiles := rfl
@[simp] theorem State.upd_pastures (s : State) (f : Strand → Strand) : (s.upd f).pastures = s.pastures := rfl
@[simp] theorem State.upd_cmds (s : State) (f : Strand → Strand) : (s.upd f).cmds = s.cmds := rfl
@[simp] theorem State.upd_mesh (s : State) (f : Strand → Strand) : (s.upd f).mesh = s.mesh := rfl
@[simp] theorem State.upd_unacked (s : State) (f : Strand → Strand) : (s.upd f).unacked = s.unacked := rfl
@[simp] theorem State.upd_dropped (s : State) (f : Strand → Strand) : (s.upd f).dropped = s.dropped := rfl
@[simp] theorem State.upd_resend (s : State) (f : Strand → Strand) : (s.upd f).resend = s.resend := rfl
@[simp] theorem State.upd_waiting (s : State) (f : Strand → Strand) : (s.upd f).waiting = s.waiting := rfl
@[simp] theorem State.upd_seqNext (s : State) (f : Strand → Strand) : (s.upd f).seqNext = s.seqNext := rfl
@[simp] theorem State.upd_seqExp (s : State) (f : Strand → Strand) : (s.upd f).seqExp = s.seqExp := rfl
@[simp] theorem State.upd_feat2 (s : State) (f : Strand → Strand) : (s.upd f).feat2 = s.feat2 := rfl
@[simp] theorem State.upd_committed (s : State) (f : Strand → Strand) : (s.upd f).committed = s.committed := rfl
@[simp] theorem State.upd_devnum (s : State) (f : Strand → Strand) : (s.upd f).devnum = s.devnum := rfl
@[simp] theorem State.upd_nonce (s : State) (f : Strand → Strand) : (s.upd f).nonce = s.nonce := rfl
@[simp] theorem State.upd_nonced (s : State) (f : Strand → Strand) : (s.upd f).nonced = s.nonced := rfl
@[simp] theorem State.upd_attready (s : State) (f : Strand → Strand) : (s.upd f).attready = s.attready := rfl
@[simp] theorem State.upd_attbusy (s : State) (f : Strand → Strand) : (s.upd f).attbusy = s.attbusy := rfl
@[simp] theorem State.upd_attrep (s : State) (f : Strand → Strand) : (s.upd f).attrep = s.attrep := rfl
@[simp] theorem State.upd_areas (s : State) (f : Strand → Strand) : (s.upd f).areas = s.areas := rfl
@[simp] theorem State.upd_code (s : State) (f : Strand → Strand) : (s.upd f).code = s.code := rfl
@[simp] theorem State.upd_hostRead (s : State) (f : Strand → Strand) : (s.upd f).hostRead = s.hostRead := rfl
@[simp] theorem State.upd_hostStatus (s : State) (f : Strand → Strand) : (s.upd f).hostStatus = s.hostStatus := rfl
@[simp] theorem State.upd_hostQ (s : State) (f : Strand → Strand) : (s.upd f).hostQ = s.hostQ := rfl
@[simp] theorem State.upd_ends (s : State) (f : Strand → Strand) : (s.upd f).ends = s.ends := rfl
@[simp] theorem State.upd_featctl (s : State) (f : Strand → Strand) : (s.upd f).featctl = s.featctl := rfl
@[simp] theorem State.upd_attctl (s : State) (f : Strand → Strand) : (s.upd f).attctl = s.attctl := rfl
@[simp] theorem State.upd_linkTime (s : State) (f : Strand → Strand) : (s.upd f).linkTime = s.linkTime := rfl
@[simp] theorem State.upd_spanDown (s : State) (f : Strand → Strand) : (s.upd f).spanDown = s.spanDown := rfl
@[simp] theorem State.upd_keys (s : State) (f : Strand → Strand) : (s.upd f).keys = s.keys := rfl

@[simp] theorem State.wg_x (s : State) (r : RegNo) (v : Word) : (s.wg r v).x = { s.x with me := s.x.me.setG r v } := rfl
@[simp] theorem State.wg_inp (s : State) (r : RegNo) (v : Word) : (s.wg r v).inp = s.inp := rfl
@[simp] theorem State.wg_sched (s : State) (r : RegNo) (v : Word) : (s.wg r v).sched = s.sched := rfl
@[simp] theorem State.wg_cur (s : State) (r : RegNo) (v : Word) : (s.wg r v).cur = s.cur := rfl
@[simp] theorem State.wg_now (s : State) (r : RegNo) (v : Word) : (s.wg r v).now = s.now := rfl
@[simp] theorem State.wg_free (s : State) (r : RegNo) (v : Word) : (s.wg r v).free = s.free := rfl
@[simp] theorem State.wg_ids (s : State) (r : RegNo) (v : Word) : (s.wg r v).ids = s.ids := rfl
@[simp] theorem State.wg_mem (s : State) (r : RegNo) (v : Word) : (s.wg r v).mem = s.mem := rfl
@[simp] theorem State.wg_empties (s : State) (r : RegNo) (v : Word) : (s.wg r v).empties = s.empties := rfl
@[simp] theorem State.wg_bad (s : State) (r : RegNo) (v : Word) : (s.wg r v).bad = s.bad := rfl
@[simp] theorem State.wg_corr (s : State) (r : RegNo) (v : Word) : (s.wg r v).corr = s.corr := rfl
@[simp] theorem State.wg_undo (s : State) (r : RegNo) (v : Word) : (s.wg r v).undo = s.undo := rfl
@[simp] theorem State.wg_strands (s : State) (r : RegNo) (v : Word) : (s.wg r v).strands = s.strands := rfl
@[simp] theorem State.wg_ctls (s : State) (r : RegNo) (v : Word) : (s.wg r v).ctls = s.ctls := rfl
@[simp] theorem State.wg_paddocks (s : State) (r : RegNo) (v : Word) : (s.wg r v).paddocks = s.paddocks := rfl
@[simp] theorem State.wg_tiles (s : State) (r : RegNo) (v : Word) : (s.wg r v).tiles = s.tiles := rfl
@[simp] theorem State.wg_pastures (s : State) (r : RegNo) (v : Word) : (s.wg r v).pastures = s.pastures := rfl
@[simp] theorem State.wg_cmds (s : State) (r : RegNo) (v : Word) : (s.wg r v).cmds = s.cmds := rfl
@[simp] theorem State.wg_mesh (s : State) (r : RegNo) (v : Word) : (s.wg r v).mesh = s.mesh := rfl
@[simp] theorem State.wg_unacked (s : State) (r : RegNo) (v : Word) : (s.wg r v).unacked = s.unacked := rfl
@[simp] theorem State.wg_dropped (s : State) (r : RegNo) (v : Word) : (s.wg r v).dropped = s.dropped := rfl
@[simp] theorem State.wg_resend (s : State) (r : RegNo) (v : Word) : (s.wg r v).resend = s.resend := rfl
@[simp] theorem State.wg_waiting (s : State) (r : RegNo) (v : Word) : (s.wg r v).waiting = s.waiting := rfl
@[simp] theorem State.wg_seqNext (s : State) (r : RegNo) (v : Word) : (s.wg r v).seqNext = s.seqNext := rfl
@[simp] theorem State.wg_seqExp (s : State) (r : RegNo) (v : Word) : (s.wg r v).seqExp = s.seqExp := rfl
@[simp] theorem State.wg_feat2 (s : State) (r : RegNo) (v : Word) : (s.wg r v).feat2 = s.feat2 := rfl
@[simp] theorem State.wg_committed (s : State) (r : RegNo) (v : Word) : (s.wg r v).committed = s.committed := rfl
@[simp] theorem State.wg_devnum (s : State) (r : RegNo) (v : Word) : (s.wg r v).devnum = s.devnum := rfl
@[simp] theorem State.wg_nonce (s : State) (r : RegNo) (v : Word) : (s.wg r v).nonce = s.nonce := rfl
@[simp] theorem State.wg_nonced (s : State) (r : RegNo) (v : Word) : (s.wg r v).nonced = s.nonced := rfl
@[simp] theorem State.wg_attready (s : State) (r : RegNo) (v : Word) : (s.wg r v).attready = s.attready := rfl
@[simp] theorem State.wg_attbusy (s : State) (r : RegNo) (v : Word) : (s.wg r v).attbusy = s.attbusy := rfl
@[simp] theorem State.wg_attrep (s : State) (r : RegNo) (v : Word) : (s.wg r v).attrep = s.attrep := rfl
@[simp] theorem State.wg_areas (s : State) (r : RegNo) (v : Word) : (s.wg r v).areas = s.areas := rfl
@[simp] theorem State.wg_code (s : State) (r : RegNo) (v : Word) : (s.wg r v).code = s.code := rfl
@[simp] theorem State.wg_hostRead (s : State) (r : RegNo) (v : Word) : (s.wg r v).hostRead = s.hostRead := rfl
@[simp] theorem State.wg_hostStatus (s : State) (r : RegNo) (v : Word) : (s.wg r v).hostStatus = s.hostStatus := rfl
@[simp] theorem State.wg_hostQ (s : State) (r : RegNo) (v : Word) : (s.wg r v).hostQ = s.hostQ := rfl
@[simp] theorem State.wg_ends (s : State) (r : RegNo) (v : Word) : (s.wg r v).ends = s.ends := rfl
@[simp] theorem State.wg_featctl (s : State) (r : RegNo) (v : Word) : (s.wg r v).featctl = s.featctl := rfl
@[simp] theorem State.wg_attctl (s : State) (r : RegNo) (v : Word) : (s.wg r v).attctl = s.attctl := rfl
@[simp] theorem State.wg_linkTime (s : State) (r : RegNo) (v : Word) : (s.wg r v).linkTime = s.linkTime := rfl
@[simp] theorem State.wg_spanDown (s : State) (r : RegNo) (v : Word) : (s.wg r v).spanDown = s.spanDown := rfl
@[simp] theorem State.wg_keys (s : State) (r : RegNo) (v : Word) : (s.wg r v).keys = s.keys := rfl

@[simp] theorem State.adv_x (s : State) : (s.adv).x = { s.x with me := s.x.me.advance } := rfl
@[simp] theorem State.adv_inp (s : State) : (s.adv).inp = s.inp := rfl
@[simp] theorem State.adv_sched (s : State) : (s.adv).sched = s.sched := rfl
@[simp] theorem State.adv_cur (s : State) : (s.adv).cur = s.cur := rfl
@[simp] theorem State.adv_now (s : State) : (s.adv).now = s.now := rfl
@[simp] theorem State.adv_free (s : State) : (s.adv).free = s.free := rfl
@[simp] theorem State.adv_ids (s : State) : (s.adv).ids = s.ids := rfl
@[simp] theorem State.adv_mem (s : State) : (s.adv).mem = s.mem := rfl
@[simp] theorem State.adv_empties (s : State) : (s.adv).empties = s.empties := rfl
@[simp] theorem State.adv_bad (s : State) : (s.adv).bad = s.bad := rfl
@[simp] theorem State.adv_corr (s : State) : (s.adv).corr = s.corr := rfl
@[simp] theorem State.adv_undo (s : State) : (s.adv).undo = s.undo := rfl
@[simp] theorem State.adv_strands (s : State) : (s.adv).strands = s.strands := rfl
@[simp] theorem State.adv_ctls (s : State) : (s.adv).ctls = s.ctls := rfl
@[simp] theorem State.adv_paddocks (s : State) : (s.adv).paddocks = s.paddocks := rfl
@[simp] theorem State.adv_tiles (s : State) : (s.adv).tiles = s.tiles := rfl
@[simp] theorem State.adv_pastures (s : State) : (s.adv).pastures = s.pastures := rfl
@[simp] theorem State.adv_cmds (s : State) : (s.adv).cmds = s.cmds := rfl
@[simp] theorem State.adv_mesh (s : State) : (s.adv).mesh = s.mesh := rfl
@[simp] theorem State.adv_unacked (s : State) : (s.adv).unacked = s.unacked := rfl
@[simp] theorem State.adv_dropped (s : State) : (s.adv).dropped = s.dropped := rfl
@[simp] theorem State.adv_resend (s : State) : (s.adv).resend = s.resend := rfl
@[simp] theorem State.adv_waiting (s : State) : (s.adv).waiting = s.waiting := rfl
@[simp] theorem State.adv_seqNext (s : State) : (s.adv).seqNext = s.seqNext := rfl
@[simp] theorem State.adv_seqExp (s : State) : (s.adv).seqExp = s.seqExp := rfl
@[simp] theorem State.adv_feat2 (s : State) : (s.adv).feat2 = s.feat2 := rfl
@[simp] theorem State.adv_committed (s : State) : (s.adv).committed = s.committed := rfl
@[simp] theorem State.adv_devnum (s : State) : (s.adv).devnum = s.devnum := rfl
@[simp] theorem State.adv_nonce (s : State) : (s.adv).nonce = s.nonce := rfl
@[simp] theorem State.adv_nonced (s : State) : (s.adv).nonced = s.nonced := rfl
@[simp] theorem State.adv_attready (s : State) : (s.adv).attready = s.attready := rfl
@[simp] theorem State.adv_attbusy (s : State) : (s.adv).attbusy = s.attbusy := rfl
@[simp] theorem State.adv_attrep (s : State) : (s.adv).attrep = s.attrep := rfl
@[simp] theorem State.adv_areas (s : State) : (s.adv).areas = s.areas := rfl
@[simp] theorem State.adv_code (s : State) : (s.adv).code = s.code := rfl
@[simp] theorem State.adv_hostRead (s : State) : (s.adv).hostRead = s.hostRead := rfl
@[simp] theorem State.adv_hostStatus (s : State) : (s.adv).hostStatus = s.hostStatus := rfl
@[simp] theorem State.adv_hostQ (s : State) : (s.adv).hostQ = s.hostQ := rfl
@[simp] theorem State.adv_ends (s : State) : (s.adv).ends = s.ends := rfl
@[simp] theorem State.adv_featctl (s : State) : (s.adv).featctl = s.featctl := rfl
@[simp] theorem State.adv_attctl (s : State) : (s.adv).attctl = s.attctl := rfl
@[simp] theorem State.adv_linkTime (s : State) : (s.adv).linkTime = s.linkTime := rfl
@[simp] theorem State.adv_spanDown (s : State) : (s.adv).spanDown = s.spanDown := rfl
@[simp] theorem State.adv_keys (s : State) : (s.adv).keys = s.keys := rfl

/-! Tables -/

@[simp] theorem State.updTl_x (s : State) (t : Nat) (f : Tile → Tile) : (s.updTl t f).x = s.x := rfl
@[simp] theorem State.updTl_inp (s : State) (t : Nat) (f : Tile → Tile) : (s.updTl t f).inp = s.inp := rfl
@[simp] theorem State.updTl_sched (s : State) (t : Nat) (f : Tile → Tile) : (s.updTl t f).sched = s.sched := rfl
@[simp] theorem State.updTl_cur (s : State) (t : Nat) (f : Tile → Tile) : (s.updTl t f).cur = s.cur := rfl
@[simp] theorem State.updTl_now (s : State) (t : Nat) (f : Tile → Tile) : (s.updTl t f).now = s.now := rfl
@[simp] theorem State.updTl_free (s : State) (t : Nat) (f : Tile → Tile) : (s.updTl t f).free = s.free := rfl
@[simp] theorem State.updTl_ids (s : State) (t : Nat) (f : Tile → Tile) : (s.updTl t f).ids = s.ids := rfl
@[simp] theorem State.updTl_mem (s : State) (t : Nat) (f : Tile → Tile) : (s.updTl t f).mem = s.mem := rfl
@[simp] theorem State.updTl_empties (s : State) (t : Nat) (f : Tile → Tile) : (s.updTl t f).empties = s.empties := rfl
@[simp] theorem State.updTl_bad (s : State) (t : Nat) (f : Tile → Tile) : (s.updTl t f).bad = s.bad := rfl
@[simp] theorem State.updTl_corr (s : State) (t : Nat) (f : Tile → Tile) : (s.updTl t f).corr = s.corr := rfl
@[simp] theorem State.updTl_undo (s : State) (t : Nat) (f : Tile → Tile) : (s.updTl t f).undo = s.undo := rfl
@[simp] theorem State.updTl_strands (s : State) (t : Nat) (f : Tile → Tile) : (s.updTl t f).strands = s.strands := rfl
@[simp] theorem State.updTl_ctls (s : State) (t : Nat) (f : Tile → Tile) : (s.updTl t f).ctls = s.ctls := rfl
@[simp] theorem State.updTl_paddocks (s : State) (t : Nat) (f : Tile → Tile) : (s.updTl t f).paddocks = s.paddocks := rfl
@[simp] theorem State.updTl_tiles (s : State) (t : Nat) (f : Tile → Tile) : (s.updTl t f).tiles = tset s.tiles t (f (s.tl t)) := rfl
@[simp] theorem State.updTl_pastures (s : State) (t : Nat) (f : Tile → Tile) : (s.updTl t f).pastures = s.pastures := rfl
@[simp] theorem State.updTl_cmds (s : State) (t : Nat) (f : Tile → Tile) : (s.updTl t f).cmds = s.cmds := rfl
@[simp] theorem State.updTl_mesh (s : State) (t : Nat) (f : Tile → Tile) : (s.updTl t f).mesh = s.mesh := rfl
@[simp] theorem State.updTl_unacked (s : State) (t : Nat) (f : Tile → Tile) : (s.updTl t f).unacked = s.unacked := rfl
@[simp] theorem State.updTl_dropped (s : State) (t : Nat) (f : Tile → Tile) : (s.updTl t f).dropped = s.dropped := rfl
@[simp] theorem State.updTl_resend (s : State) (t : Nat) (f : Tile → Tile) : (s.updTl t f).resend = s.resend := rfl
@[simp] theorem State.updTl_waiting (s : State) (t : Nat) (f : Tile → Tile) : (s.updTl t f).waiting = s.waiting := rfl
@[simp] theorem State.updTl_seqNext (s : State) (t : Nat) (f : Tile → Tile) : (s.updTl t f).seqNext = s.seqNext := rfl
@[simp] theorem State.updTl_seqExp (s : State) (t : Nat) (f : Tile → Tile) : (s.updTl t f).seqExp = s.seqExp := rfl
@[simp] theorem State.updTl_feat2 (s : State) (t : Nat) (f : Tile → Tile) : (s.updTl t f).feat2 = s.feat2 := rfl
@[simp] theorem State.updTl_committed (s : State) (t : Nat) (f : Tile → Tile) : (s.updTl t f).committed = s.committed := rfl
@[simp] theorem State.updTl_devnum (s : State) (t : Nat) (f : Tile → Tile) : (s.updTl t f).devnum = s.devnum := rfl
@[simp] theorem State.updTl_nonce (s : State) (t : Nat) (f : Tile → Tile) : (s.updTl t f).nonce = s.nonce := rfl
@[simp] theorem State.updTl_nonced (s : State) (t : Nat) (f : Tile → Tile) : (s.updTl t f).nonced = s.nonced := rfl
@[simp] theorem State.updTl_attready (s : State) (t : Nat) (f : Tile → Tile) : (s.updTl t f).attready = s.attready := rfl
@[simp] theorem State.updTl_attbusy (s : State) (t : Nat) (f : Tile → Tile) : (s.updTl t f).attbusy = s.attbusy := rfl
@[simp] theorem State.updTl_attrep (s : State) (t : Nat) (f : Tile → Tile) : (s.updTl t f).attrep = s.attrep := rfl
@[simp] theorem State.updTl_areas (s : State) (t : Nat) (f : Tile → Tile) : (s.updTl t f).areas = s.areas := rfl
@[simp] theorem State.updTl_code (s : State) (t : Nat) (f : Tile → Tile) : (s.updTl t f).code = s.code := rfl
@[simp] theorem State.updTl_hostRead (s : State) (t : Nat) (f : Tile → Tile) : (s.updTl t f).hostRead = s.hostRead := rfl
@[simp] theorem State.updTl_hostStatus (s : State) (t : Nat) (f : Tile → Tile) : (s.updTl t f).hostStatus = s.hostStatus := rfl
@[simp] theorem State.updTl_hostQ (s : State) (t : Nat) (f : Tile → Tile) : (s.updTl t f).hostQ = s.hostQ := rfl
@[simp] theorem State.updTl_ends (s : State) (t : Nat) (f : Tile → Tile) : (s.updTl t f).ends = s.ends := rfl
@[simp] theorem State.updTl_featctl (s : State) (t : Nat) (f : Tile → Tile) : (s.updTl t f).featctl = s.featctl := rfl
@[simp] theorem State.updTl_attctl (s : State) (t : Nat) (f : Tile → Tile) : (s.updTl t f).attctl = s.attctl := rfl
@[simp] theorem State.updTl_linkTime (s : State) (t : Nat) (f : Tile → Tile) : (s.updTl t f).linkTime = s.linkTime := rfl
@[simp] theorem State.updTl_spanDown (s : State) (t : Nat) (f : Tile → Tile) : (s.updTl t f).spanDown = s.spanDown := rfl
@[simp] theorem State.updTl_keys (s : State) (t : Nat) (f : Tile → Tile) : (s.updTl t f).keys = s.keys := rfl

@[simp] theorem State.updPad_x (s : State) (p : Nat) (f : Paddock → Paddock) : (s.updPad p f).x = s.x := rfl
@[simp] theorem State.updPad_inp (s : State) (p : Nat) (f : Paddock → Paddock) : (s.updPad p f).inp = s.inp := rfl
@[simp] theorem State.updPad_sched (s : State) (p : Nat) (f : Paddock → Paddock) : (s.updPad p f).sched = s.sched := rfl
@[simp] theorem State.updPad_cur (s : State) (p : Nat) (f : Paddock → Paddock) : (s.updPad p f).cur = s.cur := rfl
@[simp] theorem State.updPad_now (s : State) (p : Nat) (f : Paddock → Paddock) : (s.updPad p f).now = s.now := rfl
@[simp] theorem State.updPad_free (s : State) (p : Nat) (f : Paddock → Paddock) : (s.updPad p f).free = s.free := rfl
@[simp] theorem State.updPad_ids (s : State) (p : Nat) (f : Paddock → Paddock) : (s.updPad p f).ids = s.ids := rfl
@[simp] theorem State.updPad_mem (s : State) (p : Nat) (f : Paddock → Paddock) : (s.updPad p f).mem = s.mem := rfl
@[simp] theorem State.updPad_empties (s : State) (p : Nat) (f : Paddock → Paddock) : (s.updPad p f).empties = s.empties := rfl
@[simp] theorem State.updPad_bad (s : State) (p : Nat) (f : Paddock → Paddock) : (s.updPad p f).bad = s.bad := rfl
@[simp] theorem State.updPad_corr (s : State) (p : Nat) (f : Paddock → Paddock) : (s.updPad p f).corr = s.corr := rfl
@[simp] theorem State.updPad_undo (s : State) (p : Nat) (f : Paddock → Paddock) : (s.updPad p f).undo = s.undo := rfl
@[simp] theorem State.updPad_strands (s : State) (p : Nat) (f : Paddock → Paddock) : (s.updPad p f).strands = s.strands := rfl
@[simp] theorem State.updPad_ctls (s : State) (p : Nat) (f : Paddock → Paddock) : (s.updPad p f).ctls = s.ctls := rfl
@[simp] theorem State.updPad_paddocks (s : State) (p : Nat) (f : Paddock → Paddock) : (s.updPad p f).paddocks = tset s.paddocks p (f (s.pad p)) := rfl
@[simp] theorem State.updPad_tiles (s : State) (p : Nat) (f : Paddock → Paddock) : (s.updPad p f).tiles = s.tiles := rfl
@[simp] theorem State.updPad_pastures (s : State) (p : Nat) (f : Paddock → Paddock) : (s.updPad p f).pastures = s.pastures := rfl
@[simp] theorem State.updPad_cmds (s : State) (p : Nat) (f : Paddock → Paddock) : (s.updPad p f).cmds = s.cmds := rfl
@[simp] theorem State.updPad_mesh (s : State) (p : Nat) (f : Paddock → Paddock) : (s.updPad p f).mesh = s.mesh := rfl
@[simp] theorem State.updPad_unacked (s : State) (p : Nat) (f : Paddock → Paddock) : (s.updPad p f).unacked = s.unacked := rfl
@[simp] theorem State.updPad_dropped (s : State) (p : Nat) (f : Paddock → Paddock) : (s.updPad p f).dropped = s.dropped := rfl
@[simp] theorem State.updPad_resend (s : State) (p : Nat) (f : Paddock → Paddock) : (s.updPad p f).resend = s.resend := rfl
@[simp] theorem State.updPad_waiting (s : State) (p : Nat) (f : Paddock → Paddock) : (s.updPad p f).waiting = s.waiting := rfl
@[simp] theorem State.updPad_seqNext (s : State) (p : Nat) (f : Paddock → Paddock) : (s.updPad p f).seqNext = s.seqNext := rfl
@[simp] theorem State.updPad_seqExp (s : State) (p : Nat) (f : Paddock → Paddock) : (s.updPad p f).seqExp = s.seqExp := rfl
@[simp] theorem State.updPad_feat2 (s : State) (p : Nat) (f : Paddock → Paddock) : (s.updPad p f).feat2 = s.feat2 := rfl
@[simp] theorem State.updPad_committed (s : State) (p : Nat) (f : Paddock → Paddock) : (s.updPad p f).committed = s.committed := rfl
@[simp] theorem State.updPad_devnum (s : State) (p : Nat) (f : Paddock → Paddock) : (s.updPad p f).devnum = s.devnum := rfl
@[simp] theorem State.updPad_nonce (s : State) (p : Nat) (f : Paddock → Paddock) : (s.updPad p f).nonce = s.nonce := rfl
@[simp] theorem State.updPad_nonced (s : State) (p : Nat) (f : Paddock → Paddock) : (s.updPad p f).nonced = s.nonced := rfl
@[simp] theorem State.updPad_attready (s : State) (p : Nat) (f : Paddock → Paddock) : (s.updPad p f).attready = s.attready := rfl
@[simp] theorem State.updPad_attbusy (s : State) (p : Nat) (f : Paddock → Paddock) : (s.updPad p f).attbusy = s.attbusy := rfl
@[simp] theorem State.updPad_attrep (s : State) (p : Nat) (f : Paddock → Paddock) : (s.updPad p f).attrep = s.attrep := rfl
@[simp] theorem State.updPad_areas (s : State) (p : Nat) (f : Paddock → Paddock) : (s.updPad p f).areas = s.areas := rfl
@[simp] theorem State.updPad_code (s : State) (p : Nat) (f : Paddock → Paddock) : (s.updPad p f).code = s.code := rfl
@[simp] theorem State.updPad_hostRead (s : State) (p : Nat) (f : Paddock → Paddock) : (s.updPad p f).hostRead = s.hostRead := rfl
@[simp] theorem State.updPad_hostStatus (s : State) (p : Nat) (f : Paddock → Paddock) : (s.updPad p f).hostStatus = s.hostStatus := rfl
@[simp] theorem State.updPad_hostQ (s : State) (p : Nat) (f : Paddock → Paddock) : (s.updPad p f).hostQ = s.hostQ := rfl
@[simp] theorem State.updPad_ends (s : State) (p : Nat) (f : Paddock → Paddock) : (s.updPad p f).ends = s.ends := rfl
@[simp] theorem State.updPad_featctl (s : State) (p : Nat) (f : Paddock → Paddock) : (s.updPad p f).featctl = s.featctl := rfl
@[simp] theorem State.updPad_attctl (s : State) (p : Nat) (f : Paddock → Paddock) : (s.updPad p f).attctl = s.attctl := rfl
@[simp] theorem State.updPad_linkTime (s : State) (p : Nat) (f : Paddock → Paddock) : (s.updPad p f).linkTime = s.linkTime := rfl
@[simp] theorem State.updPad_spanDown (s : State) (p : Nat) (f : Paddock → Paddock) : (s.updPad p f).spanDown = s.spanDown := rfl
@[simp] theorem State.updPad_keys (s : State) (p : Nat) (f : Paddock → Paddock) : (s.updPad p f).keys = s.keys := rfl

@[simp] theorem State.updCtl_x (s : State) (p c : Nat) (f : Ctl → Ctl) : (s.updCtl p c f).x = s.x := rfl
@[simp] theorem State.updCtl_inp (s : State) (p c : Nat) (f : Ctl → Ctl) : (s.updCtl p c f).inp = s.inp := rfl
@[simp] theorem State.updCtl_sched (s : State) (p c : Nat) (f : Ctl → Ctl) : (s.updCtl p c f).sched = s.sched := rfl
@[simp] theorem State.updCtl_cur (s : State) (p c : Nat) (f : Ctl → Ctl) : (s.updCtl p c f).cur = s.cur := rfl
@[simp] theorem State.updCtl_now (s : State) (p c : Nat) (f : Ctl → Ctl) : (s.updCtl p c f).now = s.now := rfl
@[simp] theorem State.updCtl_free (s : State) (p c : Nat) (f : Ctl → Ctl) : (s.updCtl p c f).free = s.free := rfl
@[simp] theorem State.updCtl_ids (s : State) (p c : Nat) (f : Ctl → Ctl) : (s.updCtl p c f).ids = s.ids := rfl
@[simp] theorem State.updCtl_mem (s : State) (p c : Nat) (f : Ctl → Ctl) : (s.updCtl p c f).mem = s.mem := rfl
@[simp] theorem State.updCtl_empties (s : State) (p c : Nat) (f : Ctl → Ctl) : (s.updCtl p c f).empties = s.empties := rfl
@[simp] theorem State.updCtl_bad (s : State) (p c : Nat) (f : Ctl → Ctl) : (s.updCtl p c f).bad = s.bad := rfl
@[simp] theorem State.updCtl_corr (s : State) (p c : Nat) (f : Ctl → Ctl) : (s.updCtl p c f).corr = s.corr := rfl
@[simp] theorem State.updCtl_undo (s : State) (p c : Nat) (f : Ctl → Ctl) : (s.updCtl p c f).undo = s.undo := rfl
@[simp] theorem State.updCtl_strands (s : State) (p c : Nat) (f : Ctl → Ctl) : (s.updCtl p c f).strands = s.strands := rfl
@[simp] theorem State.updCtl_ctls (s : State) (p c : Nat) (f : Ctl → Ctl) : (s.updCtl p c f).ctls = tset s.ctls (2 * p + c) (f (s.ctl p c)) := rfl
@[simp] theorem State.updCtl_paddocks (s : State) (p c : Nat) (f : Ctl → Ctl) : (s.updCtl p c f).paddocks = s.paddocks := rfl
@[simp] theorem State.updCtl_tiles (s : State) (p c : Nat) (f : Ctl → Ctl) : (s.updCtl p c f).tiles = s.tiles := rfl
@[simp] theorem State.updCtl_pastures (s : State) (p c : Nat) (f : Ctl → Ctl) : (s.updCtl p c f).pastures = s.pastures := rfl
@[simp] theorem State.updCtl_cmds (s : State) (p c : Nat) (f : Ctl → Ctl) : (s.updCtl p c f).cmds = s.cmds := rfl
@[simp] theorem State.updCtl_mesh (s : State) (p c : Nat) (f : Ctl → Ctl) : (s.updCtl p c f).mesh = s.mesh := rfl
@[simp] theorem State.updCtl_unacked (s : State) (p c : Nat) (f : Ctl → Ctl) : (s.updCtl p c f).unacked = s.unacked := rfl
@[simp] theorem State.updCtl_dropped (s : State) (p c : Nat) (f : Ctl → Ctl) : (s.updCtl p c f).dropped = s.dropped := rfl
@[simp] theorem State.updCtl_resend (s : State) (p c : Nat) (f : Ctl → Ctl) : (s.updCtl p c f).resend = s.resend := rfl
@[simp] theorem State.updCtl_waiting (s : State) (p c : Nat) (f : Ctl → Ctl) : (s.updCtl p c f).waiting = s.waiting := rfl
@[simp] theorem State.updCtl_seqNext (s : State) (p c : Nat) (f : Ctl → Ctl) : (s.updCtl p c f).seqNext = s.seqNext := rfl
@[simp] theorem State.updCtl_seqExp (s : State) (p c : Nat) (f : Ctl → Ctl) : (s.updCtl p c f).seqExp = s.seqExp := rfl
@[simp] theorem State.updCtl_feat2 (s : State) (p c : Nat) (f : Ctl → Ctl) : (s.updCtl p c f).feat2 = s.feat2 := rfl
@[simp] theorem State.updCtl_committed (s : State) (p c : Nat) (f : Ctl → Ctl) : (s.updCtl p c f).committed = s.committed := rfl
@[simp] theorem State.updCtl_devnum (s : State) (p c : Nat) (f : Ctl → Ctl) : (s.updCtl p c f).devnum = s.devnum := rfl
@[simp] theorem State.updCtl_nonce (s : State) (p c : Nat) (f : Ctl → Ctl) : (s.updCtl p c f).nonce = s.nonce := rfl
@[simp] theorem State.updCtl_nonced (s : State) (p c : Nat) (f : Ctl → Ctl) : (s.updCtl p c f).nonced = s.nonced := rfl
@[simp] theorem State.updCtl_attready (s : State) (p c : Nat) (f : Ctl → Ctl) : (s.updCtl p c f).attready = s.attready := rfl
@[simp] theorem State.updCtl_attbusy (s : State) (p c : Nat) (f : Ctl → Ctl) : (s.updCtl p c f).attbusy = s.attbusy := rfl
@[simp] theorem State.updCtl_attrep (s : State) (p c : Nat) (f : Ctl → Ctl) : (s.updCtl p c f).attrep = s.attrep := rfl
@[simp] theorem State.updCtl_areas (s : State) (p c : Nat) (f : Ctl → Ctl) : (s.updCtl p c f).areas = s.areas := rfl
@[simp] theorem State.updCtl_code (s : State) (p c : Nat) (f : Ctl → Ctl) : (s.updCtl p c f).code = s.code := rfl
@[simp] theorem State.updCtl_hostRead (s : State) (p c : Nat) (f : Ctl → Ctl) : (s.updCtl p c f).hostRead = s.hostRead := rfl
@[simp] theorem State.updCtl_hostStatus (s : State) (p c : Nat) (f : Ctl → Ctl) : (s.updCtl p c f).hostStatus = s.hostStatus := rfl
@[simp] theorem State.updCtl_hostQ (s : State) (p c : Nat) (f : Ctl → Ctl) : (s.updCtl p c f).hostQ = s.hostQ := rfl
@[simp] theorem State.updCtl_ends (s : State) (p c : Nat) (f : Ctl → Ctl) : (s.updCtl p c f).ends = s.ends := rfl
@[simp] theorem State.updCtl_featctl (s : State) (p c : Nat) (f : Ctl → Ctl) : (s.updCtl p c f).featctl = s.featctl := rfl
@[simp] theorem State.updCtl_attctl (s : State) (p c : Nat) (f : Ctl → Ctl) : (s.updCtl p c f).attctl = s.attctl := rfl
@[simp] theorem State.updCtl_linkTime (s : State) (p c : Nat) (f : Ctl → Ctl) : (s.updCtl p c f).linkTime = s.linkTime := rfl
@[simp] theorem State.updCtl_spanDown (s : State) (p c : Nat) (f : Ctl → Ctl) : (s.updCtl p c f).spanDown = s.spanDown := rfl
@[simp] theorem State.updCtl_keys (s : State) (p c : Nat) (f : Ctl → Ctl) : (s.updCtl p c f).keys = s.keys := rfl

@[simp] theorem State.bump_x (s : State) (t off n : Nat) : (s.bump t off n).x = s.x := rfl
@[simp] theorem State.bump_inp (s : State) (t off n : Nat) : (s.bump t off n).inp = s.inp := rfl
@[simp] theorem State.bump_sched (s : State) (t off n : Nat) : (s.bump t off n).sched = s.sched := rfl
@[simp] theorem State.bump_cur (s : State) (t off n : Nat) : (s.bump t off n).cur = s.cur := rfl
@[simp] theorem State.bump_now (s : State) (t off n : Nat) : (s.bump t off n).now = s.now := rfl
@[simp] theorem State.bump_free (s : State) (t off n : Nat) : (s.bump t off n).free = s.free := rfl
@[simp] theorem State.bump_ids (s : State) (t off n : Nat) : (s.bump t off n).ids = s.ids := rfl
@[simp] theorem State.bump_mem (s : State) (t off n : Nat) : (s.bump t off n).mem = s.mem := rfl
@[simp] theorem State.bump_empties (s : State) (t off n : Nat) : (s.bump t off n).empties = s.empties := rfl
@[simp] theorem State.bump_bad (s : State) (t off n : Nat) : (s.bump t off n).bad = s.bad := rfl
@[simp] theorem State.bump_corr (s : State) (t off n : Nat) : (s.bump t off n).corr = s.corr := rfl
@[simp] theorem State.bump_undo (s : State) (t off n : Nat) : (s.bump t off n).undo = s.undo := rfl
@[simp] theorem State.bump_strands (s : State) (t off n : Nat) : (s.bump t off n).strands = s.strands := rfl
@[simp] theorem State.bump_ctls (s : State) (t off n : Nat) : (s.bump t off n).ctls = s.ctls := rfl
@[simp] theorem State.bump_paddocks (s : State) (t off n : Nat) : (s.bump t off n).paddocks = s.paddocks := rfl
@[simp] theorem State.bump_tiles (s : State) (t off n : Nat) : (s.bump t off n).tiles = tset s.tiles t { s.tl t with ctrs := tset (s.tl t).ctrs off (tget (s.tl t).ctrs off 0 + wd n) } := rfl
@[simp] theorem State.bump_pastures (s : State) (t off n : Nat) : (s.bump t off n).pastures = s.pastures := rfl
@[simp] theorem State.bump_cmds (s : State) (t off n : Nat) : (s.bump t off n).cmds = s.cmds := rfl
@[simp] theorem State.bump_mesh (s : State) (t off n : Nat) : (s.bump t off n).mesh = s.mesh := rfl
@[simp] theorem State.bump_unacked (s : State) (t off n : Nat) : (s.bump t off n).unacked = s.unacked := rfl
@[simp] theorem State.bump_dropped (s : State) (t off n : Nat) : (s.bump t off n).dropped = s.dropped := rfl
@[simp] theorem State.bump_resend (s : State) (t off n : Nat) : (s.bump t off n).resend = s.resend := rfl
@[simp] theorem State.bump_waiting (s : State) (t off n : Nat) : (s.bump t off n).waiting = s.waiting := rfl
@[simp] theorem State.bump_seqNext (s : State) (t off n : Nat) : (s.bump t off n).seqNext = s.seqNext := rfl
@[simp] theorem State.bump_seqExp (s : State) (t off n : Nat) : (s.bump t off n).seqExp = s.seqExp := rfl
@[simp] theorem State.bump_feat2 (s : State) (t off n : Nat) : (s.bump t off n).feat2 = s.feat2 := rfl
@[simp] theorem State.bump_committed (s : State) (t off n : Nat) : (s.bump t off n).committed = s.committed := rfl
@[simp] theorem State.bump_devnum (s : State) (t off n : Nat) : (s.bump t off n).devnum = s.devnum := rfl
@[simp] theorem State.bump_nonce (s : State) (t off n : Nat) : (s.bump t off n).nonce = s.nonce := rfl
@[simp] theorem State.bump_nonced (s : State) (t off n : Nat) : (s.bump t off n).nonced = s.nonced := rfl
@[simp] theorem State.bump_attready (s : State) (t off n : Nat) : (s.bump t off n).attready = s.attready := rfl
@[simp] theorem State.bump_attbusy (s : State) (t off n : Nat) : (s.bump t off n).attbusy = s.attbusy := rfl
@[simp] theorem State.bump_attrep (s : State) (t off n : Nat) : (s.bump t off n).attrep = s.attrep := rfl
@[simp] theorem State.bump_areas (s : State) (t off n : Nat) : (s.bump t off n).areas = s.areas := rfl
@[simp] theorem State.bump_code (s : State) (t off n : Nat) : (s.bump t off n).code = s.code := rfl
@[simp] theorem State.bump_hostRead (s : State) (t off n : Nat) : (s.bump t off n).hostRead = s.hostRead := rfl
@[simp] theorem State.bump_hostStatus (s : State) (t off n : Nat) : (s.bump t off n).hostStatus = s.hostStatus := rfl
@[simp] theorem State.bump_hostQ (s : State) (t off n : Nat) : (s.bump t off n).hostQ = s.hostQ := rfl
@[simp] theorem State.bump_ends (s : State) (t off n : Nat) : (s.bump t off n).ends = s.ends := rfl
@[simp] theorem State.bump_featctl (s : State) (t off n : Nat) : (s.bump t off n).featctl = s.featctl := rfl
@[simp] theorem State.bump_attctl (s : State) (t off n : Nat) : (s.bump t off n).attctl = s.attctl := rfl
@[simp] theorem State.bump_linkTime (s : State) (t off n : Nat) : (s.bump t off n).linkTime = s.linkTime := rfl
@[simp] theorem State.bump_spanDown (s : State) (t off n : Nat) : (s.bump t off n).spanDown = s.spanDown := rfl
@[simp] theorem State.bump_keys (s : State) (t off n : Nat) : (s.bump t off n).keys = s.keys := rfl

@[simp] theorem State.onStrand_x (s : State) (sid : Word) (f : Strand → Strand) : (s.onStrand sid f).x = s.x := rfl
@[simp] theorem State.onStrand_inp (s : State) (sid : Word) (f : Strand → Strand) : (s.onStrand sid f).inp = s.inp := rfl
@[simp] theorem State.onStrand_sched (s : State) (sid : Word) (f : Strand → Strand) : (s.onStrand sid f).sched = s.sched := rfl
@[simp] theorem State.onStrand_cur (s : State) (sid : Word) (f : Strand → Strand) : (s.onStrand sid f).cur = s.cur := rfl
@[simp] theorem State.onStrand_now (s : State) (sid : Word) (f : Strand → Strand) : (s.onStrand sid f).now = s.now := rfl
@[simp] theorem State.onStrand_free (s : State) (sid : Word) (f : Strand → Strand) : (s.onStrand sid f).free = s.free := rfl
@[simp] theorem State.onStrand_ids (s : State) (sid : Word) (f : Strand → Strand) : (s.onStrand sid f).ids = s.ids := rfl
@[simp] theorem State.onStrand_mem (s : State) (sid : Word) (f : Strand → Strand) : (s.onStrand sid f).mem = s.mem := rfl
@[simp] theorem State.onStrand_empties (s : State) (sid : Word) (f : Strand → Strand) : (s.onStrand sid f).empties = s.empties := rfl
@[simp] theorem State.onStrand_bad (s : State) (sid : Word) (f : Strand → Strand) : (s.onStrand sid f).bad = s.bad := rfl
@[simp] theorem State.onStrand_corr (s : State) (sid : Word) (f : Strand → Strand) : (s.onStrand sid f).corr = s.corr := rfl
@[simp] theorem State.onStrand_undo (s : State) (sid : Word) (f : Strand → Strand) : (s.onStrand sid f).undo = s.undo := rfl
@[simp] theorem State.onStrand_strands (s : State) (sid : Word) (f : Strand → Strand) : (s.onStrand sid f).strands = lupd (fun st => st.sid == sid) f s.strands := rfl
@[simp] theorem State.onStrand_ctls (s : State) (sid : Word) (f : Strand → Strand) : (s.onStrand sid f).ctls = s.ctls := rfl
@[simp] theorem State.onStrand_paddocks (s : State) (sid : Word) (f : Strand → Strand) : (s.onStrand sid f).paddocks = s.paddocks := rfl
@[simp] theorem State.onStrand_tiles (s : State) (sid : Word) (f : Strand → Strand) : (s.onStrand sid f).tiles = s.tiles := rfl
@[simp] theorem State.onStrand_pastures (s : State) (sid : Word) (f : Strand → Strand) : (s.onStrand sid f).pastures = s.pastures := rfl
@[simp] theorem State.onStrand_cmds (s : State) (sid : Word) (f : Strand → Strand) : (s.onStrand sid f).cmds = s.cmds := rfl
@[simp] theorem State.onStrand_mesh (s : State) (sid : Word) (f : Strand → Strand) : (s.onStrand sid f).mesh = s.mesh := rfl
@[simp] theorem State.onStrand_unacked (s : State) (sid : Word) (f : Strand → Strand) : (s.onStrand sid f).unacked = s.unacked := rfl
@[simp] theorem State.onStrand_dropped (s : State) (sid : Word) (f : Strand → Strand) : (s.onStrand sid f).dropped = s.dropped := rfl
@[simp] theorem State.onStrand_resend (s : State) (sid : Word) (f : Strand → Strand) : (s.onStrand sid f).resend = s.resend := rfl
@[simp] theorem State.onStrand_waiting (s : State) (sid : Word) (f : Strand → Strand) : (s.onStrand sid f).waiting = s.waiting := rfl
@[simp] theorem State.onStrand_seqNext (s : State) (sid : Word) (f : Strand → Strand) : (s.onStrand sid f).seqNext = s.seqNext := rfl
@[simp] theorem State.onStrand_seqExp (s : State) (sid : Word) (f : Strand → Strand) : (s.onStrand sid f).seqExp = s.seqExp := rfl
@[simp] theorem State.onStrand_feat2 (s : State) (sid : Word) (f : Strand → Strand) : (s.onStrand sid f).feat2 = s.feat2 := rfl
@[simp] theorem State.onStrand_committed (s : State) (sid : Word) (f : Strand → Strand) : (s.onStrand sid f).committed = s.committed := rfl
@[simp] theorem State.onStrand_devnum (s : State) (sid : Word) (f : Strand → Strand) : (s.onStrand sid f).devnum = s.devnum := rfl
@[simp] theorem State.onStrand_nonce (s : State) (sid : Word) (f : Strand → Strand) : (s.onStrand sid f).nonce = s.nonce := rfl
@[simp] theorem State.onStrand_nonced (s : State) (sid : Word) (f : Strand → Strand) : (s.onStrand sid f).nonced = s.nonced := rfl
@[simp] theorem State.onStrand_attready (s : State) (sid : Word) (f : Strand → Strand) : (s.onStrand sid f).attready = s.attready := rfl
@[simp] theorem State.onStrand_attbusy (s : State) (sid : Word) (f : Strand → Strand) : (s.onStrand sid f).attbusy = s.attbusy := rfl
@[simp] theorem State.onStrand_attrep (s : State) (sid : Word) (f : Strand → Strand) : (s.onStrand sid f).attrep = s.attrep := rfl
@[simp] theorem State.onStrand_areas (s : State) (sid : Word) (f : Strand → Strand) : (s.onStrand sid f).areas = s.areas := rfl
@[simp] theorem State.onStrand_code (s : State) (sid : Word) (f : Strand → Strand) : (s.onStrand sid f).code = s.code := rfl
@[simp] theorem State.onStrand_hostRead (s : State) (sid : Word) (f : Strand → Strand) : (s.onStrand sid f).hostRead = s.hostRead := rfl
@[simp] theorem State.onStrand_hostStatus (s : State) (sid : Word) (f : Strand → Strand) : (s.onStrand sid f).hostStatus = s.hostStatus := rfl
@[simp] theorem State.onStrand_hostQ (s : State) (sid : Word) (f : Strand → Strand) : (s.onStrand sid f).hostQ = s.hostQ := rfl
@[simp] theorem State.onStrand_ends (s : State) (sid : Word) (f : Strand → Strand) : (s.onStrand sid f).ends = s.ends := rfl
@[simp] theorem State.onStrand_featctl (s : State) (sid : Word) (f : Strand → Strand) : (s.onStrand sid f).featctl = s.featctl := rfl
@[simp] theorem State.onStrand_attctl (s : State) (sid : Word) (f : Strand → Strand) : (s.onStrand sid f).attctl = s.attctl := rfl
@[simp] theorem State.onStrand_linkTime (s : State) (sid : Word) (f : Strand → Strand) : (s.onStrand sid f).linkTime = s.linkTime := rfl
@[simp] theorem State.onStrand_spanDown (s : State) (sid : Word) (f : Strand → Strand) : (s.onStrand sid f).spanDown = s.spanDown := rfl
@[simp] theorem State.onStrand_keys (s : State) (sid : Word) (f : Strand → Strand) : (s.onStrand sid f).keys = s.keys := rfl

/-! Numbers and free values -/

@[simp] theorem State.fresh_snd_x (s : State) : (s.fresh.2).x = s.x := rfl
@[simp] theorem State.fresh_snd_inp (s : State) : (s.fresh.2).inp = s.inp := rfl
@[simp] theorem State.fresh_snd_sched (s : State) : (s.fresh.2).sched = s.sched := rfl
@[simp] theorem State.fresh_snd_cur (s : State) : (s.fresh.2).cur = s.cur := rfl
@[simp] theorem State.fresh_snd_now (s : State) : (s.fresh.2).now = s.now := rfl
@[simp] theorem State.fresh_snd_free (s : State) : (s.fresh.2).free = s.free := rfl
@[simp] theorem State.fresh_snd_ids (s : State) : (s.fresh.2).ids = s.ids + 1 := rfl
@[simp] theorem State.fresh_snd_mem (s : State) : (s.fresh.2).mem = s.mem := rfl
@[simp] theorem State.fresh_snd_empties (s : State) : (s.fresh.2).empties = s.empties := rfl
@[simp] theorem State.fresh_snd_bad (s : State) : (s.fresh.2).bad = s.bad := rfl
@[simp] theorem State.fresh_snd_corr (s : State) : (s.fresh.2).corr = s.corr := rfl
@[simp] theorem State.fresh_snd_undo (s : State) : (s.fresh.2).undo = s.undo := rfl
@[simp] theorem State.fresh_snd_strands (s : State) : (s.fresh.2).strands = s.strands := rfl
@[simp] theorem State.fresh_snd_ctls (s : State) : (s.fresh.2).ctls = s.ctls := rfl
@[simp] theorem State.fresh_snd_paddocks (s : State) : (s.fresh.2).paddocks = s.paddocks := rfl
@[simp] theorem State.fresh_snd_tiles (s : State) : (s.fresh.2).tiles = s.tiles := rfl
@[simp] theorem State.fresh_snd_pastures (s : State) : (s.fresh.2).pastures = s.pastures := rfl
@[simp] theorem State.fresh_snd_cmds (s : State) : (s.fresh.2).cmds = s.cmds := rfl
@[simp] theorem State.fresh_snd_mesh (s : State) : (s.fresh.2).mesh = s.mesh := rfl
@[simp] theorem State.fresh_snd_unacked (s : State) : (s.fresh.2).unacked = s.unacked := rfl
@[simp] theorem State.fresh_snd_dropped (s : State) : (s.fresh.2).dropped = s.dropped := rfl
@[simp] theorem State.fresh_snd_resend (s : State) : (s.fresh.2).resend = s.resend := rfl
@[simp] theorem State.fresh_snd_waiting (s : State) : (s.fresh.2).waiting = s.waiting := rfl
@[simp] theorem State.fresh_snd_seqNext (s : State) : (s.fresh.2).seqNext = s.seqNext := rfl
@[simp] theorem State.fresh_snd_seqExp (s : State) : (s.fresh.2).seqExp = s.seqExp := rfl
@[simp] theorem State.fresh_snd_feat2 (s : State) : (s.fresh.2).feat2 = s.feat2 := rfl
@[simp] theorem State.fresh_snd_committed (s : State) : (s.fresh.2).committed = s.committed := rfl
@[simp] theorem State.fresh_snd_devnum (s : State) : (s.fresh.2).devnum = s.devnum := rfl
@[simp] theorem State.fresh_snd_nonce (s : State) : (s.fresh.2).nonce = s.nonce := rfl
@[simp] theorem State.fresh_snd_nonced (s : State) : (s.fresh.2).nonced = s.nonced := rfl
@[simp] theorem State.fresh_snd_attready (s : State) : (s.fresh.2).attready = s.attready := rfl
@[simp] theorem State.fresh_snd_attbusy (s : State) : (s.fresh.2).attbusy = s.attbusy := rfl
@[simp] theorem State.fresh_snd_attrep (s : State) : (s.fresh.2).attrep = s.attrep := rfl
@[simp] theorem State.fresh_snd_areas (s : State) : (s.fresh.2).areas = s.areas := rfl
@[simp] theorem State.fresh_snd_code (s : State) : (s.fresh.2).code = s.code := rfl
@[simp] theorem State.fresh_snd_hostRead (s : State) : (s.fresh.2).hostRead = s.hostRead := rfl
@[simp] theorem State.fresh_snd_hostStatus (s : State) : (s.fresh.2).hostStatus = s.hostStatus := rfl
@[simp] theorem State.fresh_snd_hostQ (s : State) : (s.fresh.2).hostQ = s.hostQ := rfl
@[simp] theorem State.fresh_snd_ends (s : State) : (s.fresh.2).ends = s.ends := rfl
@[simp] theorem State.fresh_snd_featctl (s : State) : (s.fresh.2).featctl = s.featctl := rfl
@[simp] theorem State.fresh_snd_attctl (s : State) : (s.fresh.2).attctl = s.attctl := rfl
@[simp] theorem State.fresh_snd_linkTime (s : State) : (s.fresh.2).linkTime = s.linkTime := rfl
@[simp] theorem State.fresh_snd_spanDown (s : State) : (s.fresh.2).spanDown = s.spanDown := rfl
@[simp] theorem State.fresh_snd_keys (s : State) : (s.fresh.2).keys = s.keys := rfl

@[simp] theorem State.takeFree_snd_x (s : State) : (s.takeFree.2).x = s.x := rfl
@[simp] theorem State.takeFree_snd_inp (s : State) : (s.takeFree.2).inp = s.inp := rfl
@[simp] theorem State.takeFree_snd_sched (s : State) : (s.takeFree.2).sched = s.sched := rfl
@[simp] theorem State.takeFree_snd_cur (s : State) : (s.takeFree.2).cur = s.cur := rfl
@[simp] theorem State.takeFree_snd_now (s : State) : (s.takeFree.2).now = s.now := rfl
@[simp] theorem State.takeFree_snd_free (s : State) : (s.takeFree.2).free = s.free + 1 := rfl
@[simp] theorem State.takeFree_snd_ids (s : State) : (s.takeFree.2).ids = s.ids := rfl
@[simp] theorem State.takeFree_snd_mem (s : State) : (s.takeFree.2).mem = s.mem := rfl
@[simp] theorem State.takeFree_snd_empties (s : State) : (s.takeFree.2).empties = s.empties := rfl
@[simp] theorem State.takeFree_snd_bad (s : State) : (s.takeFree.2).bad = s.bad := rfl
@[simp] theorem State.takeFree_snd_corr (s : State) : (s.takeFree.2).corr = s.corr := rfl
@[simp] theorem State.takeFree_snd_undo (s : State) : (s.takeFree.2).undo = s.undo := rfl
@[simp] theorem State.takeFree_snd_strands (s : State) : (s.takeFree.2).strands = s.strands := rfl
@[simp] theorem State.takeFree_snd_ctls (s : State) : (s.takeFree.2).ctls = s.ctls := rfl
@[simp] theorem State.takeFree_snd_paddocks (s : State) : (s.takeFree.2).paddocks = s.paddocks := rfl
@[simp] theorem State.takeFree_snd_tiles (s : State) : (s.takeFree.2).tiles = s.tiles := rfl
@[simp] theorem State.takeFree_snd_pastures (s : State) : (s.takeFree.2).pastures = s.pastures := rfl
@[simp] theorem State.takeFree_snd_cmds (s : State) : (s.takeFree.2).cmds = s.cmds := rfl
@[simp] theorem State.takeFree_snd_mesh (s : State) : (s.takeFree.2).mesh = s.mesh := rfl
@[simp] theorem State.takeFree_snd_unacked (s : State) : (s.takeFree.2).unacked = s.unacked := rfl
@[simp] theorem State.takeFree_snd_dropped (s : State) : (s.takeFree.2).dropped = s.dropped := rfl
@[simp] theorem State.takeFree_snd_resend (s : State) : (s.takeFree.2).resend = s.resend := rfl
@[simp] theorem State.takeFree_snd_waiting (s : State) : (s.takeFree.2).waiting = s.waiting := rfl
@[simp] theorem State.takeFree_snd_seqNext (s : State) : (s.takeFree.2).seqNext = s.seqNext := rfl
@[simp] theorem State.takeFree_snd_seqExp (s : State) : (s.takeFree.2).seqExp = s.seqExp := rfl
@[simp] theorem State.takeFree_snd_feat2 (s : State) : (s.takeFree.2).feat2 = s.feat2 := rfl
@[simp] theorem State.takeFree_snd_committed (s : State) : (s.takeFree.2).committed = s.committed := rfl
@[simp] theorem State.takeFree_snd_devnum (s : State) : (s.takeFree.2).devnum = s.devnum := rfl
@[simp] theorem State.takeFree_snd_nonce (s : State) : (s.takeFree.2).nonce = s.nonce := rfl
@[simp] theorem State.takeFree_snd_nonced (s : State) : (s.takeFree.2).nonced = s.nonced := rfl
@[simp] theorem State.takeFree_snd_attready (s : State) : (s.takeFree.2).attready = s.attready := rfl
@[simp] theorem State.takeFree_snd_attbusy (s : State) : (s.takeFree.2).attbusy = s.attbusy := rfl
@[simp] theorem State.takeFree_snd_attrep (s : State) : (s.takeFree.2).attrep = s.attrep := rfl
@[simp] theorem State.takeFree_snd_areas (s : State) : (s.takeFree.2).areas = s.areas := rfl
@[simp] theorem State.takeFree_snd_code (s : State) : (s.takeFree.2).code = s.code := rfl
@[simp] theorem State.takeFree_snd_hostRead (s : State) : (s.takeFree.2).hostRead = s.hostRead := rfl
@[simp] theorem State.takeFree_snd_hostStatus (s : State) : (s.takeFree.2).hostStatus = s.hostStatus := rfl
@[simp] theorem State.takeFree_snd_hostQ (s : State) : (s.takeFree.2).hostQ = s.hostQ := rfl
@[simp] theorem State.takeFree_snd_ends (s : State) : (s.takeFree.2).ends = s.ends := rfl
@[simp] theorem State.takeFree_snd_featctl (s : State) : (s.takeFree.2).featctl = s.featctl := rfl
@[simp] theorem State.takeFree_snd_attctl (s : State) : (s.takeFree.2).attctl = s.attctl := rfl
@[simp] theorem State.takeFree_snd_linkTime (s : State) : (s.takeFree.2).linkTime = s.linkTime := rfl
@[simp] theorem State.takeFree_snd_spanDown (s : State) : (s.takeFree.2).spanDown = s.spanDown := rfl
@[simp] theorem State.takeFree_snd_keys (s : State) : (s.takeFree.2).keys = s.keys := rfl

/-! Memory and its full/empty states -/

@[simp] theorem State.remember_x (s : State) (ws : List Nat) : (s.remember ws).x = s.x := rfl
@[simp] theorem State.remember_inp (s : State) (ws : List Nat) : (s.remember ws).inp = s.inp := rfl
@[simp] theorem State.remember_sched (s : State) (ws : List Nat) : (s.remember ws).sched = s.sched := rfl
@[simp] theorem State.remember_cur (s : State) (ws : List Nat) : (s.remember ws).cur = s.cur := rfl
@[simp] theorem State.remember_now (s : State) (ws : List Nat) : (s.remember ws).now = s.now := rfl
@[simp] theorem State.remember_free (s : State) (ws : List Nat) : (s.remember ws).free = s.free := rfl
@[simp] theorem State.remember_ids (s : State) (ws : List Nat) : (s.remember ws).ids = s.ids := rfl
@[simp] theorem State.remember_mem (s : State) (ws : List Nat) : (s.remember ws).mem = s.mem := rfl
@[simp] theorem State.remember_empties (s : State) (ws : List Nat) : (s.remember ws).empties = s.empties := rfl
@[simp] theorem State.remember_bad (s : State) (ws : List Nat) : (s.remember ws).bad = s.bad := rfl
@[simp] theorem State.remember_corr (s : State) (ws : List Nat) : (s.remember ws).corr = s.corr := rfl
@[simp] theorem State.remember_strands (s : State) (ws : List Nat) : (s.remember ws).strands = s.strands := rfl
@[simp] theorem State.remember_ctls (s : State) (ws : List Nat) : (s.remember ws).ctls = s.ctls := rfl
@[simp] theorem State.remember_paddocks (s : State) (ws : List Nat) : (s.remember ws).paddocks = s.paddocks := rfl
@[simp] theorem State.remember_tiles (s : State) (ws : List Nat) : (s.remember ws).tiles = s.tiles := rfl
@[simp] theorem State.remember_pastures (s : State) (ws : List Nat) : (s.remember ws).pastures = s.pastures := rfl
@[simp] theorem State.remember_cmds (s : State) (ws : List Nat) : (s.remember ws).cmds = s.cmds := rfl
@[simp] theorem State.remember_mesh (s : State) (ws : List Nat) : (s.remember ws).mesh = s.mesh := rfl
@[simp] theorem State.remember_unacked (s : State) (ws : List Nat) : (s.remember ws).unacked = s.unacked := rfl
@[simp] theorem State.remember_dropped (s : State) (ws : List Nat) : (s.remember ws).dropped = s.dropped := rfl
@[simp] theorem State.remember_resend (s : State) (ws : List Nat) : (s.remember ws).resend = s.resend := rfl
@[simp] theorem State.remember_waiting (s : State) (ws : List Nat) : (s.remember ws).waiting = s.waiting := rfl
@[simp] theorem State.remember_seqNext (s : State) (ws : List Nat) : (s.remember ws).seqNext = s.seqNext := rfl
@[simp] theorem State.remember_seqExp (s : State) (ws : List Nat) : (s.remember ws).seqExp = s.seqExp := rfl
@[simp] theorem State.remember_feat2 (s : State) (ws : List Nat) : (s.remember ws).feat2 = s.feat2 := rfl
@[simp] theorem State.remember_committed (s : State) (ws : List Nat) : (s.remember ws).committed = s.committed := rfl
@[simp] theorem State.remember_devnum (s : State) (ws : List Nat) : (s.remember ws).devnum = s.devnum := rfl
@[simp] theorem State.remember_nonce (s : State) (ws : List Nat) : (s.remember ws).nonce = s.nonce := rfl
@[simp] theorem State.remember_nonced (s : State) (ws : List Nat) : (s.remember ws).nonced = s.nonced := rfl
@[simp] theorem State.remember_attready (s : State) (ws : List Nat) : (s.remember ws).attready = s.attready := rfl
@[simp] theorem State.remember_attbusy (s : State) (ws : List Nat) : (s.remember ws).attbusy = s.attbusy := rfl
@[simp] theorem State.remember_attrep (s : State) (ws : List Nat) : (s.remember ws).attrep = s.attrep := rfl
@[simp] theorem State.remember_areas (s : State) (ws : List Nat) : (s.remember ws).areas = s.areas := rfl
@[simp] theorem State.remember_code (s : State) (ws : List Nat) : (s.remember ws).code = s.code := rfl
@[simp] theorem State.remember_hostRead (s : State) (ws : List Nat) : (s.remember ws).hostRead = s.hostRead := rfl
@[simp] theorem State.remember_hostStatus (s : State) (ws : List Nat) : (s.remember ws).hostStatus = s.hostStatus := rfl
@[simp] theorem State.remember_hostQ (s : State) (ws : List Nat) : (s.remember ws).hostQ = s.hostQ := rfl
@[simp] theorem State.remember_ends (s : State) (ws : List Nat) : (s.remember ws).ends = s.ends := rfl
@[simp] theorem State.remember_featctl (s : State) (ws : List Nat) : (s.remember ws).featctl = s.featctl := rfl
@[simp] theorem State.remember_attctl (s : State) (ws : List Nat) : (s.remember ws).attctl = s.attctl := rfl
@[simp] theorem State.remember_linkTime (s : State) (ws : List Nat) : (s.remember ws).linkTime = s.linkTime := rfl
@[simp] theorem State.remember_spanDown (s : State) (ws : List Nat) : (s.remember ws).spanDown = s.spanDown := rfl
@[simp] theorem State.remember_keys (s : State) (ws : List Nat) : (s.remember ws).keys = s.keys := rfl

@[simp] theorem State.setState_x (s : State) (a : Nat) (full : Bool) : (s.setState a full).x = s.x := rfl
@[simp] theorem State.setState_inp (s : State) (a : Nat) (full : Bool) : (s.setState a full).inp = s.inp := rfl
@[simp] theorem State.setState_sched (s : State) (a : Nat) (full : Bool) : (s.setState a full).sched = s.sched := rfl
@[simp] theorem State.setState_cur (s : State) (a : Nat) (full : Bool) : (s.setState a full).cur = s.cur := rfl
@[simp] theorem State.setState_now (s : State) (a : Nat) (full : Bool) : (s.setState a full).now = s.now := rfl
@[simp] theorem State.setState_free (s : State) (a : Nat) (full : Bool) : (s.setState a full).free = s.free := rfl
@[simp] theorem State.setState_ids (s : State) (a : Nat) (full : Bool) : (s.setState a full).ids = s.ids := rfl
@[simp] theorem State.setState_mem (s : State) (a : Nat) (full : Bool) : (s.setState a full).mem = s.mem := rfl
@[simp] theorem State.setState_empties (s : State) (a : Nat) (full : Bool) : (s.setState a full).empties = if full then s.empties.filter (· != a / 8) else ninsert s.empties (a / 8) := rfl
@[simp] theorem State.setState_bad (s : State) (a : Nat) (full : Bool) : (s.setState a full).bad = s.bad := rfl
@[simp] theorem State.setState_corr (s : State) (a : Nat) (full : Bool) : (s.setState a full).corr = s.corr := rfl
@[simp] theorem State.setState_undo (s : State) (a : Nat) (full : Bool) : (s.setState a full).undo = s.undo := rfl
@[simp] theorem State.setState_strands (s : State) (a : Nat) (full : Bool) : (s.setState a full).strands = s.strands := rfl
@[simp] theorem State.setState_ctls (s : State) (a : Nat) (full : Bool) : (s.setState a full).ctls = s.ctls := rfl
@[simp] theorem State.setState_paddocks (s : State) (a : Nat) (full : Bool) : (s.setState a full).paddocks = s.paddocks := rfl
@[simp] theorem State.setState_tiles (s : State) (a : Nat) (full : Bool) : (s.setState a full).tiles = s.tiles := rfl
@[simp] theorem State.setState_pastures (s : State) (a : Nat) (full : Bool) : (s.setState a full).pastures = s.pastures := rfl
@[simp] theorem State.setState_cmds (s : State) (a : Nat) (full : Bool) : (s.setState a full).cmds = s.cmds := rfl
@[simp] theorem State.setState_mesh (s : State) (a : Nat) (full : Bool) : (s.setState a full).mesh = s.mesh := rfl
@[simp] theorem State.setState_unacked (s : State) (a : Nat) (full : Bool) : (s.setState a full).unacked = s.unacked := rfl
@[simp] theorem State.setState_dropped (s : State) (a : Nat) (full : Bool) : (s.setState a full).dropped = s.dropped := rfl
@[simp] theorem State.setState_resend (s : State) (a : Nat) (full : Bool) : (s.setState a full).resend = s.resend := rfl
@[simp] theorem State.setState_waiting (s : State) (a : Nat) (full : Bool) : (s.setState a full).waiting = s.waiting := rfl
@[simp] theorem State.setState_seqNext (s : State) (a : Nat) (full : Bool) : (s.setState a full).seqNext = s.seqNext := rfl
@[simp] theorem State.setState_seqExp (s : State) (a : Nat) (full : Bool) : (s.setState a full).seqExp = s.seqExp := rfl
@[simp] theorem State.setState_feat2 (s : State) (a : Nat) (full : Bool) : (s.setState a full).feat2 = s.feat2 := rfl
@[simp] theorem State.setState_committed (s : State) (a : Nat) (full : Bool) : (s.setState a full).committed = s.committed := rfl
@[simp] theorem State.setState_devnum (s : State) (a : Nat) (full : Bool) : (s.setState a full).devnum = s.devnum := rfl
@[simp] theorem State.setState_nonce (s : State) (a : Nat) (full : Bool) : (s.setState a full).nonce = s.nonce := rfl
@[simp] theorem State.setState_nonced (s : State) (a : Nat) (full : Bool) : (s.setState a full).nonced = s.nonced := rfl
@[simp] theorem State.setState_attready (s : State) (a : Nat) (full : Bool) : (s.setState a full).attready = s.attready := rfl
@[simp] theorem State.setState_attbusy (s : State) (a : Nat) (full : Bool) : (s.setState a full).attbusy = s.attbusy := rfl
@[simp] theorem State.setState_attrep (s : State) (a : Nat) (full : Bool) : (s.setState a full).attrep = s.attrep := rfl
@[simp] theorem State.setState_areas (s : State) (a : Nat) (full : Bool) : (s.setState a full).areas = s.areas := rfl
@[simp] theorem State.setState_code (s : State) (a : Nat) (full : Bool) : (s.setState a full).code = s.code := rfl
@[simp] theorem State.setState_hostRead (s : State) (a : Nat) (full : Bool) : (s.setState a full).hostRead = s.hostRead := rfl
@[simp] theorem State.setState_hostStatus (s : State) (a : Nat) (full : Bool) : (s.setState a full).hostStatus = s.hostStatus := rfl
@[simp] theorem State.setState_hostQ (s : State) (a : Nat) (full : Bool) : (s.setState a full).hostQ = s.hostQ := rfl
@[simp] theorem State.setState_ends (s : State) (a : Nat) (full : Bool) : (s.setState a full).ends = s.ends := rfl
@[simp] theorem State.setState_featctl (s : State) (a : Nat) (full : Bool) : (s.setState a full).featctl = s.featctl := rfl
@[simp] theorem State.setState_attctl (s : State) (a : Nat) (full : Bool) : (s.setState a full).attctl = s.attctl := rfl
@[simp] theorem State.setState_linkTime (s : State) (a : Nat) (full : Bool) : (s.setState a full).linkTime = s.linkTime := rfl
@[simp] theorem State.setState_spanDown (s : State) (a : Nat) (full : Bool) : (s.setState a full).spanDown = s.spanDown := rfl
@[simp] theorem State.setState_keys (s : State) (a : Nat) (full : Bool) : (s.setState a full).keys = s.keys := rfl

@[simp] theorem State.setFull_x (s : State) (a : Nat) (full : Bool) : (s.setFull a full).x = s.x := rfl
@[simp] theorem State.setFull_inp (s : State) (a : Nat) (full : Bool) : (s.setFull a full).inp = s.inp := rfl
@[simp] theorem State.setFull_sched (s : State) (a : Nat) (full : Bool) : (s.setFull a full).sched = s.sched := rfl
@[simp] theorem State.setFull_cur (s : State) (a : Nat) (full : Bool) : (s.setFull a full).cur = s.cur := rfl
@[simp] theorem State.setFull_now (s : State) (a : Nat) (full : Bool) : (s.setFull a full).now = s.now := rfl
@[simp] theorem State.setFull_free (s : State) (a : Nat) (full : Bool) : (s.setFull a full).free = s.free := rfl
@[simp] theorem State.setFull_ids (s : State) (a : Nat) (full : Bool) : (s.setFull a full).ids = s.ids := rfl
@[simp] theorem State.setFull_mem (s : State) (a : Nat) (full : Bool) : (s.setFull a full).mem = s.mem := rfl
@[simp] theorem State.setFull_empties (s : State) (a : Nat) (full : Bool) : (s.setFull a full).empties = if full then s.empties.filter (· != a / 8) else ninsert s.empties (a / 8) := rfl
@[simp] theorem State.setFull_bad (s : State) (a : Nat) (full : Bool) : (s.setFull a full).bad = s.bad := rfl
@[simp] theorem State.setFull_corr (s : State) (a : Nat) (full : Bool) : (s.setFull a full).corr = s.corr := rfl
@[simp] theorem State.setFull_strands (s : State) (a : Nat) (full : Bool) : (s.setFull a full).strands = s.strands := rfl
@[simp] theorem State.setFull_ctls (s : State) (a : Nat) (full : Bool) : (s.setFull a full).ctls = s.ctls := rfl
@[simp] theorem State.setFull_paddocks (s : State) (a : Nat) (full : Bool) : (s.setFull a full).paddocks = s.paddocks := rfl
@[simp] theorem State.setFull_tiles (s : State) (a : Nat) (full : Bool) : (s.setFull a full).tiles = s.tiles := rfl
@[simp] theorem State.setFull_pastures (s : State) (a : Nat) (full : Bool) : (s.setFull a full).pastures = s.pastures := rfl
@[simp] theorem State.setFull_cmds (s : State) (a : Nat) (full : Bool) : (s.setFull a full).cmds = s.cmds := rfl
@[simp] theorem State.setFull_mesh (s : State) (a : Nat) (full : Bool) : (s.setFull a full).mesh = s.mesh := rfl
@[simp] theorem State.setFull_unacked (s : State) (a : Nat) (full : Bool) : (s.setFull a full).unacked = s.unacked := rfl
@[simp] theorem State.setFull_dropped (s : State) (a : Nat) (full : Bool) : (s.setFull a full).dropped = s.dropped := rfl
@[simp] theorem State.setFull_resend (s : State) (a : Nat) (full : Bool) : (s.setFull a full).resend = s.resend := rfl
@[simp] theorem State.setFull_waiting (s : State) (a : Nat) (full : Bool) : (s.setFull a full).waiting = s.waiting := rfl
@[simp] theorem State.setFull_seqNext (s : State) (a : Nat) (full : Bool) : (s.setFull a full).seqNext = s.seqNext := rfl
@[simp] theorem State.setFull_seqExp (s : State) (a : Nat) (full : Bool) : (s.setFull a full).seqExp = s.seqExp := rfl
@[simp] theorem State.setFull_feat2 (s : State) (a : Nat) (full : Bool) : (s.setFull a full).feat2 = s.feat2 := rfl
@[simp] theorem State.setFull_committed (s : State) (a : Nat) (full : Bool) : (s.setFull a full).committed = s.committed := rfl
@[simp] theorem State.setFull_devnum (s : State) (a : Nat) (full : Bool) : (s.setFull a full).devnum = s.devnum := rfl
@[simp] theorem State.setFull_nonce (s : State) (a : Nat) (full : Bool) : (s.setFull a full).nonce = s.nonce := rfl
@[simp] theorem State.setFull_nonced (s : State) (a : Nat) (full : Bool) : (s.setFull a full).nonced = s.nonced := rfl
@[simp] theorem State.setFull_attready (s : State) (a : Nat) (full : Bool) : (s.setFull a full).attready = s.attready := rfl
@[simp] theorem State.setFull_attbusy (s : State) (a : Nat) (full : Bool) : (s.setFull a full).attbusy = s.attbusy := rfl
@[simp] theorem State.setFull_attrep (s : State) (a : Nat) (full : Bool) : (s.setFull a full).attrep = s.attrep := rfl
@[simp] theorem State.setFull_areas (s : State) (a : Nat) (full : Bool) : (s.setFull a full).areas = s.areas := rfl
@[simp] theorem State.setFull_code (s : State) (a : Nat) (full : Bool) : (s.setFull a full).code = s.code := rfl
@[simp] theorem State.setFull_hostRead (s : State) (a : Nat) (full : Bool) : (s.setFull a full).hostRead = s.hostRead := rfl
@[simp] theorem State.setFull_hostStatus (s : State) (a : Nat) (full : Bool) : (s.setFull a full).hostStatus = s.hostStatus := rfl
@[simp] theorem State.setFull_hostQ (s : State) (a : Nat) (full : Bool) : (s.setFull a full).hostQ = s.hostQ := rfl
@[simp] theorem State.setFull_ends (s : State) (a : Nat) (full : Bool) : (s.setFull a full).ends = s.ends := rfl
@[simp] theorem State.setFull_featctl (s : State) (a : Nat) (full : Bool) : (s.setFull a full).featctl = s.featctl := rfl
@[simp] theorem State.setFull_attctl (s : State) (a : Nat) (full : Bool) : (s.setFull a full).attctl = s.attctl := rfl
@[simp] theorem State.setFull_linkTime (s : State) (a : Nat) (full : Bool) : (s.setFull a full).linkTime = s.linkTime := rfl
@[simp] theorem State.setFull_spanDown (s : State) (a : Nat) (full : Bool) : (s.setFull a full).spanDown = s.spanDown := rfl
@[simp] theorem State.setFull_keys (s : State) (a : Nat) (full : Bool) : (s.setFull a full).keys = s.keys := rfl

@[simp] theorem State.wake_x (s : State) (w : Nat) : (s.wake w).x = s.x := rfl
@[simp] theorem State.wake_inp (s : State) (w : Nat) : (s.wake w).inp = s.inp := rfl
@[simp] theorem State.wake_sched (s : State) (w : Nat) : (s.wake w).sched = s.sched := rfl
@[simp] theorem State.wake_cur (s : State) (w : Nat) : (s.wake w).cur = s.cur := rfl
@[simp] theorem State.wake_now (s : State) (w : Nat) : (s.wake w).now = s.now := rfl
@[simp] theorem State.wake_free (s : State) (w : Nat) : (s.wake w).free = s.free := rfl
@[simp] theorem State.wake_ids (s : State) (w : Nat) : (s.wake w).ids = s.ids := rfl
@[simp] theorem State.wake_mem (s : State) (w : Nat) : (s.wake w).mem = s.mem := rfl
@[simp] theorem State.wake_empties (s : State) (w : Nat) : (s.wake w).empties = s.empties := rfl
@[simp] theorem State.wake_bad (s : State) (w : Nat) : (s.wake w).bad = s.bad := rfl
@[simp] theorem State.wake_corr (s : State) (w : Nat) : (s.wake w).corr = s.corr := rfl
@[simp] theorem State.wake_undo (s : State) (w : Nat) : (s.wake w).undo = s.undo := rfl
@[simp] theorem State.wake_strands (s : State) (w : Nat) : (s.wake w).strands = s.strands.map (fun st => st.notice w (s.rd (8 * w) 8)) := rfl
@[simp] theorem State.wake_ctls (s : State) (w : Nat) : (s.wake w).ctls = s.ctls := rfl
@[simp] theorem State.wake_paddocks (s : State) (w : Nat) : (s.wake w).paddocks = s.paddocks := rfl
@[simp] theorem State.wake_tiles (s : State) (w : Nat) : (s.wake w).tiles = s.tiles := rfl
@[simp] theorem State.wake_pastures (s : State) (w : Nat) : (s.wake w).pastures = s.pastures := rfl
@[simp] theorem State.wake_cmds (s : State) (w : Nat) : (s.wake w).cmds = s.cmds := rfl
@[simp] theorem State.wake_mesh (s : State) (w : Nat) : (s.wake w).mesh = s.mesh := rfl
@[simp] theorem State.wake_unacked (s : State) (w : Nat) : (s.wake w).unacked = s.unacked := rfl
@[simp] theorem State.wake_dropped (s : State) (w : Nat) : (s.wake w).dropped = s.dropped := rfl
@[simp] theorem State.wake_resend (s : State) (w : Nat) : (s.wake w).resend = s.resend := rfl
@[simp] theorem State.wake_waiting (s : State) (w : Nat) : (s.wake w).waiting = s.waiting := rfl
@[simp] theorem State.wake_seqNext (s : State) (w : Nat) : (s.wake w).seqNext = s.seqNext := rfl
@[simp] theorem State.wake_seqExp (s : State) (w : Nat) : (s.wake w).seqExp = s.seqExp := rfl
@[simp] theorem State.wake_feat2 (s : State) (w : Nat) : (s.wake w).feat2 = s.feat2 := rfl
@[simp] theorem State.wake_committed (s : State) (w : Nat) : (s.wake w).committed = s.committed := rfl
@[simp] theorem State.wake_devnum (s : State) (w : Nat) : (s.wake w).devnum = s.devnum := rfl
@[simp] theorem State.wake_nonce (s : State) (w : Nat) : (s.wake w).nonce = s.nonce := rfl
@[simp] theorem State.wake_nonced (s : State) (w : Nat) : (s.wake w).nonced = s.nonced := rfl
@[simp] theorem State.wake_attready (s : State) (w : Nat) : (s.wake w).attready = s.attready := rfl
@[simp] theorem State.wake_attbusy (s : State) (w : Nat) : (s.wake w).attbusy = s.attbusy := rfl
@[simp] theorem State.wake_attrep (s : State) (w : Nat) : (s.wake w).attrep = s.attrep := rfl
@[simp] theorem State.wake_areas (s : State) (w : Nat) : (s.wake w).areas = s.areas := rfl
@[simp] theorem State.wake_code (s : State) (w : Nat) : (s.wake w).code = s.code := rfl
@[simp] theorem State.wake_hostRead (s : State) (w : Nat) : (s.wake w).hostRead = s.hostRead := rfl
@[simp] theorem State.wake_hostStatus (s : State) (w : Nat) : (s.wake w).hostStatus = s.hostStatus := rfl
@[simp] theorem State.wake_hostQ (s : State) (w : Nat) : (s.wake w).hostQ = s.hostQ := rfl
@[simp] theorem State.wake_ends (s : State) (w : Nat) : (s.wake w).ends = s.ends := rfl
@[simp] theorem State.wake_featctl (s : State) (w : Nat) : (s.wake w).featctl = s.featctl := rfl
@[simp] theorem State.wake_attctl (s : State) (w : Nat) : (s.wake w).attctl = s.attctl := rfl
@[simp] theorem State.wake_linkTime (s : State) (w : Nat) : (s.wake w).linkTime = s.linkTime := rfl
@[simp] theorem State.wake_spanDown (s : State) (w : Nat) : (s.wake w).spanDown = s.spanDown := rfl
@[simp] theorem State.wake_keys (s : State) (w : Nat) : (s.wake w).keys = s.keys := rfl

@[simp] theorem State.dropFollowers_x (s : State) (l : Word) : (s.dropFollowers l).x = s.x := rfl
@[simp] theorem State.dropFollowers_inp (s : State) (l : Word) : (s.dropFollowers l).inp = s.inp := rfl
@[simp] theorem State.dropFollowers_sched (s : State) (l : Word) : (s.dropFollowers l).sched = s.sched := rfl
@[simp] theorem State.dropFollowers_cur (s : State) (l : Word) : (s.dropFollowers l).cur = s.cur := rfl
@[simp] theorem State.dropFollowers_now (s : State) (l : Word) : (s.dropFollowers l).now = s.now := rfl
@[simp] theorem State.dropFollowers_free (s : State) (l : Word) : (s.dropFollowers l).free = s.free := rfl
@[simp] theorem State.dropFollowers_ids (s : State) (l : Word) : (s.dropFollowers l).ids = s.ids := rfl
@[simp] theorem State.dropFollowers_mem (s : State) (l : Word) : (s.dropFollowers l).mem = s.mem := rfl
@[simp] theorem State.dropFollowers_empties (s : State) (l : Word) : (s.dropFollowers l).empties = s.empties := rfl
@[simp] theorem State.dropFollowers_bad (s : State) (l : Word) : (s.dropFollowers l).bad = s.bad := rfl
@[simp] theorem State.dropFollowers_corr (s : State) (l : Word) : (s.dropFollowers l).corr = s.corr := rfl
@[simp] theorem State.dropFollowers_undo (s : State) (l : Word) : (s.dropFollowers l).undo = s.undo := rfl
@[simp] theorem State.dropFollowers_ctls (s : State) (l : Word) : (s.dropFollowers l).ctls = s.ctls := rfl
@[simp] theorem State.dropFollowers_paddocks (s : State) (l : Word) : (s.dropFollowers l).paddocks = s.paddocks := rfl
@[simp] theorem State.dropFollowers_tiles (s : State) (l : Word) : (s.dropFollowers l).tiles = s.tiles := rfl
@[simp] theorem State.dropFollowers_pastures (s : State) (l : Word) : (s.dropFollowers l).pastures = s.pastures := rfl
@[simp] theorem State.dropFollowers_cmds (s : State) (l : Word) : (s.dropFollowers l).cmds = s.cmds := rfl
@[simp] theorem State.dropFollowers_mesh (s : State) (l : Word) : (s.dropFollowers l).mesh = s.mesh := rfl
@[simp] theorem State.dropFollowers_unacked (s : State) (l : Word) : (s.dropFollowers l).unacked = s.unacked := rfl
@[simp] theorem State.dropFollowers_dropped (s : State) (l : Word) : (s.dropFollowers l).dropped = s.dropped := rfl
@[simp] theorem State.dropFollowers_resend (s : State) (l : Word) : (s.dropFollowers l).resend = s.resend := rfl
@[simp] theorem State.dropFollowers_waiting (s : State) (l : Word) : (s.dropFollowers l).waiting = s.waiting := rfl
@[simp] theorem State.dropFollowers_seqNext (s : State) (l : Word) : (s.dropFollowers l).seqNext = s.seqNext := rfl
@[simp] theorem State.dropFollowers_seqExp (s : State) (l : Word) : (s.dropFollowers l).seqExp = s.seqExp := rfl
@[simp] theorem State.dropFollowers_feat2 (s : State) (l : Word) : (s.dropFollowers l).feat2 = s.feat2 := rfl
@[simp] theorem State.dropFollowers_committed (s : State) (l : Word) : (s.dropFollowers l).committed = s.committed := rfl
@[simp] theorem State.dropFollowers_devnum (s : State) (l : Word) : (s.dropFollowers l).devnum = s.devnum := rfl
@[simp] theorem State.dropFollowers_nonce (s : State) (l : Word) : (s.dropFollowers l).nonce = s.nonce := rfl
@[simp] theorem State.dropFollowers_nonced (s : State) (l : Word) : (s.dropFollowers l).nonced = s.nonced := rfl
@[simp] theorem State.dropFollowers_attready (s : State) (l : Word) : (s.dropFollowers l).attready = s.attready := rfl
@[simp] theorem State.dropFollowers_attbusy (s : State) (l : Word) : (s.dropFollowers l).attbusy = s.attbusy := rfl
@[simp] theorem State.dropFollowers_attrep (s : State) (l : Word) : (s.dropFollowers l).attrep = s.attrep := rfl
@[simp] theorem State.dropFollowers_areas (s : State) (l : Word) : (s.dropFollowers l).areas = s.areas := rfl
@[simp] theorem State.dropFollowers_code (s : State) (l : Word) : (s.dropFollowers l).code = s.code := rfl
@[simp] theorem State.dropFollowers_hostRead (s : State) (l : Word) : (s.dropFollowers l).hostRead = s.hostRead := rfl
@[simp] theorem State.dropFollowers_hostStatus (s : State) (l : Word) : (s.dropFollowers l).hostStatus = s.hostStatus := rfl
@[simp] theorem State.dropFollowers_hostQ (s : State) (l : Word) : (s.dropFollowers l).hostQ = s.hostQ := rfl
@[simp] theorem State.dropFollowers_ends (s : State) (l : Word) : (s.dropFollowers l).ends = s.ends := rfl
@[simp] theorem State.dropFollowers_featctl (s : State) (l : Word) : (s.dropFollowers l).featctl = s.featctl := rfl
@[simp] theorem State.dropFollowers_attctl (s : State) (l : Word) : (s.dropFollowers l).attctl = s.attctl := rfl
@[simp] theorem State.dropFollowers_linkTime (s : State) (l : Word) : (s.dropFollowers l).linkTime = s.linkTime := rfl
@[simp] theorem State.dropFollowers_spanDown (s : State) (l : Word) : (s.dropFollowers l).spanDown = s.spanDown := rfl
@[simp] theorem State.dropFollowers_keys (s : State) (l : Word) : (s.dropFollowers l).keys = s.keys := rfl

@[simp] theorem State.poke_x (s : State) (a : Nat) (bs : List Byte) : (s.poke a bs).x = s.x := rfl
@[simp] theorem State.poke_inp (s : State) (a : Nat) (bs : List Byte) : (s.poke a bs).inp = s.inp := rfl
@[simp] theorem State.poke_sched (s : State) (a : Nat) (bs : List Byte) : (s.poke a bs).sched = s.sched := rfl
@[simp] theorem State.poke_cur (s : State) (a : Nat) (bs : List Byte) : (s.poke a bs).cur = s.cur := rfl
@[simp] theorem State.poke_now (s : State) (a : Nat) (bs : List Byte) : (s.poke a bs).now = s.now := rfl
@[simp] theorem State.poke_free (s : State) (a : Nat) (bs : List Byte) : (s.poke a bs).free = s.free := rfl
@[simp] theorem State.poke_ids (s : State) (a : Nat) (bs : List Byte) : (s.poke a bs).ids = s.ids := rfl
@[simp] theorem State.poke_mem (s : State) (a : Nat) (bs : List Byte) : (s.poke a bs).mem = memPut s.mem a bs := rfl
@[simp] theorem State.poke_empties (s : State) (a : Nat) (bs : List Byte) : (s.poke a bs).empties = s.empties := rfl
@[simp] theorem State.poke_strands (s : State) (a : Nat) (bs : List Byte) : (s.poke a bs).strands = s.strands := rfl
@[simp] theorem State.poke_ctls (s : State) (a : Nat) (bs : List Byte) : (s.poke a bs).ctls = s.ctls := rfl
@[simp] theorem State.poke_paddocks (s : State) (a : Nat) (bs : List Byte) : (s.poke a bs).paddocks = s.paddocks := rfl
@[simp] theorem State.poke_tiles (s : State) (a : Nat) (bs : List Byte) : (s.poke a bs).tiles = s.tiles := rfl
@[simp] theorem State.poke_pastures (s : State) (a : Nat) (bs : List Byte) : (s.poke a bs).pastures = s.pastures := rfl
@[simp] theorem State.poke_cmds (s : State) (a : Nat) (bs : List Byte) : (s.poke a bs).cmds = s.cmds := rfl
@[simp] theorem State.poke_mesh (s : State) (a : Nat) (bs : List Byte) : (s.poke a bs).mesh = s.mesh := rfl
@[simp] theorem State.poke_unacked (s : State) (a : Nat) (bs : List Byte) : (s.poke a bs).unacked = s.unacked := rfl
@[simp] theorem State.poke_dropped (s : State) (a : Nat) (bs : List Byte) : (s.poke a bs).dropped = s.dropped := rfl
@[simp] theorem State.poke_resend (s : State) (a : Nat) (bs : List Byte) : (s.poke a bs).resend = s.resend := rfl
@[simp] theorem State.poke_waiting (s : State) (a : Nat) (bs : List Byte) : (s.poke a bs).waiting = s.waiting := rfl
@[simp] theorem State.poke_seqNext (s : State) (a : Nat) (bs : List Byte) : (s.poke a bs).seqNext = s.seqNext := rfl
@[simp] theorem State.poke_seqExp (s : State) (a : Nat) (bs : List Byte) : (s.poke a bs).seqExp = s.seqExp := rfl
@[simp] theorem State.poke_feat2 (s : State) (a : Nat) (bs : List Byte) : (s.poke a bs).feat2 = s.feat2 := rfl
@[simp] theorem State.poke_committed (s : State) (a : Nat) (bs : List Byte) : (s.poke a bs).committed = s.committed := rfl
@[simp] theorem State.poke_devnum (s : State) (a : Nat) (bs : List Byte) : (s.poke a bs).devnum = s.devnum := rfl
@[simp] theorem State.poke_nonce (s : State) (a : Nat) (bs : List Byte) : (s.poke a bs).nonce = s.nonce := rfl
@[simp] theorem State.poke_nonced (s : State) (a : Nat) (bs : List Byte) : (s.poke a bs).nonced = s.nonced := rfl
@[simp] theorem State.poke_attready (s : State) (a : Nat) (bs : List Byte) : (s.poke a bs).attready = s.attready := rfl
@[simp] theorem State.poke_attbusy (s : State) (a : Nat) (bs : List Byte) : (s.poke a bs).attbusy = s.attbusy := rfl
@[simp] theorem State.poke_attrep (s : State) (a : Nat) (bs : List Byte) : (s.poke a bs).attrep = s.attrep := rfl
@[simp] theorem State.poke_areas (s : State) (a : Nat) (bs : List Byte) : (s.poke a bs).areas = s.areas := rfl
@[simp] theorem State.poke_code (s : State) (a : Nat) (bs : List Byte) : (s.poke a bs).code = s.code.map (CodeMap.note s.mem a bs.length) := rfl
@[simp] theorem State.poke_hostRead (s : State) (a : Nat) (bs : List Byte) : (s.poke a bs).hostRead = s.hostRead := rfl
@[simp] theorem State.poke_hostStatus (s : State) (a : Nat) (bs : List Byte) : (s.poke a bs).hostStatus = s.hostStatus := rfl
@[simp] theorem State.poke_hostQ (s : State) (a : Nat) (bs : List Byte) : (s.poke a bs).hostQ = s.hostQ := rfl
@[simp] theorem State.poke_ends (s : State) (a : Nat) (bs : List Byte) : (s.poke a bs).ends = s.ends := rfl
@[simp] theorem State.poke_featctl (s : State) (a : Nat) (bs : List Byte) : (s.poke a bs).featctl = s.featctl := rfl
@[simp] theorem State.poke_attctl (s : State) (a : Nat) (bs : List Byte) : (s.poke a bs).attctl = s.attctl := rfl
@[simp] theorem State.poke_linkTime (s : State) (a : Nat) (bs : List Byte) : (s.poke a bs).linkTime = s.linkTime := rfl
@[simp] theorem State.poke_spanDown (s : State) (a : Nat) (bs : List Byte) : (s.poke a bs).spanDown = s.spanDown := rfl
@[simp] theorem State.poke_keys (s : State) (a : Nat) (bs : List Byte) : (s.poke a bs).keys = s.keys := rfl

/-! Contexts -/

@[simp] theorem Strand.advance_sid (st : Strand) : (st.advance).sid = st.sid := rfl
@[simp] theorem Strand.advance_pasture (st : Strand) : (st.advance).pasture = st.pasture := rfl
@[simp] theorem Strand.advance_place (st : Strand) : (st.advance).place = st.place := rfl
@[simp] theorem Strand.advance_wait (st : Strand) : (st.advance).wait = none := rfl
@[simp] theorem Strand.advance_stop (st : Strand) : (st.advance).stop = st.stop := rfl
@[simp] theorem Strand.advance_g (st : Strand) : (st.advance).g = st.g := rfl
@[simp] theorem Strand.advance_pc (st : Strand) : (st.advance).pc = st.pc + 1 := rfl
@[simp] theorem Strand.advance_sw (st : Strand) : (st.advance).sw = st.sw := rfl
@[simp] theorem Strand.advance_vt (st : Strand) : (st.advance).vt = st.vt := rfl
@[simp] theorem Strand.advance_fmt (st : Strand) : (st.advance).fmt = st.fmt := rfl
@[simp] theorem Strand.advance_sca (st : Strand) : (st.advance).sca = st.sca := rfl
@[simp] theorem Strand.advance_scb (st : Strand) : (st.advance).scb = st.scb := rfl
@[simp] theorem Strand.advance_budget (st : Strand) : (st.advance).budget = st.budget := rfl
@[simp] theorem Strand.advance_deadline (st : Strand) : (st.advance).deadline = st.deadline := rfl
@[simp] theorem Strand.advance_grp (st : Strand) : (st.advance).grp = st.grp := rfl
@[simp] theorem Strand.advance_utv (st : Strand) : (st.advance).utv = st.utv := rfl
@[simp] theorem Strand.advance_utc (st : Strand) : (st.advance).utc = st.utc := rfl
@[simp] theorem Strand.advance_utpc (st : Strand) : (st.advance).utpc = st.utpc := rfl
@[simp] theorem Strand.advance_utval (st : Strand) : (st.advance).utval = st.utval := rfl
@[simp] theorem Strand.advance_migcnt (st : Strand) : (st.advance).migcnt = st.migcnt := rfl
@[simp] theorem Strand.advance_migwin (st : Strand) : (st.advance).migwin = st.migwin := rfl
@[simp] theorem Strand.advance_cOnly (st : Strand) : (st.advance).cOnly = false := rfl
@[simp] theorem Strand.advance_arrived (st : Strand) : (st.advance).arrived = st.arrived := rfl
@[simp] theorem Strand.advance_pend (st : Strand) : (st.advance).pend = none := rfl
@[simp] theorem Strand.advance_grace (st : Strand) : (st.advance).grace = st.grace := rfl
@[simp] theorem Strand.advance_hturns (st : Strand) : (st.advance).hturns = st.hturns := rfl
@[simp] theorem Strand.advance_slice (st : Strand) : (st.advance).slice = st.slice := rfl
@[simp] theorem Strand.advance_fail (st : Strand) : (st.advance).fail = st.fail := rfl
@[simp] theorem Strand.advance_follow (st : Strand) : (st.advance).follow = st.follow := rfl
@[simp] theorem Strand.advance_v (st : Strand) : (st.advance).v = st.v := rfl
@[simp] theorem Strand.advance_watch (st : Strand) : (st.advance).watch = st.watch := rfl
@[simp] theorem Strand.advance_fired (st : Strand) : (st.advance).fired = st.fired := rfl
@[simp] theorem Strand.advance_bound (st : Strand) : (st.advance).bound = st.bound := rfl
@[simp] theorem Strand.advance_parkedAt (st : Strand) : (st.advance).parkedAt = st.parkedAt := rfl
@[simp] theorem Strand.advance_retries (st : Strand) : (st.advance).retries = st.retries := rfl
@[simp] theorem Strand.advance_edDue (st : Strand) : (st.advance).edDue = st.edDue := rfl
@[simp] theorem Strand.advance_foldAt (st : Strand) : (st.advance).foldAt = st.foldAt := rfl

@[simp] theorem Strand.jump_sid (st : Strand) (pc : BitVec 53) : (st.jump pc).sid = st.sid := rfl
@[simp] theorem Strand.jump_pasture (st : Strand) (pc : BitVec 53) : (st.jump pc).pasture = st.pasture := rfl
@[simp] theorem Strand.jump_place (st : Strand) (pc : BitVec 53) : (st.jump pc).place = st.place := rfl
@[simp] theorem Strand.jump_wait (st : Strand) (pc : BitVec 53) : (st.jump pc).wait = none := rfl
@[simp] theorem Strand.jump_stop (st : Strand) (pc : BitVec 53) : (st.jump pc).stop = st.stop := rfl
@[simp] theorem Strand.jump_g (st : Strand) (pc : BitVec 53) : (st.jump pc).g = st.g := rfl
@[simp] theorem Strand.jump_pc (st : Strand) (pc : BitVec 53) : (st.jump pc).pc = pc := rfl
@[simp] theorem Strand.jump_sw (st : Strand) (pc : BitVec 53) : (st.jump pc).sw = st.sw := rfl
@[simp] theorem Strand.jump_vt (st : Strand) (pc : BitVec 53) : (st.jump pc).vt = st.vt := rfl
@[simp] theorem Strand.jump_fmt (st : Strand) (pc : BitVec 53) : (st.jump pc).fmt = st.fmt := rfl
@[simp] theorem Strand.jump_sca (st : Strand) (pc : BitVec 53) : (st.jump pc).sca = st.sca := rfl
@[simp] theorem Strand.jump_scb (st : Strand) (pc : BitVec 53) : (st.jump pc).scb = st.scb := rfl
@[simp] theorem Strand.jump_budget (st : Strand) (pc : BitVec 53) : (st.jump pc).budget = st.budget := rfl
@[simp] theorem Strand.jump_deadline (st : Strand) (pc : BitVec 53) : (st.jump pc).deadline = st.deadline := rfl
@[simp] theorem Strand.jump_grp (st : Strand) (pc : BitVec 53) : (st.jump pc).grp = st.grp := rfl
@[simp] theorem Strand.jump_utv (st : Strand) (pc : BitVec 53) : (st.jump pc).utv = st.utv := rfl
@[simp] theorem Strand.jump_utc (st : Strand) (pc : BitVec 53) : (st.jump pc).utc = st.utc := rfl
@[simp] theorem Strand.jump_utpc (st : Strand) (pc : BitVec 53) : (st.jump pc).utpc = st.utpc := rfl
@[simp] theorem Strand.jump_utval (st : Strand) (pc : BitVec 53) : (st.jump pc).utval = st.utval := rfl
@[simp] theorem Strand.jump_migcnt (st : Strand) (pc : BitVec 53) : (st.jump pc).migcnt = st.migcnt := rfl
@[simp] theorem Strand.jump_migwin (st : Strand) (pc : BitVec 53) : (st.jump pc).migwin = st.migwin := rfl
@[simp] theorem Strand.jump_cOnly (st : Strand) (pc : BitVec 53) : (st.jump pc).cOnly = false := rfl
@[simp] theorem Strand.jump_arrived (st : Strand) (pc : BitVec 53) : (st.jump pc).arrived = st.arrived := rfl
@[simp] theorem Strand.jump_pend (st : Strand) (pc : BitVec 53) : (st.jump pc).pend = none := rfl
@[simp] theorem Strand.jump_grace (st : Strand) (pc : BitVec 53) : (st.jump pc).grace = st.grace := rfl
@[simp] theorem Strand.jump_hturns (st : Strand) (pc : BitVec 53) : (st.jump pc).hturns = st.hturns := rfl
@[simp] theorem Strand.jump_slice (st : Strand) (pc : BitVec 53) : (st.jump pc).slice = st.slice := rfl
@[simp] theorem Strand.jump_fail (st : Strand) (pc : BitVec 53) : (st.jump pc).fail = st.fail := rfl
@[simp] theorem Strand.jump_follow (st : Strand) (pc : BitVec 53) : (st.jump pc).follow = st.follow := rfl
@[simp] theorem Strand.jump_v (st : Strand) (pc : BitVec 53) : (st.jump pc).v = st.v := rfl
@[simp] theorem Strand.jump_watch (st : Strand) (pc : BitVec 53) : (st.jump pc).watch = st.watch := rfl
@[simp] theorem Strand.jump_fired (st : Strand) (pc : BitVec 53) : (st.jump pc).fired = st.fired := rfl
@[simp] theorem Strand.jump_bound (st : Strand) (pc : BitVec 53) : (st.jump pc).bound = st.bound := rfl
@[simp] theorem Strand.jump_parkedAt (st : Strand) (pc : BitVec 53) : (st.jump pc).parkedAt = st.parkedAt := rfl
@[simp] theorem Strand.jump_retries (st : Strand) (pc : BitVec 53) : (st.jump pc).retries = st.retries := rfl
@[simp] theorem Strand.jump_edDue (st : Strand) (pc : BitVec 53) : (st.jump pc).edDue = st.edDue := rfl
@[simp] theorem Strand.jump_foldAt (st : Strand) (pc : BitVec 53) : (st.jump pc).foldAt = st.foldAt := rfl

@[simp] theorem Strand.waitFor_sid (st : Strand) (w : Wait) (n : Nat) (p : Pending) : (st.waitFor w n p).sid = st.sid := rfl
@[simp] theorem Strand.waitFor_pasture (st : Strand) (w : Wait) (n : Nat) (p : Pending) : (st.waitFor w n p).pasture = st.pasture := rfl
@[simp] theorem Strand.waitFor_place (st : Strand) (w : Wait) (n : Nat) (p : Pending) : (st.waitFor w n p).place = st.place := rfl
@[simp] theorem Strand.waitFor_wait (st : Strand) (w : Wait) (n : Nat) (p : Pending) : (st.waitFor w n p).wait = some w := rfl
@[simp] theorem Strand.waitFor_stop (st : Strand) (w : Wait) (n : Nat) (p : Pending) : (st.waitFor w n p).stop = st.stop := rfl
@[simp] theorem Strand.waitFor_g (st : Strand) (w : Wait) (n : Nat) (p : Pending) : (st.waitFor w n p).g = st.g := rfl
@[simp] theorem Strand.waitFor_pc (st : Strand) (w : Wait) (n : Nat) (p : Pending) : (st.waitFor w n p).pc = st.pc := rfl
@[simp] theorem Strand.waitFor_sw (st : Strand) (w : Wait) (n : Nat) (p : Pending) : (st.waitFor w n p).sw = st.sw := rfl
@[simp] theorem Strand.waitFor_vt (st : Strand) (w : Wait) (n : Nat) (p : Pending) : (st.waitFor w n p).vt = st.vt := rfl
@[simp] theorem Strand.waitFor_fmt (st : Strand) (w : Wait) (n : Nat) (p : Pending) : (st.waitFor w n p).fmt = st.fmt := rfl
@[simp] theorem Strand.waitFor_sca (st : Strand) (w : Wait) (n : Nat) (p : Pending) : (st.waitFor w n p).sca = st.sca := rfl
@[simp] theorem Strand.waitFor_scb (st : Strand) (w : Wait) (n : Nat) (p : Pending) : (st.waitFor w n p).scb = st.scb := rfl
@[simp] theorem Strand.waitFor_budget (st : Strand) (w : Wait) (n : Nat) (p : Pending) : (st.waitFor w n p).budget = st.budget := rfl
@[simp] theorem Strand.waitFor_deadline (st : Strand) (w : Wait) (n : Nat) (p : Pending) : (st.waitFor w n p).deadline = st.deadline := rfl
@[simp] theorem Strand.waitFor_grp (st : Strand) (w : Wait) (n : Nat) (p : Pending) : (st.waitFor w n p).grp = st.grp := rfl
@[simp] theorem Strand.waitFor_utv (st : Strand) (w : Wait) (n : Nat) (p : Pending) : (st.waitFor w n p).utv = st.utv := rfl
@[simp] theorem Strand.waitFor_utc (st : Strand) (w : Wait) (n : Nat) (p : Pending) : (st.waitFor w n p).utc = st.utc := rfl
@[simp] theorem Strand.waitFor_utpc (st : Strand) (w : Wait) (n : Nat) (p : Pending) : (st.waitFor w n p).utpc = st.utpc := rfl
@[simp] theorem Strand.waitFor_utval (st : Strand) (w : Wait) (n : Nat) (p : Pending) : (st.waitFor w n p).utval = st.utval := rfl
@[simp] theorem Strand.waitFor_migcnt (st : Strand) (w : Wait) (n : Nat) (p : Pending) : (st.waitFor w n p).migcnt = st.migcnt := rfl
@[simp] theorem Strand.waitFor_migwin (st : Strand) (w : Wait) (n : Nat) (p : Pending) : (st.waitFor w n p).migwin = st.migwin := rfl
@[simp] theorem Strand.waitFor_cOnly (st : Strand) (w : Wait) (n : Nat) (p : Pending) : (st.waitFor w n p).cOnly = true := rfl
@[simp] theorem Strand.waitFor_arrived (st : Strand) (w : Wait) (n : Nat) (p : Pending) : (st.waitFor w n p).arrived = st.arrived := rfl
@[simp] theorem Strand.waitFor_pend (st : Strand) (w : Wait) (n : Nat) (p : Pending) : (st.waitFor w n p).pend = some p := rfl
@[simp] theorem Strand.waitFor_grace (st : Strand) (w : Wait) (n : Nat) (p : Pending) : (st.waitFor w n p).grace = st.grace := rfl
@[simp] theorem Strand.waitFor_hturns (st : Strand) (w : Wait) (n : Nat) (p : Pending) : (st.waitFor w n p).hturns = st.hturns := rfl
@[simp] theorem Strand.waitFor_slice (st : Strand) (w : Wait) (n : Nat) (p : Pending) : (st.waitFor w n p).slice = st.slice := rfl
@[simp] theorem Strand.waitFor_fail (st : Strand) (w : Wait) (n : Nat) (p : Pending) : (st.waitFor w n p).fail = st.fail := rfl
@[simp] theorem Strand.waitFor_follow (st : Strand) (w : Wait) (n : Nat) (p : Pending) : (st.waitFor w n p).follow = st.follow := rfl
@[simp] theorem Strand.waitFor_v (st : Strand) (w : Wait) (n : Nat) (p : Pending) : (st.waitFor w n p).v = st.v := rfl
@[simp] theorem Strand.waitFor_watch (st : Strand) (w : Wait) (n : Nat) (p : Pending) : (st.waitFor w n p).watch = st.watch := rfl
@[simp] theorem Strand.waitFor_fired (st : Strand) (w : Wait) (n : Nat) (p : Pending) : (st.waitFor w n p).fired = st.fired := rfl
@[simp] theorem Strand.waitFor_bound (st : Strand) (w : Wait) (n : Nat) (p : Pending) : (st.waitFor w n p).bound = st.bound := rfl
@[simp] theorem Strand.waitFor_parkedAt (st : Strand) (w : Wait) (n : Nat) (p : Pending) : (st.waitFor w n p).parkedAt = n := rfl
@[simp] theorem Strand.waitFor_retries (st : Strand) (w : Wait) (n : Nat) (p : Pending) : (st.waitFor w n p).retries = st.retries := rfl
@[simp] theorem Strand.waitFor_edDue (st : Strand) (w : Wait) (n : Nat) (p : Pending) : (st.waitFor w n p).edDue = st.edDue := rfl
@[simp] theorem Strand.waitFor_foldAt (st : Strand) (w : Wait) (n : Nat) (p : Pending) : (st.waitFor w n p).foldAt = st.foldAt := rfl

@[simp] theorem Strand.swSet_sid (st : Strand) (i : Nat) (b : Bool) : (st.swSet i b).sid = st.sid := rfl
@[simp] theorem Strand.swSet_pasture (st : Strand) (i : Nat) (b : Bool) : (st.swSet i b).pasture = st.pasture := rfl
@[simp] theorem Strand.swSet_place (st : Strand) (i : Nat) (b : Bool) : (st.swSet i b).place = st.place := rfl
@[simp] theorem Strand.swSet_wait (st : Strand) (i : Nat) (b : Bool) : (st.swSet i b).wait = st.wait := rfl
@[simp] theorem Strand.swSet_stop (st : Strand) (i : Nat) (b : Bool) : (st.swSet i b).stop = st.stop := rfl
@[simp] theorem Strand.swSet_g (st : Strand) (i : Nat) (b : Bool) : (st.swSet i b).g = st.g := rfl
@[simp] theorem Strand.swSet_pc (st : Strand) (i : Nat) (b : Bool) : (st.swSet i b).pc = st.pc := rfl
@[simp] theorem Strand.swSet_sw (st : Strand) (i : Nat) (b : Bool) : (st.swSet i b).sw = setBit st.sw i b := rfl
@[simp] theorem Strand.swSet_vt (st : Strand) (i : Nat) (b : Bool) : (st.swSet i b).vt = st.vt := rfl
@[simp] theorem Strand.swSet_fmt (st : Strand) (i : Nat) (b : Bool) : (st.swSet i b).fmt = st.fmt := rfl
@[simp] theorem Strand.swSet_sca (st : Strand) (i : Nat) (b : Bool) : (st.swSet i b).sca = st.sca := rfl
@[simp] theorem Strand.swSet_scb (st : Strand) (i : Nat) (b : Bool) : (st.swSet i b).scb = st.scb := rfl
@[simp] theorem Strand.swSet_budget (st : Strand) (i : Nat) (b : Bool) : (st.swSet i b).budget = st.budget := rfl
@[simp] theorem Strand.swSet_deadline (st : Strand) (i : Nat) (b : Bool) : (st.swSet i b).deadline = st.deadline := rfl
@[simp] theorem Strand.swSet_grp (st : Strand) (i : Nat) (b : Bool) : (st.swSet i b).grp = st.grp := rfl
@[simp] theorem Strand.swSet_utv (st : Strand) (i : Nat) (b : Bool) : (st.swSet i b).utv = st.utv := rfl
@[simp] theorem Strand.swSet_utc (st : Strand) (i : Nat) (b : Bool) : (st.swSet i b).utc = st.utc := rfl
@[simp] theorem Strand.swSet_utpc (st : Strand) (i : Nat) (b : Bool) : (st.swSet i b).utpc = st.utpc := rfl
@[simp] theorem Strand.swSet_utval (st : Strand) (i : Nat) (b : Bool) : (st.swSet i b).utval = st.utval := rfl
@[simp] theorem Strand.swSet_migcnt (st : Strand) (i : Nat) (b : Bool) : (st.swSet i b).migcnt = st.migcnt := rfl
@[simp] theorem Strand.swSet_migwin (st : Strand) (i : Nat) (b : Bool) : (st.swSet i b).migwin = st.migwin := rfl
@[simp] theorem Strand.swSet_cOnly (st : Strand) (i : Nat) (b : Bool) : (st.swSet i b).cOnly = st.cOnly := rfl
@[simp] theorem Strand.swSet_arrived (st : Strand) (i : Nat) (b : Bool) : (st.swSet i b).arrived = st.arrived := rfl
@[simp] theorem Strand.swSet_pend (st : Strand) (i : Nat) (b : Bool) : (st.swSet i b).pend = st.pend := rfl
@[simp] theorem Strand.swSet_grace (st : Strand) (i : Nat) (b : Bool) : (st.swSet i b).grace = st.grace := rfl
@[simp] theorem Strand.swSet_hturns (st : Strand) (i : Nat) (b : Bool) : (st.swSet i b).hturns = st.hturns := rfl
@[simp] theorem Strand.swSet_slice (st : Strand) (i : Nat) (b : Bool) : (st.swSet i b).slice = st.slice := rfl
@[simp] theorem Strand.swSet_fail (st : Strand) (i : Nat) (b : Bool) : (st.swSet i b).fail = st.fail := rfl
@[simp] theorem Strand.swSet_follow (st : Strand) (i : Nat) (b : Bool) : (st.swSet i b).follow = st.follow := rfl
@[simp] theorem Strand.swSet_v (st : Strand) (i : Nat) (b : Bool) : (st.swSet i b).v = st.v := rfl
@[simp] theorem Strand.swSet_watch (st : Strand) (i : Nat) (b : Bool) : (st.swSet i b).watch = st.watch := rfl
@[simp] theorem Strand.swSet_fired (st : Strand) (i : Nat) (b : Bool) : (st.swSet i b).fired = st.fired := rfl
@[simp] theorem Strand.swSet_bound (st : Strand) (i : Nat) (b : Bool) : (st.swSet i b).bound = st.bound := rfl
@[simp] theorem Strand.swSet_parkedAt (st : Strand) (i : Nat) (b : Bool) : (st.swSet i b).parkedAt = st.parkedAt := rfl
@[simp] theorem Strand.swSet_retries (st : Strand) (i : Nat) (b : Bool) : (st.swSet i b).retries = st.retries := rfl
@[simp] theorem Strand.swSet_edDue (st : Strand) (i : Nat) (b : Bool) : (st.swSet i b).edDue = st.edDue := rfl
@[simp] theorem Strand.swSet_foldAt (st : Strand) (i : Nat) (b : Bool) : (st.swSet i b).foldAt = st.foldAt := rfl


/-! A write to a general register changes nothing but the registers; a write to g0 changes nothing. -/

@[simp] theorem Strand.setG_sid (st : Strand) (r : RegNo) (v : Word) : (st.setG r v).sid = st.sid := by unfold Strand.setG; split <;> rfl
@[simp] theorem Strand.setG_pasture (st : Strand) (r : RegNo) (v : Word) : (st.setG r v).pasture = st.pasture := by unfold Strand.setG; split <;> rfl
@[simp] theorem Strand.setG_place (st : Strand) (r : RegNo) (v : Word) : (st.setG r v).place = st.place := by unfold Strand.setG; split <;> rfl
@[simp] theorem Strand.setG_wait (st : Strand) (r : RegNo) (v : Word) : (st.setG r v).wait = st.wait := by unfold Strand.setG; split <;> rfl
@[simp] theorem Strand.setG_stop (st : Strand) (r : RegNo) (v : Word) : (st.setG r v).stop = st.stop := by unfold Strand.setG; split <;> rfl
@[simp] theorem Strand.setG_pc (st : Strand) (r : RegNo) (v : Word) : (st.setG r v).pc = st.pc := by unfold Strand.setG; split <;> rfl
@[simp] theorem Strand.setG_sw (st : Strand) (r : RegNo) (v : Word) : (st.setG r v).sw = st.sw := by unfold Strand.setG; split <;> rfl
@[simp] theorem Strand.setG_vt (st : Strand) (r : RegNo) (v : Word) : (st.setG r v).vt = st.vt := by unfold Strand.setG; split <;> rfl
@[simp] theorem Strand.setG_fmt (st : Strand) (r : RegNo) (v : Word) : (st.setG r v).fmt = st.fmt := by unfold Strand.setG; split <;> rfl
@[simp] theorem Strand.setG_sca (st : Strand) (r : RegNo) (v : Word) : (st.setG r v).sca = st.sca := by unfold Strand.setG; split <;> rfl
@[simp] theorem Strand.setG_scb (st : Strand) (r : RegNo) (v : Word) : (st.setG r v).scb = st.scb := by unfold Strand.setG; split <;> rfl
@[simp] theorem Strand.setG_budget (st : Strand) (r : RegNo) (v : Word) : (st.setG r v).budget = st.budget := by unfold Strand.setG; split <;> rfl
@[simp] theorem Strand.setG_deadline (st : Strand) (r : RegNo) (v : Word) : (st.setG r v).deadline = st.deadline := by unfold Strand.setG; split <;> rfl
@[simp] theorem Strand.setG_grp (st : Strand) (r : RegNo) (v : Word) : (st.setG r v).grp = st.grp := by unfold Strand.setG; split <;> rfl
@[simp] theorem Strand.setG_utv (st : Strand) (r : RegNo) (v : Word) : (st.setG r v).utv = st.utv := by unfold Strand.setG; split <;> rfl
@[simp] theorem Strand.setG_utc (st : Strand) (r : RegNo) (v : Word) : (st.setG r v).utc = st.utc := by unfold Strand.setG; split <;> rfl
@[simp] theorem Strand.setG_utpc (st : Strand) (r : RegNo) (v : Word) : (st.setG r v).utpc = st.utpc := by unfold Strand.setG; split <;> rfl
@[simp] theorem Strand.setG_utval (st : Strand) (r : RegNo) (v : Word) : (st.setG r v).utval = st.utval := by unfold Strand.setG; split <;> rfl
@[simp] theorem Strand.setG_migcnt (st : Strand) (r : RegNo) (v : Word) : (st.setG r v).migcnt = st.migcnt := by unfold Strand.setG; split <;> rfl
@[simp] theorem Strand.setG_migwin (st : Strand) (r : RegNo) (v : Word) : (st.setG r v).migwin = st.migwin := by unfold Strand.setG; split <;> rfl
@[simp] theorem Strand.setG_cOnly (st : Strand) (r : RegNo) (v : Word) : (st.setG r v).cOnly = st.cOnly := by unfold Strand.setG; split <;> rfl
@[simp] theorem Strand.setG_arrived (st : Strand) (r : RegNo) (v : Word) : (st.setG r v).arrived = st.arrived := by unfold Strand.setG; split <;> rfl
@[simp] theorem Strand.setG_pend (st : Strand) (r : RegNo) (v : Word) : (st.setG r v).pend = st.pend := by unfold Strand.setG; split <;> rfl
@[simp] theorem Strand.setG_grace (st : Strand) (r : RegNo) (v : Word) : (st.setG r v).grace = st.grace := by unfold Strand.setG; split <;> rfl
@[simp] theorem Strand.setG_hturns (st : Strand) (r : RegNo) (v : Word) : (st.setG r v).hturns = st.hturns := by unfold Strand.setG; split <;> rfl
@[simp] theorem Strand.setG_slice (st : Strand) (r : RegNo) (v : Word) : (st.setG r v).slice = st.slice := by unfold Strand.setG; split <;> rfl
@[simp] theorem Strand.setG_fail (st : Strand) (r : RegNo) (v : Word) : (st.setG r v).fail = st.fail := by unfold Strand.setG; split <;> rfl
@[simp] theorem Strand.setG_follow (st : Strand) (r : RegNo) (v : Word) : (st.setG r v).follow = st.follow := by unfold Strand.setG; split <;> rfl
@[simp] theorem Strand.setG_v (st : Strand) (r : RegNo) (v : Word) : (st.setG r v).v = st.v := by unfold Strand.setG; split <;> rfl
@[simp] theorem Strand.setG_watch (st : Strand) (r : RegNo) (v : Word) : (st.setG r v).watch = st.watch := by unfold Strand.setG; split <;> rfl
@[simp] theorem Strand.setG_fired (st : Strand) (r : RegNo) (v : Word) : (st.setG r v).fired = st.fired := by unfold Strand.setG; split <;> rfl
@[simp] theorem Strand.setG_bound (st : Strand) (r : RegNo) (v : Word) : (st.setG r v).bound = st.bound := by unfold Strand.setG; split <;> rfl
@[simp] theorem Strand.setG_parkedAt (st : Strand) (r : RegNo) (v : Word) : (st.setG r v).parkedAt = st.parkedAt := by unfold Strand.setG; split <;> rfl
@[simp] theorem Strand.setG_retries (st : Strand) (r : RegNo) (v : Word) : (st.setG r v).retries = st.retries := by unfold Strand.setG; split <;> rfl
@[simp] theorem Strand.setG_edDue (st : Strand) (r : RegNo) (v : Word) : (st.setG r v).edDue = st.edDue := by unfold Strand.setG; split <;> rfl
@[simp] theorem Strand.setG_foldAt (st : Strand) (r : RegNo) (v : Word) : (st.setG r v).foldAt = st.foldAt := by unfold Strand.setG; split <;> rfl

end Sys2Proof.Machine
end

