-- ==== Sys2Proof/Laws/Memory.lean ====
section
/-! SUPPORT. Memory: reading after a write, and that every operation over memory keeps its canonical form. -/

namespace Sys2Proof.Machine

open Sys2Proof

/-! ### Lists of bytes -/

theorem Memory.wfFrom_cons (lo k : Nat) (b : Byte) (r : Memory) :
    Memory.wfFrom lo ((k, b) :: r) = true ↔ lo ≤ k ∧ b ≠ 0 ∧ Memory.wfFrom (k + 1) r = true := by
  rw [Memory.wfFrom, Bool.and_eq_true, Bool.and_eq_true, decide_eq_true_eq, bne_iff_ne, and_assoc]

theorem Memory.wfFrom_mono {lo hi : Nat} {m : Memory} (h : Memory.wfFrom hi m = true) (hl : lo ≤ hi) :
    Memory.wfFrom lo m = true := by
  cases m with
  | nil => rfl
  | cons c r =>
    obtain ⟨k, b⟩ := c
    rw [Memory.wfFrom_cons] at h ⊢
    exact ⟨by omega, h.2⟩

/-- Below the first address that a list may hold, memory reads 0. -/
theorem memGet_of_lt {lo a : Nat} {m : Memory} (h : Memory.wfFrom lo m = true) (ha : a < lo) : memGet m a = 0 := by
  induction m generalizing lo with
  | nil => rfl
  | cons c r ih =>
    obtain ⟨k, b⟩ := c
    rw [Memory.wfFrom_cons] at h
    rw [memGet, if_neg (by omega)]
    exact ih h.2.2 (by omega)

theorem memSet_wfFrom {lo a : Nat} {m : Memory} (b : Byte) (h : Memory.wfFrom lo m = true) (ha : lo ≤ a) :
    Memory.wfFrom lo (memSet m a b) = true := by
  induction m generalizing lo with
  | nil =>
    unfold memSet
    split
    · rfl
    · rename_i hb; exact (Memory.wfFrom_cons _ _ _ _).mpr ⟨ha, hb, rfl⟩
  | cons c r ih =>
    obtain ⟨k, c⟩ := c
    have h0 := h
    rw [Memory.wfFrom_cons] at h
    obtain ⟨h1, h2, h3⟩ := h
    rw [memSet]
    by_cases hk : a = k
    · subst hk
      by_cases hb : b = 0
      · rw [if_pos rfl, if_pos hb]; exact Memory.wfFrom_mono h3 (by omega)
      · rw [if_pos rfl, if_neg hb]; exact (Memory.wfFrom_cons _ _ _ _).mpr ⟨h1, hb, h3⟩
    · rw [if_neg hk]
      by_cases hlt : a < k
      · by_cases hb : b = 0
        · rw [if_pos hlt, if_pos hb]; exact h0
        · rw [if_pos hlt, if_neg hb]
          exact (Memory.wfFrom_cons _ _ _ _).mpr ⟨ha, hb, (Memory.wfFrom_cons _ _ _ _).mpr ⟨hlt, h2, h3⟩⟩
      · rw [if_neg hlt]
        exact (Memory.wfFrom_cons _ _ _ _).mpr ⟨h1, h2, ih h3 (by omega)⟩

/-- A write of one byte keeps the canonical form. -/
theorem memSet_wf {m : Memory} (a : Nat) (b : Byte) (h : m.wf = true) : (memSet m a b).wf = true :=
  memSet_wfFrom b h (Nat.zero_le a)

theorem memGet_memSet_from {lo : Nat} {m : Memory} (a c : Nat) (b : Byte) (h : Memory.wfFrom lo m = true) :
    memGet (memSet m a b) c = if c = a then b else memGet m c := by
  induction m generalizing lo with
  | nil =>
    unfold memSet
    split
    · rename_i hb; split <;> simp [memGet, hb]
    · simp only [memGet, eq_comm]
  | cons e r ih =>
    obtain ⟨k, x⟩ := e
    obtain ⟨-, -, h3⟩ := (Memory.wfFrom_cons _ _ _ _).mp h
    rw [memSet]
    by_cases hk : a = k
    · subst hk
      by_cases hb : b = 0
      · rw [if_pos rfl, if_pos hb]
        by_cases hc : c = a
        · rw [if_pos hc, hc, hb]; exact memGet_of_lt h3 (by omega)
        · rw [if_neg hc, memGet, if_neg (Ne.symm hc)]
      · rw [if_pos rfl, if_neg hb, memGet]
        by_cases hc : c = a
        · rw [if_pos hc.symm, if_pos hc]
        · rw [if_neg (Ne.symm hc), if_neg hc, memGet, if_neg (Ne.symm hc)]
    · rw [if_neg hk]
      by_cases hlt : a < k
      · by_cases hb : b = 0
        · rw [if_pos hlt, if_pos hb]
          by_cases hc : c = a
          · rw [if_pos hc, hc, memGet, if_neg (Ne.symm hk), hb]; exact memGet_of_lt h3 (by omega)
          · rw [if_neg hc]
        · rw [if_pos hlt, if_neg hb, memGet]
          by_cases hc : c = a
          · rw [if_pos hc.symm, if_pos hc]
          · rw [if_neg (Ne.symm hc), if_neg hc]
      · rw [if_neg hlt, memGet, memGet, ih h3]
        by_cases hkc : k = c
        · rw [if_pos hkc, if_pos hkc, if_neg (by omega)]
        · rw [if_neg hkc, if_neg hkc]

/-- One byte read after a write of one byte. -/
theorem memGet_memSet {m : Memory} (a c : Nat) (b : Byte) (h : m.wf = true) :
    memGet (memSet m a b) c = if c = a then b else memGet m c :=
  memGet_memSet_from a c b h

/-- A write of bytes keeps the canonical form. -/
theorem memPut_wf {m : Memory} (a : Nat) (bs : List Byte) (h : m.wf = true) : (memPut m a bs).wf = true := by
  induction bs generalizing m a with
  | nil => exact h
  | cons b r ih => exact ih (a + 1) (memSet_wf a b h)

/-- A write of bytes leaves every other byte alone. -/
theorem memGet_memPut_other {m : Memory} (a c : Nat) (bs : List Byte) (h : m.wf = true) (hc : c < a ∨ a + bs.length ≤ c) :
    memGet (memPut m a bs) c = memGet m c := by
  induction bs generalizing m a with
  | nil => rfl
  | cons b r ih =>
    simp only [List.length_cons] at hc
    rw [memPut, ih (a + 1) (memSet_wf a b h) (by omega), memGet_memSet a c b h, if_neg (by omega)]

/-- A byte that was written is read back. -/
theorem memGet_memPut_self {m : Memory} (a i : Nat) (bs : List Byte) (h : m.wf = true) (hi : i < bs.length) :
    memGet (memPut m a bs) (a + i) = bs[i] := by
  induction bs generalizing m a i with
  | nil => simp at hi
  | cons b r ih =>
    rw [memPut]
    cases i with
    | zero => rw [memGet_memPut_other _ _ _ (memSet_wf a b h) (by omega), memGet_memSet a _ b h, if_pos (by omega)]; rfl
    | succ j =>
      have := ih (a + 1) j (memSet_wf a b h) (by simpa using hi)
      rw [show a + (j + 1) = a + 1 + j by omega, this]; rfl

/-- Dropping bytes keeps the canonical form. -/
theorem filter_wf {m : Memory} (p : Host.Cell → Bool) (h : m.wf = true) : Memory.wf (m.filter p) = true := by
  suffices H : ∀ (l : Memory) lo, Memory.wfFrom lo l = true → Memory.wfFrom lo (l.filter p) = true from H m 0 h
  intro l
  induction l with
  | nil => intro lo _; rfl
  | cons c r ih =>
    obtain ⟨k, b⟩ := c
    intro lo hl
    rw [Memory.wfFrom_cons] at hl
    rw [List.filter_cons]
    split
    · exact (Memory.wfFrom_cons _ _ _ _).mpr ⟨hl.1, hl.2.1, ih _ hl.2.2⟩
    · exact Memory.wfFrom_mono (ih _ hl.2.2) (by omega)

/-- A fold whose every step keeps a property keeps it. -/
theorem foldl_keeps {α β : Type} {P : β → Prop} {f : β → α → β} (hf : ∀ b a, P b → P (f b a)) (l : List α) {b : β} (hb : P b) :
    P (l.foldl f b) := by
  induction l generalizing b with
  | nil => exact hb
  | cons a r ih => exact ih (hf b a hb)

/-! ### Operations over the state -/

/-- Memory is in its canonical form. -/
abbrev State.memWf (s : State) : Prop := s.mem.wf = true

/-- What changes no byte keeps the form. -/
theorem State.memWf_of_eq {s t : State} (h : t.mem = s.mem) (hs : s.memWf) : t.memWf := by
  unfold State.memWf; rw [h]; exact hs

@[simp] theorem State.updPas_mem (s : State) (p : Nat) (f : Pasture → Pasture) : (s.updPas p f).mem = s.mem := by
  unfold State.updPas; split <;> rfl
@[simp] theorem State.supervise_mem (s : State) (p : Nat) (e : SvEvent) : (s.supervise p e).mem = s.mem := rfl
@[simp] theorem State.updSv_mem (s : State) (f : Sv → Sv) : (s.updSv f).mem = s.mem := by
  unfold State.updSv; split <;> rfl
@[simp] theorem State.park_mem (s : State) (w : Wait) : (s.park w).mem = s.mem := rfl
@[simp] theorem State.stall_mem (s : State) (w : Wait) : (s.stall w).mem = s.mem := rfl

theorem State.foldl_wake_mem (ws : List Nat) (s : State) : (ws.foldl State.wake s).mem = s.mem := by
  induction ws generalizing s with
  | nil => rfl
  | cons w r ih => rw [List.foldl_cons, ih, State.wake_mem]

/-- A store changes memory as a write of its bytes. -/
@[simp] theorem State.store_mem (s : State) (a : Nat) (bs : List Byte) : (s.store a bs).mem = memPut s.mem a bs := by
  unfold State.store; rw [State.foldl_wake_mem]; rfl
@[simp] theorem State.st_mem (s : State) (a n v : Nat) : (s.st a n v).mem = memPut s.mem a (leBytes n v) := by
  unfold State.st; rw [State.store_mem]

theorem State.poke_wf {s : State} (a : Nat) (bs : List Byte) (h : s.memWf) : (s.poke a bs).memWf := memPut_wf a bs h
theorem State.store_wf {s : State} (a : Nat) (bs : List Byte) (h : s.memWf) : (s.store a bs).memWf := by
  unfold State.memWf; rw [State.store_mem]; exact memPut_wf a bs h
theorem State.st_wf {s : State} (a n v : Nat) (h : s.memWf) : (s.st a n v).memWf := State.store_wf a _ h

/-- Correcting errors writes no byte. -/
@[simp] theorem State.correct_mem (s : State) (a n : Nat) : (s.correct a n).mem = s.mem := by
  unfold State.correct
  generalize s.corr.filter (fun w => (wordsOf a n).contains w) = l
  induction l using List.reverseRecOn with
  | nil => rfl
  | append_singleton r w ih => rw [List.foldl_concat]; exact ih
theorem State.correct_wf {s : State} (a n : Nat) (h : s.memWf) : (s.correct a n).memWf := State.memWf_of_eq (s.correct_mem a n) h

theorem State.stWord_wf {s : State} (a n v : Nat) (h : s.memWf) : (s.stWord a n v).memWf := by
  unfold State.stWord
  split
  · exact State.st_wf a n v h
  · exact State.st_wf a n v (State.correct_wf a n h)

theorem State.doWaiter_wf {s : State} (w : FeWaiter) (h : s.memWf) : (s.doWaiter w).memWf := by
  have hc := State.correct_wf w.pa 8 h
  unfold State.doWaiter
  split
  · exact h
  · dsimp only
    split
    · exact State.memWf_of_eq rfl (State.st_wf (s := s.correct w.pa 8) w.pa 8 w.val.toNat hc)
    · split
      · exact hc
      · exact hc

theorem State.drainFe_wf {s : State} (t pa n : Nat) (h : s.memWf) : (s.drainFe t pa n).memWf := by
  induction n generalizing s with
  | zero => exact h
  | succ n ih =>
    rw [State.drainFe]
    split
    · exact h
    · exact ih (State.doWaiter_wf _ h)

theorem State.fillFe_wf {s : State} (pa : Nat) (h : s.memWf) : (s.fillFe pa).memWf := State.drainFe_wf _ _ _ h

/-- A reservation's delivery writes no byte. -/
@[simp] theorem State.deliver_mem (s : State) (t pa : Nat) (sid : Word) (d : RegNo) : (s.deliver t pa sid d).mem = s.mem := by
  unfold State.deliver
  split
  · rfl
  · split
    · rw [State.bump_mem, State.onStrand_mem, State.correct_mem]
    · rfl
theorem State.drainResv_mem (s : State) (t n : Nat) : (s.drainResv t n).mem = s.mem := by
  induction n generalizing s with
  | zero => rfl
  | succ n ih =>
    rw [State.drainResv]
    split
    · rfl
    · split
      · rw [ih]; rfl
      · split
        · rw [ih, State.deliver_mem]; rfl
        · rfl

@[simp] theorem State.release_mem (s : State) (t : Nat) (sid : Word) : (s.release t sid).mem = s.mem := by
  unfold State.release
  split
  · rfl
  · split
    · rw [State.deliver_mem]; rfl
    · rw [State.drainResv_mem]; rfl

/-! ### Event records -/

theorem State.writeRecord_wf {s : State} (p : Nat) (r : List Byte) (h : s.memWf) : (s.writeRecord p r).memWf := by
  unfold State.writeRecord
  exact State.memWf_of_eq (State.updPas_mem _ _ _) (State.poke_wf _ _ h)

theorem State.postRecord_wf {s : State} (p : Nat) (r : List Byte) (h : s.memWf) : (s.postRecord p r).memWf := by
  unfold State.postRecord
  simp only
  split
  · exact h
  · split
    · split
      · exact State.memWf_of_eq (State.updPas_mem _ _ _) h
      · exact State.memWf_of_eq (State.updPas_mem _ _ _) h
    · exact State.writeRecord_wf p r h

theorem State.post_wf {s : State} (p t code cls wh : Nat) (sid val : Word) (h : s.memWf) :
    (s.post p t code cls wh sid val).memWf := State.postRecord_wf _ _ h

theorem State.pastureEvent_wf {s : State} (p t code cls wh : Nat) (sid val : Word) (h : s.memWf) :
    (s.pastureEvent p t code cls wh sid val).memWf := by
  unfold State.pastureEvent
  exact State.post_wf (s := s.takeFree.2) p t code cls wh sid val h

/-! ### Traps -/

@[simp] theorem State.escalate_mem (s : State) (cause : Nat) (spc val : Word) (conly : Bool) :
    (s.escalate cause spc val conly).mem = s.mem := rfl

theorem State.ctlFault_wf {s : State} (p c cause : Nat) (val : Word) (h : s.memWf) : (s.ctlFault p c cause val).memWf := by
  unfold State.ctlFault
  split
  · by_cases hh : ((s.updCtl p c (fun k => { k with sv := { k.sv with halted := true } })).ctl p (1 - c)).sv.halted
    all_goals
      simp only [hh, if_true, if_false, Bool.false_eq_true]
      split
      · exact State.pastureEvent_wf _ _ _ _ _ _ _ h
      · exact h
  · exact h

/-- The event of a memory error writes at most its record. -/
theorem State.memEvent_wf {s : State} (val : Word) (h : s.memWf) : (s.memEvent val).memWf := by
  unfold State.memEvent
  simp only
  split
  · cases s.pasOfPaddock _ with
    | none => exact h
    | some q => exact State.post_wf _ _ _ _ _ _ _ h
  · exact State.post_wf _ _ _ _ _ _ _ h

/-- Entering a handler writes nothing; a controller's fault writes at most an event record. -/
theorem State.takeTrap_wf {s : State} (slotA : Bool) (cause : Nat) (val : Word) (h : s.memWf) :
    (s.takeTrap slotA cause val).memWf := by
  unfold State.takeTrap
  simp only
  split
  · exact State.memWf_of_eq (State.upd_mem _ _) (State.ctlFault_wf _ _ _ _ h)
  · split
    · exact h
    · exact h

/-- Taking a trap writes at most an event record. -/
theorem State.trapAt_wf {s : State} (slotA : Bool) (cause : Nat) (val : Word) (h : s.memWf) :
    (s.trapAt slotA cause val).memWf := by
  unfold State.trapAt
  split
  · exact State.takeTrap_wf _ _ _ (State.memEvent_wf val h)
  · exact State.takeTrap_wf _ _ _ h

theorem State.trapC_wf {s : State} (cause : Nat) (val : Word) (h : s.memWf) : (s.trapC cause val).memWf :=
  State.trapAt_wf _ _ _ h
theorem State.trapFree_wf {s : State} (cause : Nat) (h : s.memWf) : (s.trapFree cause).memWf :=
  State.trapC_wf (s := s.takeFree.2) _ _ h

/-! ### Discard, reset, moved pages, placing -/

theorem State.discardLine_wf {s : State} (line : Nat) (h : s.memWf) : (s.discardLine line).memWf := by
  unfold State.discardLine
  simp only
  refine foldl_keeps (P := State.memWf) (fun b a hb => State.fillFe_wf a hb) _ ?_
  have hf : ∀ l : List Undo, (l.foldl (fun (s : State) u => { s with
      mem := memPut s.mem (8 * u.word) (leBytes 8 u.old.toNat)
      code := s.code.map (CodeMap.note s.mem (8 * u.word) 8)
      empties := if u.full then s.empties.filter (· != u.word) else ninsert s.empties u.word }) s).memWf :=
    fun l => foldl_keeps (P := State.memWf) (fun b a hb => memPut_wf (8 * a.word) _ hb) l h
  split <;> exact hf _

theorem State.discardAt_wf {s : State} (key len : Nat) (h : s.memWf) : (s.discardAt key len).memWf := by
  unfold State.discardAt
  split
  · refine foldl_keeps (P := State.memWf) (fun b a hb => ?_) _ h
    split
    · exact State.discardLine_wf a hb
    · exact hb
  · exact h

theorem State.zeroFill_wf {s : State} (p : Nat) (h : s.memWf) : (s.zeroFill p).memWf := filter_wf _ h

theorem State.copyPages_wf {s : State} (pl : Plan) (h : s.memWf) : (s.copyPages pl).memWf :=
  foldl_keeps (P := fun m : Memory => m.wf = true) (fun _ c hm => memSet_wf (pl.place c.1) c.2 hm) _ (filter_wf _ h)

theorem execPowerOn_wf {s t : State} (h : s.memWf) (ht : execPowerOn s = .next t) : t.memWf := by
  cases ht
  refine foldl_keeps (P := fun m : Memory => m.wf = true) (fun m p hm => ?_) _ (filter_wf _ h)
  split
  · exact memPut_wf _ _ hm
  · exact hm

theorem State.place_wf {s : State} (n w : Nat) (h : s.memWf) : (s.place n w).memWf := by
  unfold State.place
  simp only
  split
  · exact memPut_wf _ _ h
  · split <;> exact memPut_wf _ _ h

/-- Memory after reset has the canonical form. -/
theorem State.reset_memWf : State.reset.memWf := rfl

end Sys2Proof.Machine
end

