-- ==== Sys2Proof/Laws/Ops.lean ====
section
/-! SUPPORT. What each shared operation can do, said once: registers, tables, translation, accesses, flags and traps. -/

namespace Sys2Proof.Machine

open Sys2Proof

/-! ### Registers (R12, R48) -/

@[simp] theorem Strand.gr_zero (st : Strand) : st.gr 0 = 0 := rfl
@[simp] theorem Strand.setG_zero (st : Strand) (v : Word) : st.setG 0 v = st := rfl

/-- What every register reads after a write to one. -/
theorem Strand.gr_setG (st : Strand) (d r : RegNo) (v : Word) :
    (st.setG d v).gr r = if r = d then (if d = 0 then 0 else v) else st.gr r := by
  by_cases hd : d = 0
  · subst hd
    rw [Strand.setG_zero]
    by_cases hr : r = 0
    · subst hr; rw [if_pos rfl, if_pos rfl, Strand.gr_zero]
    · rw [if_neg hr]
  · unfold Strand.setG Strand.gr
    rw [if_neg hd, if_neg hd]
    by_cases hr : r = 0
    · rw [if_pos hr, if_pos hr, if_neg (show ¬ r = d from fun e => hd (e.symm.trans hr))]
    · rw [if_neg hr, if_neg hr]
      by_cases h : r = d
      · subst h; rw [if_pos rfl]; exact Vector.getElem_set_self _
      · rw [if_neg h]; exact Vector.getElem_set_ne d.isLt r.isLt (fun e => h (BitVec.eq_of_toNat_eq e.symm))

/-- Writing a register is RegSet. -/
theorem RegSet.setG (st : Strand) (d : RegNo) (v : Word) : RegSet st (st.setG d v) d v :=
  ⟨by rw [Strand.gr_setG, if_pos rfl], fun r hr => by rw [Strand.gr_setG, if_neg hr]⟩

/-! ### Tables -/

theorem tget_tset {α : Type} (t : Tbl α) (i j : Nat) (a d : α) : tget (tset t i a) j d = if j = i then a else tget t j d := by
  induction t with
  | nil => simp only [tset, tget, eq_comm]
  | cons e r ih =>
    obtain ⟨k, b⟩ := e
    rw [tset]
    by_cases hk : i = k
    · subst hk
      rw [if_pos rfl, tget]
      by_cases hj : i = j
      · rw [if_pos hj, if_pos hj.symm]
      · rw [if_neg hj, if_neg (Ne.symm hj), tget, if_neg hj]
    · rw [if_neg hk]
      by_cases hlt : i < k
      · rw [if_pos hlt, tget]
        by_cases hj : i = j
        · rw [if_pos hj, if_pos hj.symm]
        · rw [if_neg hj, if_neg (Ne.symm hj)]
      · rw [if_neg hlt, tget, tget, ih]
        by_cases hj : k = j
        · rw [if_pos hj, if_pos hj, if_neg (by omega)]
        · rw [if_neg hj, if_neg hj]

/-- A tile read after a tile has changed. -/
theorem State.tl_updTl (s : State) (t u : Nat) (f : Tile → Tile) : (s.updTl t f).tl u = if u = t then f (s.tl t) else s.tl u :=
  tget_tset _ _ _ _ _

/-- A paddock read after a paddock has changed. -/
theorem State.pad_updPad (s : State) (p q : Nat) (f : Paddock → Paddock) :
    (s.updPad p f).pad q = if q = p then f (s.pad p) else s.pad q := tget_tset _ _ _ _ _

/-! ### Translation (R21, R63, R177, R178) -/

/-- A misaligned access is ALIGN. -/
theorem State.withAligned_misaligned {s : State} {va : Word} {n : Nat} {need : Need} {k : State → Nat → State}
    (h : va.toNat % n ≠ 0) : s.withAligned va n need k = s.trapC cAlign va := by
  unfold State.withAligned; rw [if_pos (by simpa using h)]

/-- An aligned one is translated. -/
theorem State.withAligned_aligned {s : State} {va : Word} {n : Nat} {need : Need} {k : State → Nat → State}
    (h : va.toNat % n = 0) : s.withAligned va n need k = s.withPa va need k := by
  unfold State.withAligned; rw [if_neg (by simp [h])]

/-- Everything a strand's translation can do: XLATE for bits [63:56], a miss, the trap of the entry, or the access goes on. -/
theorem State.withPa_cases {s : State} (va : Word) (n : Need) (k : State → Nat → State) (hu : s.x.me.isCtl = false) :
    (nfield va.toNat 56 8 ≠ 0 ∧ s.withPa va n k = s.trapC cXlate va)
    ∨ (tlbFind (s.tl s.here).tlb s.x.me.pasture va.toNat = none ∧ s.withPa va n k = s.missAt va)
    ∨ (∃ e c, tlbFind (s.tl s.here).tlb s.x.me.pasture va.toNat = some e
        ∧ s.checkEntry s.x.me.pasture e va.toNat n = .inr c ∧ s.withPa va n k = s.trapC c va)
    ∨ (∃ pa, mapsTo s va n pa = true ∧ s.withPa va n k = k s pa) := by
  unfold State.withPa State.withXlate State.xlateAt
  simp only [hu, Bool.false_eq_true, if_false]
  by_cases h : nfield va.toNat 56 8 = 0
  · cases ht : tlbFind (s.tl s.here).tlb s.x.me.pasture va.toNat with
    | none => exact .inr (.inl ⟨rfl, by simp [h]⟩)
    | some e =>
      cases hc : s.checkEntry s.x.me.pasture e va.toNat n with
      | inl pa => exact .inr (.inr (.inr ⟨pa, by simp [mapsTo, hu, h, ht, hc], by simp [h, hc]⟩))
      | inr c => exact .inr (.inr (.inl ⟨e, c, rfl, hc, by simp [h, hc]⟩))
  · exact .inl ⟨h, by simp [h]⟩

/-- What mapsTo says: the translation that the strand's tile has at hand. -/
theorem State.xlateAt_maps {s : State} {va : Word} {n : Need} {pa : Nat} (h : mapsTo s va n pa = true) :
    s.x.me.isCtl = false ∧ s.xlateAt s.x.me.pasture s.here va n = some (.inl pa) := by
  unfold mapsTo at h
  unfold State.xlateAt
  simp only [Bool.and_eq_true, Bool.not_eq_true', beq_iff_eq] at h
  obtain ⟨⟨hu, hz⟩, h⟩ := h
  refine ⟨hu, ?_⟩
  simp only [hz, bne_self_eq_false, Bool.false_eq_true, if_false]
  cases ht : tlbFind (s.tl s.here).tlb s.x.me.pasture va.toNat with
  | none => simp [ht] at h
  | some e =>
    simp only [ht] at h
    cases hc : s.checkEntry s.x.me.pasture e va.toNat n with
    | inl q => simp only [hc, beq_iff_eq] at h; simp [hc, h]
    | inr c => simp [hc] at h

/-- A mapped address goes on with its translation. -/
theorem State.withXlate_maps {s : State} {va : Word} {n : Need} {k : State → Nat ⊕ Nat → State} {pa : Nat}
    (h : mapsTo s va n pa = true) : s.withXlate va n k = k s (.inl pa) := by
  obtain ⟨hu, hx⟩ := State.xlateAt_maps h
  unfold State.withXlate
  simp [hu, hx]

/-- A mapped address goes on with its physical address. -/
theorem State.withPa_maps {s : State} {va : Word} {n : Need} {k : State → Nat → State} {pa : Nat}
    (h : mapsTo s va n pa = true) : s.withPa va n k = k s pa := by
  unfold State.withPa; rw [State.withXlate_maps h]

/-! ### Local accesses (R95, R100, R181, R213, R214) -/

/-- With no hold on it, a local access goes on. -/
theorem State.withLocal_free {s : State} {pa n : Nat} {k : State → State} (h1 : s.seqHolds pa n = false)
    (h2 : s.bankHolds (localOf pa) n = false) : s.withLocal pa n k = k s := by
  unfold State.withLocal; simp [h1, h2]

/-- What isLocal says, part by part. -/
theorem isLocal_parts {s : State} {pa n : Nat} (h : isLocal s pa n = true) :
    s.homeOf pa = .tile s.here ∧ s.seqHolds pa n = false ∧ s.bankHolds (localOf pa) n = false
      ∧ s.badAt (localOf pa) n = false := by
  unfold isLocal at h
  simp only [Bool.and_eq_true, beq_iff_eq, Bool.not_eq_true'] at h
  exact ⟨h.1.1.1, h.1.1.2, h.1.2, h.2⟩

/-- A local read goes on with the bytes at the address. -/
theorem State.readOp_local {s : State} {addr : Word} {pa n : Nat} {only : Bool} {r : Req} {k : State → Nat → State}
    (hu : s.x.me.isCtl = false) (h : isLocal s pa n = true) :
    s.readOp addr pa n only r k = k (s.correct (localOf pa) n) (s.rd (localOf pa) n) := by
  obtain ⟨h1, h2, h3, h4⟩ := isLocal_parts h
  unfold State.readOp
  rw [h1]
  have hh : s.isHere s.here = true := by simp [State.isHere, hu]
  simp only [hh, if_true]
  rw [State.withLocal_free h2 h3, h4]
  rfl

/-- A local write stores its bytes and goes on. -/
theorem State.writeOp_local {s : State} {addr : Word} {pa n v : Nat} {k : State → State} (hu : s.x.me.isCtl = false)
    (h : isLocal s pa n = true) : s.writeOp addr pa n v k = k (s.stWord (localOf pa) n v) := by
  obtain ⟨h1, h2, h3, h4⟩ := isLocal_parts h
  unfold State.writeOp
  rw [h1]
  have hh : s.isHere s.here = true := by simp [State.isHere, hu]
  simp only [hh, if_true]
  rw [State.withLocal_free h2 h3, h4]
  simp

/-- A read that meets no correctable error changes nothing. -/
theorem State.correct_clean {s : State} {a n : Nat} (h : clean s a n = true) : s.correct a n = s := by
  unfold State.correct
  have : s.corr.filter (fun w => (wordsOf a n).contains w) = [] := by
    rw [List.filter_eq_nil_iff]
    intro w hw
    have := List.all_eq_true.mp h w hw
    simpa using this
  rw [this]; rfl

/-! ### Flags (R122) -/

/-- Everything the end of a floating-point instruction can do: the trap FP, or the result and the flags. -/
theorem State.withFlags_cases (s : State) (f : Flags) (k : State → State) :
    (f &&& s.x.src.te ≠ 0 ∧ s.withFlags f k = s.trapAt true cFp (zx f))
    ∨ (f &&& s.x.src.te = 0 ∧ s.withFlags f k = (let t := (k s).upd (fun st => st.orFlags f)
        { t with x := { t.x with aflags := t.x.aflags ||| f } })) := by
  unfold State.withFlags
  by_cases h : f &&& s.x.src.te = 0
  · exact .inr ⟨h, by simp [h]⟩
  · exact .inl ⟨h, by rw [if_pos (by simpa using h)]⟩

/-! ### Traps (R149, R150) -/

/-- The marks of a strand whose trap enters its handler. -/
def takesHandler (st : Strand) (cause : Nat) : Bool :=
  !st.isCtl && !st.hslot && !st.inTrap && st.utv != 0 && cause != cHandlerBudget && cause != cHandlerPark

/-- A trap of such a strand enters the handler. -/
theorem State.trapAt_handler {s : State} {slotA : Bool} {cause : Nat} {val : Word}
    (h : takesHandler s.x.me cause = true) (hm : cause ≠ cMemerr) :
    s.trapAt slotA cause val
      = (({ s with x := { s.x with trap := some { cause := cause, val := val } } } : State).dropFollowers s.x.me.sid).upd
          (fun st => st.enterTrap slotA s.x.aDone cause val) := by
  simp only [takesHandler, Bool.and_eq_true, Bool.not_eq_true', bne_iff_ne, ne_eq] at h
  obtain ⟨⟨⟨⟨⟨hc, hh⟩, hi⟩, hu⟩, h1⟩, h2⟩ := h
  unfold State.trapAt State.takeTrap
  simp only [if_neg hm]
  split
  · rename_i he; simp [Strand.isCtl, he] at hc
  · rw [if_neg (by rw [beq_eq_false_iff_ne.mpr hu]; simp [hh, hi, h1, h2])]

end Sys2Proof.Machine
end

