-- ==== Sys2Proof/Tests/Slice0.lean ====
section
/-! SUPPORT. Decoding tests: the example words that the spec prints, and words written field by field from its formats and maps
(R44 to R49, R64 to R70); every constructor that has a word appears. Words that are refused, and an ill-formed term for each
check of WellFormed. Then the small states of the tests, and tests of the integer and control instructions: for every statement a
state and operands that meet its hypotheses, with what the statement then says. The values expected come from the rules named. -/

set_option Elab.async false

namespace Sys2Proof.Tests

open Sys2Proof Sys2Proof.Machine

/-- Every word of a list decodes to the instruction beside it, which is well formed. -/
def reads (f : Nat → Except Reject Instr) (l : List (Nat × Instr)) : Bool :=
  l.all (fun p => match f p.1 with | .ok i => decide (i = p.2) && i.wf | .error _ => false)

theorem test_words_control : reads decodeC [
    (0, .nopC), (0x00400200, .csrr 2 0x00), (0x01C00212, .csrr 14 0x12), (0x00E00202, .csrr 7 0x02),
    (0x00800282, .csrr 4 0x82), (0x00040410, .csrw 2 0x10), (0x001C0412, .csrw 14 0x12),
    (0x00040480, .csrw 2 0x80), (0b0_000000_0101_0000_0000_0011_000000000, .time 5), (0x00000805, .trap 5),
    (0x00000A00, .udecline), (0x00000C00, .uret), (0x00040E00, .follow 2), (0x00001000, .leave),
    (0b0_000000_0000_0110_0000_1001_000000000, .jr 6), (0b0_000000_0000_0000_0000_1010_000000000, .ret),
    (0b0_000000_0101_0110_0000_1011_000000000, .homeof 5 6), (0x02CC0040, .lea 6 6 64),
    (0b0_000010_1111111111111111111111101, .br (-3)), (0b0_000011_1001000110100010101100111, .call 0x1234567),
    (0x0824BFFD, .brc 1 2 2 (-3)), (0x0802BFFF, .brc 0 1 2 (-1)),
    (0b0_000101_0011_0100_101_11_000000000000, .cmps 3 4 5 3), (0x0C602000, .cmpsi 3 0 2 0),
    (0b0_000111_0101_0110_11111111111111000, .brl 5 6 (-8))] = true := by decide +kernel

theorem test_words_memory : reads decodeC [
    (0x10A8C002, .ld 5 4 3 2), (0x10AC8002, .ld 5 6 2 2), (0x12ACC001, .st 5 6 3 1), (0x14ACC000, .ldp 5 6 3 0),
    (0x16ACC000, .ldAcq 5 6 3 0), (0b0_001000_0101_0110_110_11111111111111, .ld 5 6 6 (-1)),
    (0x186EA002, .stRel 3 7 2 2 2), (0x1AAC0000, .ldfe 5 6 0), (0x1AAC4000, .ldff 5 6 0),
    (0x1AAC8000, .stef 5 6 0), (0x1AACC000, .stff 5 6 0), (0x1A0D0000, .fempty 6 0), (0x1A0D4000, .ffull 6 0),
    (0x1CAC0000, .lrw 5 6 0), (0x1CAC4000, .sch 5 6 0), (0x1C0C8000, .relr 6 0), (0x1E0CE180, .amop 6 7 0 3),
    (0x1E1B8780, .amop 13 12 3 3), (0x1E10B180, .amop 8 5 8 3), (0x200CE000, .amoz 6 7), (0x200F0000, .amoz 7 8),
    (0x22ACE180, .amor 5 6 7 0 3), (0x24ACE180, .cas 5 6 7 3), (0x260CE100, .get 6 7 2), (0x260CE300, .put 6 7 2),
    (0x280CE000, .ccwait 6 7), (0x280CE200, .ccset 6 7), (0x2A000000, .fence 0), (0x2A000080, .fence 1),
    (0x2A000100, .fence 2), (0x2A000180, .fence 3), (0x2A0C0200, .mig 6), (0x2A000400, .pin), (0x2A000600, .unpin),
    (0x2A0CE800, .discard 6 7), (0x2A0C0A00, .pref 6), (0b0_010001_0101_0110_0111_1001_100000000, .amor 5 6 7 9 2)] = true := by decide +kernel

theorem test_words_dispatcher : reads decodeC [
    (0x30AC0000, .spawn 5 6), (0x30AC0200, .spawnw 5 6), (0x30000400, .endStrand), (0x30000600, .yield),
    (0x300C0800, .join 6), (0x300C0A00, .dlset 6), (0x30A00C00, .sliceinfo 5 0), (0x32000003, .gbar 3),
    (0x32000203, .garrive 3), (0x32000403, .gwait 3)] = true := by decide +kernel

theorem test_words_vector_control : reads decodeC [
    (0x384C0001, .vldV 2 6 1), (0x386C4002, .vldW 3 6 2), (0x38288000, .vstV 1 4 0), (0x386CC000, .vstW 3 6 0),
    (0x3A000000, .vmodeShort), (0x3A000001, .vmodeLong), (0x3A000200, .vclr), (0x3A0E0401, .vloop 7 1),
    (0x3A0E0400, .vloop 7 0), (0x3A000600, .vsync), (0x3A2C0800, .sbind 1 6), (0x3A200A00, .sfree 1)] = true := by decide +kernel

theorem test_words_engines_1 : reads decodeC [
    (0x400CE000, .badd 6 7 0), (0x400CE100, .badd 6 7 2), (0x400CE200, .baxpy 6 7 0), (0x400CE300, .baxpy 6 7 2),
    (0x400CE400, .bscale 6 7 0), (0x400CE500, .bscale 6 7 2), (0x400CE600, .bmax 6 7 0), (0x400CE700, .bmax 6 7 2),
    (0x400CE800, .bexps 6 7 0), (0x400CE900, .bexps 6 7 2), (0x400CEA00, .bsum 6 7 0), (0x400CEB00, .bsum 6 7 2),
    (0x400CEC00, .bfill 6 7 0), (0x400CED00, .bfill 6 7 2), (0x480CE000, .cpy 6 7 0), (0x482C0200, .cpys 1 6 0),
    (0x482C0300, .cpys 1 6 2), (0x48A00408, .cpystat 5 8), (0x4C0CE000, .mxldb 6 7 0), (0x4C0CE100, .mxldb 6 7 2),
    (0x4C0CE200, .mxrun 6 7 0), (0x4C0CE300, .mxrun 6 7 2), (0x4C0CE400, .mxdrain 6 7 0),
    (0x4C0CE500, .mxdrain 6 7 2), (0x4C0CE600, .mxwait 6 7), (0x4CA00800, .mxstat 5 0),
    (0x4E0CE000, .mxsend 6 7 0), (0x4E0CE100, .mxsend 6 7 2), (0x500C0000, .scset 6), (0x500C0200, .scinv 6),
    (0x50A00400, .scstat 5 0), (0x51400401, .scstat 10 1), (0x540C0000, .selopen 6), (0x540CE200, .selpush 6 7),
    (0x540CE400, .selemit 6 7), (0x54000600, .selreset), (0x580C0000, .fpush 6), (0x580C0200, .fpushRel 6),
    (0x58AC0400, .fpop 5 6), (0x58000600, .fdone)] = true := by decide +kernel

theorem test_words_engines_2 : reads decodeC [
    (0x58A00800, .ffloor 5), (0x58A00A02, .fstat 5 2)] = true := by decide +kernel

theorem test_words_messages_and_system : reads decodeC [
    (0x5C0CE000, .msend 6 7), (0x5C0CE200, .msendh 6 7), (0x5C0C0400, .mpost 6), (0x5CAC0600, .mwait 5 6),
    (0x5CAC0800, .mprobe 5 6), (0x5C0C0A00, .mcancel 6), (0x5E000000, .hend), (0x5E0C0200, .wake 6),
    (0x5E0C0400, .haltt 6), (0x5E0CE600, .insp 6 7), (0x640CE000, .mint 6 7), (0x640CE200, .tlbinv 6 7),
    (0x64020400, .gstop 1), (0x640CE600, .ctxld 6 7), (0x640CE800, .ctxst 6 7), (0x64000A00, .sret),
    (0x64000C00, .resume), (0x64000C01, .kill), (0x64000C02, .hold), (0x64000C03, .go), (0x64000C04, .drain),
    (0x64000C05, .reset), (0x64000C06, .create), (0x64000C07, .destroy), (0x64000C08, .qctl), (0x64000C09, .post),
    (0x64000C0A, .shrink), (0x64000C0B, .lost)] = true := by decide +kernel

theorem test_words_integer_1 : reads decodeA [
    (0, .nopA), (0x05914000, .add 6 4 5), (0x05948000, .add 6 5 2),
    (0b000001_0101_0110_0111_00000000000000, .add 5 6 7), (0b000001_0101_0110_0111_00000000000001, .sub 5 6 7),
    (0b000001_0101_0110_0111_00000000000010, .and 5 6 7), (0b000001_0101_0110_0111_00000000000011, .or 5 6 7),
    (0b000001_0101_0110_0111_00000000000100, .xor 5 6 7), (0b000001_0101_0110_0111_00000000000101, .andn 5 6 7),
    (0b000001_0101_0110_0111_00000000000110, .shl 5 6 7), (0b000001_0101_0110_0111_00000000000111, .shr 5 6 7),
    (0b000001_0101_0110_0111_00000000001000, .sra 5 6 7), (0b000001_0101_0110_0111_00000000001001, .rot 5 6 7),
    (0b000001_0101_0110_0111_00000000001010, .mul 5 6 7), (0b000001_0101_0110_0111_00000000001011, .mulh 5 6 7),
    (0b000001_0101_0110_0111_00000000001100, .mulhn 5 6 7), (0b000001_0101_0110_0111_00000000001101, .min 5 6 7),
    (0b000001_0101_0110_0111_00000000001110, .max 5 6 7), (0b000001_0101_0110_0111_00000000001111, .minn 5 6 7),
    (0b000001_0101_0110_0111_00000000010000, .maxn 5 6 7), (0b000001_0101_0110_0000_00000000010001, .clz 5 6),
    (0b000001_0101_0110_0000_00000000010010, .ctz 5 6), (0b000001_0101_0110_0000_00000000010011, .popc 5 6),
    (0b000001_0101_0110_0111_00000000010100, .slt 5 6 7), (0b000001_0101_0110_0111_00000000010101, .sltn 5 6 7),
    (0b000001_0101_0110_0111_00000000010110, .seq 5 6 7), (0b000010_0101_0110_0111_00000000000000, .div 5 6 7),
    (0b000010_0101_0110_0111_00000000000001, .divn 5 6 7), (0b000010_0101_0110_0111_00000000000010, .rem 5 6 7),
    (0b000010_0101_0110_0111_00000000000011, .remn 5 6 7), (0x0D5800C8, .bext 5 6 3 8),
    (0b000011_0101_0110_0000_01_000011_001000, .bins 5 6 3 8),
    (0b000100_0101_0110_0111_00000000001000, .sel 5 6 7 8),
    (0b000101_0101_0110_111111111100000000, .addi 5 6 (-256)),
    (0b000110_0101_0110_111111111100000000, .andi 5 6 (-256)),
    (0b000111_0101_0110_111111111100000000, .ori 5 6 (-256)),
    (0b001000_0101_0110_111111111100000000, .xori 5 6 (-256)), (0x15100001, .addi 4 4 1),
    (0x1447FFFF, .addi 1 1 (-1)), (0x17B80008, .addi 14 14 8)] = true := by decide +kernel

theorem test_words_integer_2 : reads decodeA [
    (0b001001_0101_0110_00_0000000000_111111, .shli 5 6 63),
    (0b001001_0101_0110_01_0000000000_111111, .shri 5 6 63),
    (0b001001_0101_0110_10_0000000000_111111, .srai 5 6 63), (0x2900000A, .movi 4 10), (0x2A000005, .movi 8 5)] = true := by decide +kernel

theorem test_words_scalar_float : reads decodeA [
    (0x4159C906, .fdiv 5 6 7 1 1), (0b010000_0101_0110_0111_111_000_00000000, .fadd 5 6 7 7 0),
    (0b010000_0101_0110_0111_111_000_00000001, .fsub 5 6 7 7 0),
    (0b010000_0101_0110_0111_111_000_00000010, .fmul 5 6 7 7 0),
    (0b010000_0101_0110_0111_111_000_00000011, .ffma 5 6 7 7 0),
    (0b010000_0101_0110_0111_111_000_00000110, .fdiv 5 6 7 7 0),
    (0b010000_0101_0110_0111_000_001_00000100, .fmin 5 6 7 1),
    (0b010000_0101_0110_0111_000_001_00000101, .fmax 5 6 7 1),
    (0b010000_0101_0110_0111_000_001_00001000, .fsgn 5 6 7 1),
    (0b010000_0101_0110_0111_000_001_00001001, .fsgnn 5 6 7 1),
    (0b010000_0101_0110_0111_000_001_00001010, .fsgnx 5 6 7 1),
    (0b010000_0101_0110_0000_100_001_00000111, .fsqrt 5 6 4 1),
    (0b010001_0101_0110_0111_011_001_00000000, .fcmp 5 6 7 3 1),
    (0b010010_0101_0110_0000_010_001_100_1_0000, .fcvt 5 6 2 1 4 true)] = true := by decide +kernel

theorem test_words_vector_1 : reads decodeA [
    (0x6048C400, .vadd false 1 2 3 0 4 false), (0x6C840080, .vfma true 2 1 0 0 0 true),
    (0xC0490026, .vcvt false 1 2 4 0 true 6), (0xC8480000, .vrcp false 1 2 0 0),
    (0xC8C48001, .vrcpn false 3 1 2 0 0 false), (0x864A0001, .vext true 9 2 8 0 0),
    (0b011000_0001_0010_0011_001_000_0_0000000, .vadd false 1 2 3 1 0 false),
    (0b011000_0001_0010_0011_001_000_0_0000001, .vsub false 1 2 3 1 0 false),
    (0b011000_0001_0010_0011_001_000_0_0000010, .vmul false 1 2 3 1 0 false),
    (0b011001_1001_1010_0011_000_000_1_0000011, .vmin true 9 10 3 0 0 true),
    (0b011001_1001_1010_0011_000_000_1_0000100, .vmax true 9 10 3 0 0 true),
    (0b011000_0001_0010_0000_010_111_0_0000101, .vabs false 1 2 2 7),
    (0b011000_0001_0010_0000_010_111_0_0000110, .vneg false 1 2 2 7),
    (0b011010_0001_0010_0011_000_001_0_0000000, .vfma false 1 2 3 0 1 false),
    (0b011010_0001_0010_0011_000_001_0_0000001, .vfms false 1 2 3 0 1 false),
    (0b011100_0001_0010_0011_100_111_0_0000000, .vand false 1 2 3 4 7 false),
    (0b011100_0001_0010_0011_100_111_0_0000001, .vor false 1 2 3 4 7 false),
    (0b011100_0001_0010_0011_100_111_0_0000010, .vxor false 1 2 3 4 7 false),
    (0b011100_0001_0010_0011_100_111_0_0000011, .vshl false 1 2 3 4 7 false),
    (0b011100_0001_0010_0011_100_111_0_0000100, .vshr false 1 2 3 4 7 false),
    (0b011110_0001_0010_0011_000_000_0_0000000, .vcmp false 1 2 3 0 0 false 0),
    (0b011110_0001_0010_0011_000_000_0_0000111, .vcmp false 1 2 3 0 0 false 7),
    (0b011110_0001_0010_0011_110_111_0_0001000, .vsel false 1 2 3 6 7 false),
    (0b100000_0001_1100_0000_000_000_0_0000000, .vbcast false 1 12 0 0),
    (0b100000_1100_0001_1101_000_000_0_0000001, .vext false 12 1 13 0 0),
    (0b100000_0001_0010_0011_000_000_0_0000010, .vperm false 1 2 3 0 0 false),
    (0b100000_0001_0010_0000_000_000_0_0000011, .vredAdd false 1 2 0 0),
    (0b100000_0001_0010_0000_000_000_0_0000100, .vredMin false 1 2 0 0),
    (0b100000_0001_0010_0000_000_000_0_0000101, .vredMax false 1 2 0 0),
    (0b100010_0001_0010_0011_000_000_0_0000000, .vdotIp false 1 2 3 0 0 false),
    (0b100010_0001_0010_0011_000_000_0_0000001, .vdotCos false 1 2 3 0 0 false),
    (0b100010_0001_0010_0011_000_000_0_0000010, .vdotCosn false 1 2 3 0 0 false),
    (0b100010_0001_0010_0011_000_000_0_0000011, .vdotL2 false 1 2 3 0 0 false),
    (0b110000_0001_0010_0011_001_000_01_1_0_0100, .vpack false 1 2 3 1 0 true 4),
    (0b110000_0001_0010_0001_001_010_10_00_0100, .vunpack false 1 2 true 1 2 4),
    (0b110000_0001_0010_0011_001_000_11_00_0100, .vscale false 1 2 3 1 4),
    (0b110010_0001_0010_0000_001_001_0_0000000, .vrcp false 1 2 1 1),
    (0b110010_0001_0010_0000_001_001_0_0000010, .vrsq false 1 2 1 1),
    (0b110010_0001_0010_0000_001_001_0_0000100, .vexp2 false 1 2 1 1),
    (0b110010_0001_0010_0000_001_001_0_0000101, .vlog2 false 1 2 1 1)] = true := by decide +kernel

theorem test_words_vector_2 : reads decodeA [
    (0b110011_1001_1010_1011_011_010_0_0000001, .vrcpn true 9 10 11 3 2 false),
    (0b110011_1001_1010_1011_011_010_0_0000011, .vrsqn true 9 10 11 3 2 false)] = true := by decide +kernel

theorem test_words_long : ([(0x80A00000, 0x12345678, .liw 5 0x12345678),
    (0x82A00000, 0x01234567, .lih 5 0x01234567),
    (0b1_000010_0000000000000000000000000, 0xFFFFFFFD, .brLong (-3)),
    (0b1_000011_0000000000000000000000000, 0x00000040, .calll 0x40),
    (0x88100000, 0x00000063, .vloopLong 1 99),
    (0b1_000101_0101_0110_00000000000000000, 0xFFFFFFF8, .leaLong 5 6 (-8)),
    (0x8C0C0000, 0x00000020, .ccwaitLong 6 32),
    (0x8C0E0000, 0x00000002, .ccwaitLong 7 2)] : List (Nat × Nat × Instr)).all
    (fun p => match decodeLong p.1 p.2.1 with | .ok i => decide (i = p.2.2) && i.wf | .error _ => false) = true := by decide +kernel

/-- Every word of a list is refused, for the reason beside it. -/
def refuses (f : Nat → Except Reject Instr) (l : List (Nat × Reject)) : Bool :=
  l.all (fun p => match f p.1 with | .ok _ => false | .error r => decide (r = p.2))

/-- Words that the maps mark ILLEGAL or do not list, and non-zero reserved fields (R10, R47, R48, R60, R64 to R70). -/
theorem test_refused_c : refuses decodeC
    [(0x00000001, .reserved), (0x00001800, .unassigned), (0b0_010110_0000000000000000000000000, .unassigned),
    (0b0_000101_0011_0100_101_00_000000000000, .illegalField), (0b0_000101_0011_0100_101_01_000000000001, .reserved),
    (0b0_001000_0101_0110_111_00000000000000, .illegalField), (0b0_001001_0101_0110_100_00000000000000, .illegalField),
    (0b0_001101_0101_0110_110_00000000000000, .unassigned), (0b0_001101_0001_0110_100_00000000000000, .reserved),
    (0b0_001111_0000_0110_0111_1001_110000000, .illegalField), (0b0_010001_0101_0110_0111_0000_010000000, .illegalField),
    (0b0_011100_1000_0110_000_00000000000000, .illegalField), (0b0_011101_0100_0110_0000_0100_000000000, .illegalField),
    (0b0_110010_0000_0000_0000_0110_000001100, .unassigned), (0b0_000000_0001_0110_0000_1001_000000000, .reserved)] = true := by
  decide +kernel

theorem test_refused_a : refuses decodeA
    [(0x00000001, .reserved), (0b000001_0101_0110_0111_00000000010111, .unassigned),
    (0b000001_0101_0110_0111_00000000010001, .reserved), (0b000010_0101_0110_0111_00000000000100, .reserved),
    (0b000011_0101_0110_0000_00_001000_111000, .illegalField), (0b000011_0101_0110_0000_10_000000_000000, .unassigned),
    (0b001001_0101_0110_11_0000000000_000000, .unassigned), (0b001010_0101_0001_000000000000000000, .reserved),
    (0b001011_0000_0000_000000000000000000, .unassigned), (0b010000_0101_0110_0111_101_000_00000000, .illegalField),
    (0b010000_0101_0110_0111_000_010_00000000, .illegalField), (0b010010_0101_0110_0000_000_001_001_0_0000, .illegalField),
    (0b011000_1000_0010_0011_000_000_00000000, .illegalField), (0b011000_0001_0010_0100_000_000_10000000, .illegalField),
    (0b011100_0001_0010_0011_000_000_00000000, .illegalField), (0b100100_0001_0010_0011_000_000_00000000, .unassigned),
    (0b110010_0001_0010_0000_000_100_00000000, .illegalField)] = true := by decide +kernel

theorem test_refused_long : (match decodeLong 0x8E000000 0 with | .ok _ => false | .error r => decide (r = .unassigned))
    && (match decodeLong 0x80A00001 0 with | .ok _ => false | .error r => decide (r = .reserved))
    && (match decodeLong 0x89100000 1 with | .ok _ => false | .error r => decide (r = .reserved)) = true := by decide +kernel

/-- WellFormed refuses an ill-formed term for each of its checks. -/
theorem test_ill_formed : ([
    .cmps 1 2 0 0, .cmpsi 1 0 0 5, .ld 1 2 7 0, .st 1 2 4 0, .ldp 1 2 7 0, .ldAcq 1 2 7 0, .stRel 1 2 4 0 0,
    .amop 1 2 9 3, .amop 1 2 0 1, .amor 1 2 3 10 3, .amor 1 2 3 0 0, .cas 1 2 3 1, .vldV 8 1 0, .vstV 15 1 0,
    .sbind 4 1, .sfree 4, .cpys 4 1 0, .bext 1 2 8 56, .bins 1 2 63 1, .fadd 1 2 3 5 0, .fsub 1 2 3 6 0, .fmul 1 2 3 0 2,
    .ffma 1 2 3 0 7, .fmin 1 2 3 2, .fmax 1 2 3 2, .fdiv 1 2 3 5 1, .fsqrt 1 2 0 2, .fsgn 1 2 3 4, .fsgnn 1 2 3 4,
    .fsgnx 1 2 3 4, .fcmp 1 2 3 0 2, .fcvt 1 2 0 3 3 false, .fcvt 1 2 5 0 1 false, .fcvt 1 2 1 4 6 false] : List Instr).all
      (fun i => !i.wf) = true := by decide +kernel

theorem test_ill_formed_vector : ([
    .vadd false 8 1 2 0 0 false, .vadd false 1 8 2 0 0 false, .vadd false 1 2 8 0 0 false, .vadd true 1 2 4 0 0 true,
    .vsub false 1 2 3 5 0 false, .vmul false 1 2 3 6 0 false, .vmin false 1 2 3 1 0 false, .vmax false 1 2 3 1 0 false,
    .vabs false 1 2 1 0, .vneg false 1 2 1 0, .vfma false 1 2 3 5 0 false, .vfms false 1 2 3 5 0 false,
    .vand false 1 2 3 0 0 false, .vor false 1 2 3 0 1 false, .vxor false 1 2 3 0 2 false, .vshl false 1 2 3 0 3 false,
    .vshr false 1 2 3 0 4 false, .vcmp false 1 2 3 0 7 false 6, .vcmp false 1 2 3 1 0 false 0, .vsel false 1 2 3 0 0 false,
    .vbcast false 1 2 1 0, .vext false 1 8 2 0 0, .vperm false 1 2 3 1 0 false, .vredAdd false 1 2 5 0, .vredMin false 1 2 1 0,
    .vredMax false 1 2 1 0, .vdotIp false 1 2 3 3 7 false, .vdotCos false 1 2 3 0 7 false, .vdotCosn false 1 2 3 0 7 false,
    .vdotL2 false 1 2 3 7 7 false, .vcvt false 1 2 4 0 true 4, .vcvt false 1 2 4 0 true 15, .vcvt false 1 2 0 0 true 4,
    .vpack false 1 2 3 0 4 false 4, .vpack false 1 2 3 0 0 false 15, .vunpack false 1 2 false 0 4 4, .vscale false 1 2 3 0 8, .vscale false 1 2 3 0 6,
    .vscale false 1 2 3 5 0, .vrcp false 1 2 0 4, .vrcpn false 1 2 3 0 5 false, .vrsq false 1 2 5 0, .vrsqn false 1 2 3 0 7 false,
    .vexp2 false 1 2 0 6, .vlog2 false 1 2 6 0] : List Instr).all (fun i => !i.wf) = true := by decide +kernel

/-- A page of 64 KiB. -/
def page (base pa : Nat) (r w x : Bool) : TlbEntry :=
  { asp := 0, base := base, bits := 16, pa := pa, r := r, w := w, x := x, s := false }
/-- The pages of the test strand: DRAM and scratchpad of its tile, code, DRAM of tile 1, host memory, another device, a page
that may only be read. -/
def pages : List TlbEntry :=
  [page 0 0 true true false, page 0x10000 0x10000 false false true, page 0x20000 (2 ^ 42) true true false,
   page 0x30000 (2 ^ 29) true true false, page 0x40000 (3 * 2 ^ 42) true true false, page 0x50000 (5 * 2 ^ 45) true true false,
   page 0x60000 0x60000 true false false]
/-- A context with the general registers listed. -/
def withRegs (st : Strand) (l : List (Nat × Nat)) : Strand :=
  { st with g := l.foldl (fun g p => g.setIfInBounds p.1 (wd p.2)) st.g }
/-- The test strand: slot 0 of core 0 of tile 0. -/
def me : Strand := { sid := 1, place := .slot 0 0 0, pc := 0x2000, utv := 0x8000, budget := 1000 }
/-- A machine with one pasture on paddock 0 and the test strand, its registers as listed, issuing. -/
def mk (l : List (Nat × Nat)) : State :=
  { pastures := [(0, {})], tiles := [(0, { tlb := pages })], strands := [me]
    x := { me := withRegs me l, src := withRegs me l } }
/-- What the issuing context becomes. -/
def onMe (s : State) (f : Strand → Strand) : State := { s with x := { s.x with me := f s.x.me, src := f s.x.src } }
/-- What the C slot has noted, by key. -/
def noting (s : State) (l : List (Nat × Nat)) : State := { s with x := { s.x with log := l.foldl (fun t p => tset t (memoKey p.1) p.2) [] } }
/-- A controller core of paddock 0 issues. -/
def mkCtl (l : List (Nat × Nat)) : State :=
  let c : Strand := withRegs { place := .ctl 0 0 } l
  { pastures := [(0, {})], x := { me := c, src := c } }

/-- RegSet, decided. -/
def regSet (s t : Strand) (d : RegNo) (v : Word) : Bool :=
  t.gr d == (if d = 0 then 0 else v) && (List.range 16).all (fun r => BitVec.ofNat 4 r == d || t.gr (BitVec.ofNat 4 r) == s.gr (BitVec.ofNat 4 r))
/-- A next state with a property. -/
def nexts (i : Instr) (s : State) (f : State → Bool) : Bool := match exec i s with | .next t => f t | _ => false
/-- AWrites, decided. -/
def aw (i : Instr) (s : State) (d : RegNo) (v : Word) (n : Nat) : Bool :=
  nexts i s (fun t => regSet s.x.me t.x.me d v
    && decide (t = { s with x := { s.x with me := { s.x.me with g := t.x.me.g }, turns := n } }))
/-- CWrites, decided. -/
def cw (i : Instr) (s : State) (d : RegNo) (v : Word) : Bool :=
  nexts i s (fun t => regSet s.x.me t.x.me d v
    && decide (t = { s with x := { s.x with me := s.x.me.done t.x.me.g (s.x.me.pc + 1) } }))
/-- Goes, decided. -/
def goes (i : Instr) (s : State) (pc : BitVec 53) : Bool :=
  nexts i s (fun t => decide (t = { s with x := { s.x with me := s.x.me.done s.x.me.g pc } }))
/-- Answers exactly a state. -/
def gives (i : Instr) (s : State) (t : State) : Bool := nexts i s (fun u => decide (u = t))

/-- The issuing context becomes a given one with PC at the next bundle. -/
def becomes (i : Instr) (s : State) (st : Strand) : Bool :=
  nexts i s (fun t => decide (t = { s with x := { s.x with me := st.advance } }))

/-! ### Integer instructions -/

/-- Both operands of the tests: a negative and a small number. -/
def sInt : State := mk [(5, 0x1111), (6, 2 ^ 64 - 7), (7, 2), (8, 0)]

/-- Results of R155 for −7 and 2, worked out by hand. -/
theorem test_integer : ([(.add 5 6 7, 2 ^ 64 - 5), (.sub 5 6 7, 2 ^ 64 - 9), (.and 5 6 7, 0), (.or 5 6 7, 2 ^ 64 - 5),
    (.xor 5 6 7, 2 ^ 64 - 5), (.andn 5 6 7, 2 ^ 64 - 7), (.shl 5 6 7, 2 ^ 64 - 28), (.shr 5 6 7, 2 ^ 62 - 2),
    (.sra 5 6 7, 2 ^ 64 - 2), (.rot 5 6 7, 2 ^ 64 - 25), (.mul 5 6 7, 2 ^ 64 - 14), (.mulh 5 6 7, 2 ^ 64 - 1), (.mulhn 5 6 7, 1),
    (.min 5 6 7, 2 ^ 64 - 7), (.max 5 6 7, 2), (.minn 5 6 7, 2), (.maxn 5 6 7, 2 ^ 64 - 7), (.clz 5 7, 62), (.ctz 5 8, 64),
    (.popc 5 6, 62), (.slt 5 6 7, 1), (.sltn 5 6 7, 0), (.seq 5 6 6, 1)] : List (Instr × Nat)).all
      (fun p => aw p.1 sInt 5 (wd p.2) 1) = true := by decide +kernel

/-- A write to g0 is discarded; MULH and MULHN of R155's example. -/
theorem test_integer_corners : (aw (.add 0 6 7) sInt 0 5 1
    && aw (.mulh 1 2 2) (mk [(2, 2 ^ 64 - 1)]) 1 0 1 && aw (.mulhn 1 2 2) (mk [(2, 2 ^ 64 - 1)]) 1 (wd (2 ^ 64 - 2)) 1
    && aw (.clz 1 2) (mk [(2, 0)]) 1 64 1 && aw (.rot 1 2 3) (mk [(2, 1), (3, 64 + 63)]) 1 (wd (2 ^ 63)) 1) = true := by decide +kernel

/-- R156: truncation, zero divisors, and the most negative dividend; 8 turns. -/
theorem test_division : (aw (.div 5 6 7) sInt 5 (wd (2 ^ 64 - 3)) 8 && aw (.rem 5 6 7) sInt 5 (wd (2 ^ 64 - 1)) 8
    && aw (.divn 5 7 6) sInt 5 0 8 && aw (.remn 5 7 6) sInt 5 2 8 && aw (.div 5 6 8) sInt 5 (wd (2 ^ 64 - 1)) 8
    && aw (.divn 5 6 8) sInt 5 (wd (2 ^ 64 - 1)) 8 && aw (.rem 5 6 8) sInt 5 (wd (2 ^ 64 - 7)) 8
    && aw (.remn 5 7 8) sInt 5 2 8 && aw (.div 1 2 3) (mk [(2, 2 ^ 63), (3, 2 ^ 64 - 1)]) 1 (wd (2 ^ 63)) 8
    && aw (.rem 1 2 3) (mk [(2, 2 ^ 63), (3, 2 ^ 64 - 1)]) 1 0 8) = true := by decide +kernel

/-- R157: the spec's BEXT; a field that ends at bit 63, and one that ends beyond it. -/
theorem test_bit_fields : (aw (.bext 5 6 3 8) (mk [(6, 0x1234)]) 5 2 1 && aw (.bins 5 6 3 8) (mk [(5, 0xFFFF), (6, 0x1234)]) 5 0xF4FF 1
    && aw (.bext 5 6 0 63) (mk [(6, 2 ^ 63)]) 5 1 1 && aw (.bext 5 6 63 0) (mk [(6, 77)]) 5 77 1
    && decide (decodeA (arWord 3 5 6 0 (1 * 2 ^ 6 + 63)) = .error .illegalField)) = true := by decide +kernel

/-- R158 and R159. -/
theorem test_sel_and_immediates : (aw (.sel 5 6 7 5) sInt 5 (wd (2 ^ 64 - 7)) 1 && aw (.sel 5 6 7 8) sInt 5 2 1
    && aw (.addi 5 7 (-3)) sInt 5 (wd (2 ^ 64 - 1)) 1 && aw (.andi 5 5 (-256)) sInt 5 0x1100 1 && aw (.ori 5 5 0x6) sInt 5 0x1117 1
    && aw (.xori 5 5 (-1)) sInt 5 (wd (2 ^ 64 - 1 - 0x1111)) 1 && aw (.shli 5 7 63) sInt 5 0 1 && aw (.shri 5 6 63) sInt 5 1 1
    && aw (.srai 5 6 63) sInt 5 (wd (2 ^ 64 - 1)) 1 && aw (.movi 5 0x20000) sInt 5 (wd (2 ^ 64 - 131072)) 1) = true := by decide +kernel

/-! ### Long immediates, addresses, branches -/

/-- R166, R168: the constants of R168's example; LEA beyond the address space does not trap. -/
theorem test_addresses : (cw (.liw 5 0x89ABCDEF) (mk []) 5 0xFFFFFFFF89ABCDEF
    && cw (.lih 5 0x01234567) (mk [(5, 0xFFFFFFFF89ABCDEF)]) 5 0x0123456789ABCDEF
    && cw (.lea 5 6 0x10000) (mk [(6, 0xFF00000000000000)]) 5 (wd (0xFF00000000000000 - 65536))
    && cw (.leaLong 5 6 0xFFFFFFFF) (mk [(6, 0)]) 5 (wd (2 ^ 64 - 1))) = true := by decide +kernel

/-- R58, each condition at a value where it holds and one where it does not. -/
theorem test_conditions : ([(0, 7, 7, 7, 8), (1, 7, 8, 7, 7), (2, 2 ^ 64 - 1, 0, 0, 0), (3, 0, 0, 2 ^ 63, 0), (4, 0, 1, 2 ^ 64 - 1, 0),
    (5, 1, 1, 0, 1), (6, 5, 4, 5, 2), (7, 5, 2, 5, 4)] : List (Nat × Nat × Nat × Nat × Nat)).all (fun (c, a, b, a', b') =>
      goes (.brc 1 2 (BitVec.ofNat 3 c) (-3)) (mk [(1, a), (2, b)]) 0x1FFD
      && goes (.brc 1 2 (BitVec.ofNat 3 c) (-3)) (mk [(1, a'), (2, b')]) 0x2001
      && goes (.cmps 1 2 (BitVec.ofNat 3 c) 3) (mk [(1, a), (2, b)]) 0x2001
      && goes (.cmps 1 2 (BitVec.ofNat 3 c) 3) (mk [(1, a'), (2, b')]) 0x2004) = true := by decide +kernel

/-- R57, R59, R62, R169, R173: targets, links, the last bundle, and jumps of each kind. -/
theorem test_branches : (goes .nopC (mk []) 0x2001 && goes (.br 0) (mk []) 0x2000 && goes (.brLong (-1)) (mk []) 0x1FFF
    && goes .nopC (onMe (mk []) (fun st => { st with pc := 2 ^ 53 - 1 })) 0
    && nexts (.call 5) (mk []) (fun t => t.x.me.gr 15 == 0x10008 && t.x.me.pc == 0x2005)
    && nexts (.calll 5) (onMe (mk []) (fun st => { st with pc := 2 ^ 53 - 1 })) (fun t => t.x.me.gr 15 == 0 && t.x.me.pc == 4)
    && nexts (.brl 6 6 8) (mk [(6, 0x9000)]) (fun t => t.x.me.gr 6 == 0x10008 && t.x.me.pc == 0x1201)
    && goes (.jr 6) (mk [(6, 2 ^ 56 - 8)]) (2 ^ 53 - 1) && goes .ret (mk [(15, 0)]) 0
    && goes (.cmpsi 3 0 2 0) (mk [(3, 0)]) 0x2001 && goes (.cmpsi 3 0 2 0) (mk [(3, 7)]) 0x2003
    && decide (exec .nopA (mk []) matches .next _)) = true := by decide +kernel

/-- R57: a misaligned target is ALIGN even where its high bits are set, and an aligned one with them is XLATE. -/
theorem test_bad_jumps : (gives (.jr 6) (mk [(6, 2 ^ 56 + 4)]) ((mk [(6, 2 ^ 56 + 4)]).trapC cAlign (wd (2 ^ 56 + 4)))
    && gives .ret (mk [(15, 2 ^ 56)]) ((mk [(15, 2 ^ 56)]).trapC cXlate (wd (2 ^ 56)))
    && nexts (.brl 6 6 1) (mk [(6, 0)]) (fun t => t.x.me.gr 6 == 0 && t.x.me.utval == 1 && t.x.me.utc == 8)) = true := by decide +kernel

/-- R167: the home of each kind of address; the page's rights do not matter. -/
theorem test_homeof : (mapsTo (mk [(6, 0x30008)]) 0x30008 needNone (2 ^ 29 + 8)
    && cw (.homeof 5 6) (mk [(6, 0x30008)]) 5 (wd (2 ^ 27 + 1)) && cw (.homeof 5 6) (mk [(6, 0x40000)]) 5 (wd (2 ^ 27 + 3 * 2 ^ 13))
    && cw (.homeof 5 6) (mk [(6, 0x50000)]) 5 (wd (5 * 2 ^ 16)) && cw (.homeof 5 6) (mk [(6, 0x10000)]) 5 (wd (2 ^ 27))) = true := by
  decide +kernel

end Sys2Proof.Tests
end

