-- ==== Sys2Proof/Tests/Control.lean ====
section
/-! SUPPORT. Tests of control registers, traps, privilege and following. -/

set_option Elab.async false

namespace Sys2Proof.Tests

open Sys2Proof Sys2Proof.Machine

/-! ### Control registers -/

/-- A strand with a value of its own in every control register. -/
def sCsr : State := onMe (mk [(6, 0x1F)]) (fun st => { st with
  sw := wd (2 ^ 20 + 0x2000), vt := 3, fmt := 4, sca := 5, scb := 6, budget := 7, deadline := 8, grp := 9, sid := 10, utv := 16
  utc := 17, utpc := 18, utval := 19 })

/-- R50, R51, R170: each number; PINNED reads 1 for a strand that holds a reservation. -/
theorem test_csrr : ([(0x00, 0x10000), (0x01, 2 ^ 20 + 2 ^ 18 + 0x2000), (0x02, 3), (0x03, 4), (0x04, 5), (0x05, 6), (0x06, 7), (0x07, 8),
    (0x08, 9), (0x09, 10), (0x0A, 0), (0x10, 16), (0x11, 17), (0x12, 18), (0x13, 19)] : List (Nat × Nat)).all
      (fun p => cw (.csrr 5 (BitVec.ofNat 8 p.1)) sCsr 5 (wd p.2)) = true := by decide +kernel

theorem test_csrr_refused : ((sCsr.x.me.isCtl == false) && (sCsr.x.src.isCtl == false)
    && [0x80, 0x8A, 0xFF].all (fun n => gives (.csrr 5 n) sCsr sCsr.privC)
    && [0x0B, 0x0F, 0x14, 0x7F].all (fun n => gives (.csrr 5 n) sCsr sCsr.illegalC)) = true := by decide +kernel

/-- R51, R53, R170: the writable bits of SW with the flags of the A slot, FMT's fields, UTV, UTC; read-only registers. -/
theorem test_csrw :
    (let s : State := { mk [(6, 0xFFFFFFFFFFFF23FF)] with x := { (mk [(6, 0xFFFFFFFFFFFF23FF)]).x with aflags := 0x1F } }
     becomes (.csrw 6 0x01) s { s.x.me with sw := wd 0x23FF }
      && becomes (.csrw 6 0x02) s { s.x.me with vt := 0xFFFFFFFFFFFF23FF }
      && becomes (.csrw 6 0x03) s { s.x.me with fmt := 0xFFFF2000 }
      && becomes (.csrw 6 0x04) s { s.x.me with sca := 0xFFFF23FF }
      && becomes (.csrw 6 0x05) s { s.x.me with scb := 0xFFFF23FF }
      && becomes (.csrw 6 0x10) s { s.x.me with utv := 0xFFFFFFFFFFFF23F8 }
      && becomes (.csrw 6 0x11) s { s.x.me with utc := 0x3FF }
      && becomes (.csrw 6 0x12) s { s.x.me with utpc := 0xFFFFFFFFFFFF23FF }
      && becomes (.csrw 6 0x13) s { s.x.me with utval := 0xFFFFFFFFFFFF23FF }
      && [0x00, 0x06, 0x07, 0x08, 0x09, 0x0A].all (fun n => becomes (.csrw 6 n) s s.x.me)) = true := by decide +kernel

/-- A rounding mode of 4 is written; 5 and 7 are PRIV. A reserved code in FMT bits [15:13] is written 0. -/
theorem test_csrw_refused :
    (let s (v : Nat) : State := mk [(6, v)]
     becomes (.csrw 6 0x01) (s 0x1000) { (s 0x1000).x.me with sw := 0x1000 }
      && gives (.csrw 6 0x01) (s 0x1400) (s 0x1400).privC && gives (.csrw 6 0x01) (s 0x1C00) (s 0x1C00).privC
      && becomes (.csrw 6 0x03) (s 0xA000) { (s 0).x.me with g := (s 0xA000).x.me.g, fmt := 0 }
      && becomes (.csrw 6 0x03) (s 0x8000) { (s 0).x.me with g := (s 0x8000).x.me.g, fmt := 0x8000 }
      && gives (.csrw 6 0x80) (s 1) (s 1).privC && gives (.csrw 6 0x0B) (s 1) (s 1).illegalC
      && gives (.csrw 6 0x7F) (s 1) (s 1).illegalC) = true := by decide +kernel

/-- A controller in an event, with a value in every supervisor register. -/
def sSup : State := { mkCtl [(6, 0xFFFFFFFFFFFFFFFF), (7, 55), (8, 56)] with
  ctls := [(0, { sv := { vec := 8, epc := 16, cause := 3, sid := 4, spc := 5, val := 6, past := 7, asp := 8, inh := true } })] }

/-- R420: the supervisor registers read. -/
theorem test_supervisor_reads : ([(0x80, 8), (0x81, 16), (0x82, 3), (0x83, 4), (0x84, 5), (0x85, 6), (0x86, 7), (0x87, 8), (0x88, 1),
    (0x89, 0), (0x8A, 0), (0x06, 0), (0x07, 0), (0x08, 0), (0x09, 0)] : List (Nat × Nat)).all
      (fun p => cw (.csrr 5 (BitVec.ofNat 8 p.1)) sSup 5 (wd p.2)) = true := by decide +kernel

/-- R420, R433: the supervisor registers written; SV_ASP of 56 is 0xFF; SRET in and out of an event. -/
theorem test_supervisor_writes :
    (let puts (a : RegNo) (n : Nat) (w : Sv) : Bool := gives (.csrw a (BitVec.ofNat 8 n)) sSup
        { sSup with ctls := tset sSup.ctls 0 { sSup.ctl 0 0 with sv := w }, x := { sSup.x with me := sSup.x.me.advance } }
     let v := (sSup.ctl 0 0).sv
     puts 6 0x80 { v with vec := wd (2 ^ 64 - 8) } && puts 6 0x81 { v with epc := wd (2 ^ 64 - 8) }
      && puts 6 0x82 { v with cause := 0x301FF } && puts 6 0x83 { v with sid := wd (2 ^ 64 - 1) }
      && puts 6 0x86 { v with past := 0xFF } && puts 7 0x87 { v with asp := 55 } && puts 8 0x87 { v with asp := 0xFF } && puts 6 0x88 v
      && nexts .sret sSup (fun t => t.x.me.pc == 2 && (t.ctl 0 0).sv.inh == false)
      && (let s := { sSup with ctls := [] }; gives .sret s s.illegalC)) = true := by decide +kernel

/-- R171: TIME needs an agent of each kind; the value itself is open within 5 ns. -/
theorem witness_time : (mk []).x.me.isCtl = false ∧ (mkCtl []).x.me.isCtl = true := by decide +kernel

/-! ### Traps -/

/-- R149: a trap of a strand with a handler, in each slot. BUDGET is the grace of R153 after BUDGET alone. -/
theorem test_trap_enters :
    (let s := onMe (mk []) (fun st => { st with sw := wd (2 ^ 22) })
     let t := s.trapAt true cProt 77
     let u := s.trapC cBudget 0
     !s.x.me.hslot && !s.x.me.inTrap && s.x.me.utv != 0 && t.x.me.pc == 0x1000 && t.x.me.utpc == 0x10000 && t.x.me.utc == 0x205
      && t.x.me.utval == 77 && t.x.me.sw == wd (2 ^ 21) && t.x.me.budget == 1000 && u.x.me.budget == 256 && u.x.me.utc == 0x0B) = true := by
  decide +kernel

/-- R214: an uncorrectable error posts its event as well, to the pasture's queue. -/
theorem test_trap_memerr : (((mk []).trapC cMemerr 5).pas 0).evqtail = 1 ∧ ((mk []).trapC cMemerr 5).x.me.inTrap = true := by
  decide +kernel

/-- R150: each reason to escalate. -/
theorem test_trap_escalates :
    (let out (s : State) (c : Nat) : Bool :=
      let t := s.trapC c 9
      t.x.me.stop == some .escalated && t.x.me.utc == s.x.me.utc && t.x.me.pc == 0x2000
        && decide ((t.pad 0).svq = [{ cause := wd (2 ^ 16 + c), sid := 1, spc := 0x10000, val := 9, past := 0 }])
     out (onMe (mk []) (fun st => { st with sw := wd (2 ^ 23) })) cProt && out (onMe (mk []) (fun st => { st with sw := wd (2 ^ 21) })) cProt
      && out (onMe (mk []) (fun st => { st with utv := 0 })) cProt && out (mk []) cHandlerBudget && out (mk []) cHandlerPark) = true := by
  decide +kernel

/-- A strand in its handler. -/
def sTrap (utpc utc : Nat) : State := onMe (mk []) (fun st => { st with sw := wd (2 ^ 21), utpc := wd utpc, utc := wd utc, utval := 3 })

/-- R151, R172: URET to the bundle at UTPC, with the C slot alone where ADONE is 1; its two bad returns; outside the handler. -/
theorem test_uret : (nexts .uret (sTrap 0x18 0x100) (fun t => t.x.me.pc == 3 && t.x.me.cOnly && t.x.me.sw == 0)
    && nexts .uret (sTrap 0x18 0x205) (fun t => t.x.me.pc == 3 && !t.x.me.cOnly)
    && gives .uret (sTrap 4 0) ((sTrap 4 0).trapC cAlign 4) && gives .uret (sTrap (2 ^ 56 + 4) 0) ((sTrap (2 ^ 56 + 4) 0).trapC cAlign (wd (2 ^ 56 + 4)))
    && gives .uret (sTrap (2 ^ 56) 0) ((sTrap (2 ^ 56) 0).trapC cXlate (wd (2 ^ 56)))
    && gives .uret (mk []) (mk []).illegalC && gives .udecline (mk []) (mk []).illegalC
    && gives (.trap 5) (mk []) ((mk []).trapC cTrap 5)) = true := by decide +kernel

/-- R152: UDECLINE passes the trap on, with the cause, the PC and the value of the trap declined. -/
theorem test_udecline : nexts .udecline (sTrap 0x18 0x105) (fun t => t.x.me.stop == some .escalated && t.x.me.inTrap && t.x.me.pc == 0x2000
    && decide ((t.pad 0).svq = [{ cause := 0x10105, sid := 1, spc := 0x18, val := 3, past := 0 }])) = true := by decide +kernel

/-- R61, R148: a system instruction of a strand is PRIV; FOLLOW and YIELD of a handler slot are ILLEGAL. -/
theorem test_privilege :
    (let h := onMe (mk []) (fun st => { st with sw := wd (2 ^ 23) })
     [Instr.mint 1 2, .tlbinv 1 2, .gstop 1, .ctxld 1 2, .ctxst 1 2, .sret, .resume, .kill, .hold, .go, .drain, .reset, .create, .destroy, .qctl,
      .post, .shrink, .lost].all (fun i => gives i (mk []) (mk []).privC)
      && gives (.follow 1) h h.illegalC && gives .yield h h.illegalC) = true := by decide +kernel

/-- R442: with the vector unit's long class not accepted, VMODE.LONG is an instruction that may not be executed. -/
theorem test_not_permitted :
    (let s : State := { mk [] with committed := true, feat2 := 0x3EF, x := { (mk []).x with w0 := 0x3A000001 } }
     !s.permits false .vmodeLong && decide (decodeC s.x.w0.toNat = .ok .vmodeLong)
      && (match runBundle s with
          | .next t => decide (t = (s.charge 1).countIssue.trapAt false cIllegal (zx s.x.w0))
          | _ => false)) = true := by decide +kernel

/-! ### Following -/

/-- The test strand beside another strand of its core, in slot 1. -/
def sTwo (f : Strand → Strand) : State := { mk [(6, 1), (7, 14)] with
  strands := [me, f { sid := 2, place := .slot 0 0 1, pc := 0x2000 }] }

/-- R145: FOLLOW of a strand, and of none. -/
theorem test_follow :
    (let s := sTwo id
     decide (s.leaderAt 1 = some { sid := 2, place := .slot 0 0 1, pc := 0x2000 }) && decide (s.leaderAt 14 = none)
      && nexts (.follow 6) s (fun t => t.x.me.following && decide (t.x.me.follow = some { leader := 2 }) && t.x.me.wait == some .follow
          && t.x.me.pc == 0x2001)
      && goes (.follow 7) s 0x2001) = true := by decide +kernel

/-- R145, R147: LEAVE of a follower, LEAVE of a leader, and the limit of 1,024 bundles. -/
theorem test_leave :
    (let f := onMe (mk []) (fun st => { st with sw := wd (2 ^ 22), follow := some { leader := 2 } })
     let l := sTwo (fun st => { st with follow := some { leader := 1 }, sw := wd (2 ^ 22), wait := some .follow })
     let w (n : Nat) : State := { sTwo (fun st => { st with follow := some { leader := 1, seen := n } }) with inp := { sid := 2 } }
     f.x.me.following && becomes .leave f f.x.me.leave
      && !l.x.me.following && nexts .leave l (fun t => decide (t.strands = l.strands.map (fun f => if f.follow.any (·.leader == 1) then f.leave else f)))
      && nexts .followTimeout (w 1024) (fun t => (t.strandOf 2).any (fun st => st.follow == none && !st.following && st.wait == none && st.pc == 0x2000)))
     = true := by decide +kernel

end Sys2Proof.Tests
end

