-- ==== Sys2Proof/Tests/Memory.lean ====
section
/-! SUPPORT. Tests of loads, stores, traps of addresses, remote accesses, full/empty words, reservations, atomics, counters,
fences and event records. -/

set_option Elab.async false

namespace Sys2Proof.Tests

open Sys2Proof Sys2Proof.Machine

/-- The test machine with words of memory: (address, 64-bit value), written in turn. -/
def mkM (l : List (Nat × Nat)) (m : List (Nat × Nat)) : State :=
  { mk l with mem := m.foldl (fun m p => memPut m p.1 (leBytes 8 p.2)) [] }
/-- An answer in which a local store has put v into n bytes at key, and only PC of the agent has changed. -/
def storesAt (i : Instr) (s : State) (key n v : Nat) : Bool :=
  nexts i s (fun t => memRead t.mem key n == v % 2 ^ (8 * n)
    && decide (t.mem = memPut s.mem key (leBytes n v)) && t.mem.wf
    && decide (t.x = { s.x with me := s.x.me.done s.x.me.g (s.x.me.pc + 1) }) && decide (t.tiles = s.tiles) && decide (t.mesh = s.mesh)
    && decide (t.empties = s.empties))
/-- Waits, decided. -/
def waits (i : Instr) (s : State) (w : Wait) : Bool := gives i s (s.park w)
/-- Traps, decided: a trap, and what the C slot has noted on the way. -/
def traps (i : Instr) (s : State) (cause : Nat) (val : Word) : Bool := nexts i s (fun t => decide (t = (s.noting t.x.log).trapC cause val))
/-- A wait of an instruction that has noted something on the way. -/
def waitsNoting (i : Instr) (s : State) (w : Wait) : Bool := nexts i s (fun t => decide (t = (s.noting t.x.log).park w))
/-- CWritesNoting, decided. -/
def cwn (i : Instr) (s : State) (d : RegNo) (v : Word) : Bool :=
  nexts i s (fun t => regSet s.x.me t.x.me d v
    && decide (t = { s with x := { s.x with me := s.x.me.done t.x.me.g (s.x.me.pc + 1), log := t.x.log } }))

/-- The doubleword 0x8182_8384_8586_8788 at 0x100 of the strand's tile. -/
def sLd : State := mkM [(5, 0xAA), (6, 0x100), (7, 0x1111222233334444)] [(0x100, 0x8182838485868788)]

/-- R65, R191: every access size, at positive and negative displacements. -/
theorem test_loads : ([(0, 0, 2 ^ 64 - 0x78), (1, 0, 2 ^ 64 - 0x7878), (2, 1, 2 ^ 64 - 0x7E7D7C7C), (3, 0, 0x8182838485868788), (4, 7, 0x81), (5, 3, 0x8182),
    (6, 0, 0x85868788)] : List (Nat × Nat × Nat)).all (fun (z, o, v) =>
      localAccess sLd (wd (0x100 + o * clsBytes (BitVec.ofNat 3 z))) (clsBytes (BitVec.ofNat 3 z)) needR (0x100 + o * clsBytes (BitVec.ofNat 3 z))
      && cw (.ld 5 6 (BitVec.ofNat 3 z) (BitVec.ofNat 14 o)) sLd 5 (wd v) && cw (.ldp 5 6 (BitVec.ofNat 3 z) (BitVec.ofNat 14 o)) sLd 5 (wd v)
      && cw (.ldAcq 5 6 (BitVec.ofNat 3 z) (BitVec.ofNat 14 o)) sLd 5 (wd v)) = true := by decide +kernel

theorem test_load_corners : (cw (.ld 0 6 3 0) sLd 0 0 && cw (.ld 6 6 3 0) sLd 6 0x8182838485868788 && cw (.ld 5 6 3 (-1)) sLd 5 0) = true := by
  decide +kernel

/-- R91, R191, R206: stores of each size, released and plain, and a counter set. -/
theorem test_stores : (storesAt (.st 7 6 0 3) sLd 0x103 1 0x44 && storesAt (.st 7 6 1 (-1)) sLd 0xFE 2 0x4444 && storesAt (.st 7 6 2 1) sLd 0x104 4 0x33334444
    && storesAt (.st 0 6 3 0) sLd 0x100 8 0 && sLd.drained 3 && storesAt (.stRel 7 6 3 3 0) sLd 0x100 8 0x1111222233334444
    && storesAt (.ccset 6 7) sLd 0x100 8 0x1111222233334444) = true := by decide +kernel

/-- R63, R21, R178: ALIGN comes first, then XLATE, then PROT. -/
theorem test_address_traps :
    (let s (a : Nat) : State := mk [(6, a)]
     let t (i : Instr) (a cause : Nat) : Bool := gives i (s a) ((s a).trapC cause (wd a))
     t (.ld 5 6 3 0) (2 ^ 56 + 4) cAlign && t (.ld 5 6 3 0) (2 ^ 56) cXlate && t (.st 5 6 0 0) 0x60000 cProt && t (.ldfe 5 6 0) 0x60000 cProt
      && t (.ld 5 6 3 0) 0x10000 cProt && t (.amoz 6 7) 0x108 cAlign && t (.cas 5 6 7 2) 0x102 cAlign && t (.ccwait 6 7) 0x10000 cProt
      && t (.stef 5 6 0) 4 cAlign && t (.join 6) 4 cAlign && t (.amor 5 6 7 0 3) 0x60000 cProt) = true := by decide +kernel

/-- R181, R190, R198: a read of tile 1: unpinned, pinned, LDP, and with a reservation held. -/
theorem test_remote_reads :
    (let s : State := mk [(6, 0x30000)]
     let pin := onMe s (fun st => { st with sw := wd (2 ^ 18) })
     let rsv := onMe s (fun st => { st with sw := wd (2 ^ 20) })
     let pa := 2 ^ 29 + 8
     mapsTo s 0x30008 needR pa && decide (s.homeOf pa = .tile 1) && !s.x.me.rsv && !s.x.me.pinReason && pin.x.me.pinReason && !pin.x.me.rsv
      && waits (.ld 5 6 3 1) s (.depart 1) && waits (.ldAcq 5 6 3 1) s (.depart 1) && waits (.ldp 5 6 1 4) s (.fetch 0x30008 pa (.load 2 true 5))
      && waits (.ld 5 6 6 2) pin (.fetch 0x30008 pa (.load 4 false 5)) && waits (.ldAcq 5 6 3 1) pin (.fetch 0x30008 pa (.load 8 false 5))
      && gives (.ld 5 6 3 1) rsv (rsv.trapC cRsvLeave 0x30008) && gives (.ldp 5 6 3 1) rsv (rsv.trapC cRsvLeave 0x30008)) = true := by decide +kernel

/-- The test strand has posted n operations that are not acknowledged. -/
def withPosts (s : State) (n : Nat) : State :=
  { s with unacked := (List.range n).map (fun i => { id := 100 + i, party := .strand 1, src := 0, dst := 1, body := .ack 0 }) }

/-- R82, R192: a store to tile 1 is posted; with 32 outstanding it waits, with 31 it does not. -/
theorem test_remote_store :
    (let s : State := mk [(6, 0x30000), (7, 0x55)]
     let pa := 2 ^ 29 + 16
     mapsTo s 0x30010 needW pa && !s.seqHolds pa 8 && s.postRoom s.x.me.party s.here && (withPosts s 31).postRoom s.x.me.party s.here
      && nexts (.st 7 6 3 2) s (fun u => match u.unacked, u.mesh with
          | [k], [k'] => decide (k'.body = k.body) && decide (k.body = .post (.store pa 8 0x55 0x30010)) && k.dst == 1 && k.seq == 0 && k.src == 0
              && seqGet u.seqNext k.party 1 == 1 && decide (u.mem = s.mem) && decide (u.x.me = s.x.me.advance)
          | _, _ => false)
      && waits (.st 7 6 3 2) (withPosts s 32) (.acks 4)) = true := by decide +kernel

/-! ### Full/empty words -/

/-- Word 0x100 holds 9 and is EMPTY or FULL. -/
def sFe (full : Bool) : State := { mkM [(5, 0xAA), (6, 0x100)] [(0x100, 9)] with empties := if full then [] else [0x20] }

/-- R195, R196: the six on a FULL word. -/
theorem test_full :
    (let s := sFe true
     localAccess s 0x100 8 needRW 0x100 && s.isFull 0x100
      && nexts (.ldfe 5 6 0) s (fun t => regSet s.x.me t.x.me 5 9 && !t.isFull 0x100 && t.isFull 0x108 && t.x.me.pc == 0x2001 && decide (t.mem = s.mem))
      && nexts (.ldff 5 6 0) s (fun t => regSet s.x.me t.x.me 5 9 && t.isFull 0x100)
      && nexts (.stef 5 6 0) s (fun t => decide (t.x = (s.park (.fullEmpty 0x100)).x) && decide ((t.tl 0).fe = [{ pa := 0x100, sid := 1, kind := 2, reg := 0, val := 0xAA }]))
      && nexts (.stff 5 6 0) s (fun t => t.isFull 0x100 && memRead t.mem 0x100 8 == 0xAA)
      && nexts (.fempty 6 0) s (fun t => !t.isFull 0x107 && t.x.me.pc == 0x2001) && nexts (.ffull 6 0) s (fun t => t.isFull 0x100)) = true := by
  decide +kernel

/-- R195, R196: on an EMPTY word. -/
theorem test_empty :
    (let s := sFe false
     !s.isFull 0x100 && s.drained 2
      && nexts (.ldfe 5 6 0) s (fun t => decide (t.x = (s.park (.fullEmpty 0x100)).x) && decide ((t.tl 0).fe = [{ pa := 0x100, sid := 1, kind := 0, reg := 5, val := 0 }]))
      && nexts (.ldff 5 6 0) s (fun t => decide ((t.tl 0).fe = [{ pa := 0x100, sid := 1, kind := 1, reg := 5, val := 0 }]))
      && nexts (.stef 5 6 0) s (fun t => t.isFull 0x100 && memRead t.mem 0x100 8 == 0xAA && t.x.me.pc == 0x2001)
      && nexts (.stff 5 6 0) s (fun t => t.isFull 0x100) && nexts (.fempty 6 0) s (fun t => !t.isFull 0x100)) = true := by decide +kernel

/-- Another strand of the tile, in slot 1, that waits. -/
def other (w : Wait) : Strand := { me with sid := 2, place := .slot 0 0 1, wait := some w, pend := some { w0 := 0, w1 := 0, g := me.g, v := me.v } }
/-- Strand 2 waits at word 0x100 with an access of a kind, and strand 3 behind it with LDFE. -/
def sWait (full : Bool) (kind : Nat) (alone : Bool) : State :=
  let l : List FeWaiter := if alone then [] else [{ pa := 0x100, sid := 3, kind := 0, reg := 4, val := 0 }]
  { sFe full with strands := [me, other (.fullEmpty 0x100)]
                  tiles := [(0, { tlb := pages, fe := { pa := 0x100, sid := 2, kind := kind, reg := 9, val := 0x77 } :: l })] }

/-- R196: each change of a word's state performs the first listed access whose condition now holds. -/
theorem test_full_empty_wakes :
    (let woken (i : Instr) (s : State) (v : Nat) (full : Bool) (mem : Nat) (left : Nat) : Bool := nexts i s (fun t =>
        (t.strandOf 2).any (fun st => st.gr 9 == wd v && st.pc == 0x2001 && st.wait.isNone) && t.isFull 0x100 == full
          && memRead t.mem 0x100 8 == mem && (t.tl 0).fe.length == left && t.x.me.pc == 0x2001)
     let s := sWait false 0 false
     localAccess s 0x100 8 needRW 0x100 && decide ((s.strandOf 2).bind (·.wait) = some (.fullEmpty 0x100))
      && woken (.ffull 6 0) s 9 false 9 1 && woken (.stff 5 6 0) s 0xAA false 0xAA 1 && woken (.stef 5 6 0) s 0xAA false 0xAA 1
      && woken (.ffull 6 0) (sWait false 1 true) 9 true 9 0 && woken (.stef 5 6 0) (sWait false 1 true) 0xAA true 0xAA 0
      && woken (.fempty 6 0) (sWait true 2 true) 0 true 0x77 0 && woken (.ldfe 5 6 0) (sWait true 2 true) 0 true 0x77 0) = true := by decide +kernel

/-! ### Reservations -/

/-- The strand holds word 0x100, and l wait behind it. -/
def sHold (l : List (Word × RegNo)) : State :=
  let s := mkM [(5, 0xAA), (6, 0x100)] [(0x100, 9)]
  onMe { s with tiles := [(0, { tlb := pages, resv := [{ pa := 0x100, holder := 1, fifo := l }] })] } (fun st => { st with sw := wd (2 ^ 20) })

/-- R197, R198: LRW granted, queued behind a holder, and refused to a strand that holds a reservation. -/
theorem test_lrw :
    (let s := mkM [(5, 0xAA), (6, 0x100)] [(0x100, 9)]
     let q := { s with tiles := [(0, { tlb := pages, resv := [{ pa := 0x100, holder := 2, fifo := [] }] })] }
     localAccess s 0x100 8 needRW 0x100
      && nexts (.lrw 5 6 0) s (fun t => regSet s.x.me t.x.me 5 9 && t.x.me.rsv && t.x.me.pc == 0x2001 && decide ((t.tl 0).resv = [{ pa := 0x100, holder := 1, fifo := [] }]))
      && nexts (.lrw 5 6 0) q (fun t => decide (t.x = (q.park (.resv 0x100)).x) && decide ((t.tl 0).resv = [{ pa := 0x100, holder := 2, fifo := [(1, 5)] }]))
      && gives (.lrw 5 6 0) (sHold []) ((sHold []).trapC cRsvLeave 0x100)) = true := by decide +kernel

/-- R197, R198: SCH and RELR of the word held, of another, and of none. -/
theorem test_sch :
    (let s := sHold []
     let n := mkM [(5, 0xAA), (6, 0x100)] [(0x100, 9)]
     s.holds 0x100 && s.drained 2
      && nexts (.sch 5 6 0) s (fun t => memRead t.mem 0x100 8 == 0xAA && !t.x.me.rsv && t.x.me.pc == 0x2001 && decide ((t.tl 0).resv = []))
      && nexts (.relr 6 0) s (fun t => decide (t.mem = s.mem) && !t.x.me.rsv && decide ((t.tl 0).resv = []))
      && !s.holds 0x108 && gives (.sch 5 6 1) s (s.trapC cRsvLeave 0x108) && gives (.relr 6 1) s (s.trapC cRsvLeave 0x108)
      && gives (.sch 5 6 0) n (n.trapC cRsvLeave 0x100)) = true := by decide +kernel

/-- R197, R199, R247: SCH and RELR give the word to the head of its FIFO: granted in a slot, made again in the fold; or the entry to the
head of the port's entry queue. -/
theorem test_reservation_passes :
    (let given (s : State) (i : Instr) (v : Nat) (l : List Resv) : Bool := nexts i s (fun t => (t.strandOf 2).any (fun st => st.gr 4 == wd v && st.rsv && st.pc == 0x2001
          && st.wait.isNone) && decide ((t.tl 0).resv = l) && !t.x.me.rsv && (t.tl 0).resvQ.isEmpty)
     let s : State := { sHold [(2, 4)] with strands := [me, other (.resv 0x100)] }
     let f : State := { s with strands := [me, { other (.resv 0x100) with place := .fold 0 }] }
     let q : State := { (sHold []).updTl 0 (fun x => { x with resvQ := [(2, 0x108, 4)] }) with strands := [me, other (.resv 0x108)] }
     localAccess s 0x100 8 needRW 0x100 && s.drained 2 && decide ((s.tl 0).resv.find? (·.holder == 1) = some { pa := 0x100, holder := 1, fifo := [(2, 4)] })
      && given s (.sch 5 6 0) 0xAA [{ pa := 0x100, holder := 2, fifo := [] }] && given s (.relr 6 0) 9 [{ pa := 0x100, holder := 2, fifo := [] }]
      && nexts (.relr 6 0) f (fun t => decide (t.strandOf 2 = some { other (.resv 0x100) with place := .fold 0, wait := none }))
      && given q (.relr 6 0) 0 [{ pa := 0x108, holder := 2, fifo := [] }]) = true := by decide +kernel

/-- R198, R199: LRW by the strand to which the word has come already; with 256 entries in use; and an LRW that traps. -/
theorem test_lrw_corners :
    (let s := mkM [(5, 0xAA), (6, 0x100)] [(0x100, 9)]
     let mine := s.updTl 0 (fun x => { x with resv := [{ pa := 0x100, holder := 1, fifo := [] }] })
     let full := s.updTl 0 (fun x => { x with resv := (List.range 256).map (fun i => { pa := 0x1000 + 8 * i, holder := 9, fifo := [] }) })
     let bad := mk [(6, 4)]
     nexts (.lrw 5 6 0) mine (fun t => regSet s.x.me t.x.me 5 9 && t.x.me.rsv && decide ((t.tl 0).resv = (mine.tl 0).resv))
      && nexts (.lrw 5 6 0) full (fun t => t.x.me.wait == some (.resv 0x100) && decide ((t.tl 0).resvQ = [(1, 0x100, 5)]))
      && gives (.lrw 5 6 0) bad ((bad.trapC cAlign 4).release 0 1)) = true := by decide +kernel

/-! ### Atomics -/

/-- R66, R200: each operation on −2 and 3 in 32 bits; a sum that wraps. -/
theorem test_amo_values : ([(0, 1), (1, 2 ^ 32 - 2), (2, 3), (3, 3), (4, 2 ^ 32 - 2), (5, 2), (6, 2 ^ 32 - 1), (7, 2 ^ 32 - 3), (9, 3)] : List (Nat × Nat)).all
    (fun p => amoNew (BitVec.ofNat 4 p.1) 4 (2 ^ 32 - 2) 3 == p.2) = true := by decide +kernel

/-- R200 to R202: local atomics of both sizes; the value returned at size W is zero-extended. -/
theorem test_atomics :
    (let s := mkM [(5, 9), (6, 0x100), (7, 3)] [(0x100, 2 ^ 32 + 2 ^ 31)]
     localAccess s 0x100 8 needRW 0x100 && localAccess s 0x104 4 needRW 0x104
      && storesAt (.amop 6 7 0 3) s 0x100 8 (2 ^ 32 + 2 ^ 31 + 3) && storesAt (.amop 6 7 0 2) s 0x100 4 (2 ^ 31 + 3)
      && nexts (.amor 5 6 7 9 2) s (fun t => regSet s.x.me t.x.me 5 (wd (2 ^ 31)) && memRead t.mem 0x100 8 == 2 ^ 32 + 3)
      && nexts (.cas 5 6 7 3) s (fun t => regSet s.x.me t.x.me 5 (wd (2 ^ 32 + 2 ^ 31)) && decide (t.mem = s.mem))
      && (let u := mkM [(5, 2 ^ 31), (6, 0x100), (7, 3)] [(0x100, 2 ^ 31)]
          nexts (.cas 5 6 7 3) u (fun t => regSet u.x.me t.x.me 5 (wd (2 ^ 31)) && memRead t.mem 0x100 8 == 3))) = true := by decide +kernel

/-- R201, R408: AMOZ that does not come to 0, that starts a handler, and that finds the handler queue full. -/
theorem test_amoz :
    (let s (c : Nat) : State := mkM [(6, 0x100), (7, 2 ^ 64 - 1)] [(0x100, c), (0x108, 0x4000)]
     let full := (s 1).updTl 0 (fun x => { x with handlers := List.replicate 32 { pc := 0, regs := [], g15 := 0 } })
     localAccess (s 1) 0x100 16 needRW 0x100 && storesAt (.amoz 6 7) (s 2) 0x100 8 1 && storesAt (.amoz 6 0) (s 0) 0x100 8 0
      && nexts (.amoz 6 7) (s 1) (fun t => memRead t.mem 0x100 8 == 0 && decide ((t.tl 0).handlers = [{ pc := 0x4000, regs := [0x100], g15 := 0 }]) && t.x.me.pc == 0x2001)
      && waits (.amoz 6 7) full (.handlerRoom 0x100 0x100 (wd (2 ^ 64 - 1)))) = true := by decide +kernel

/-! ### Counters and fences -/

/-- R204, R205, R239: a count reached exactly, one short, with ERR set; JOIN at 0 and above. -/
theorem test_counter_waits :
    (let s (c : Nat) : State := mkM [(6, 0x100), (7, 4)] [(0x100, c)]
     localAccess (s 4) 0x100 8 needR 0x100 && goes (.ccwait 6 7) (s 4) 0x2001 && waits (.ccwait 6 7) (s 3) (.counter 0x100 false 4)
      && goes (.ccwait 6 7) (s (2 ^ 63)) 0x2001 && goes (.ccwaitLong 6 5) (s 5) 0x2001 && waits (.ccwaitLong 6 5) (s 4) (.counter 0x100 false 5)
      && goes (.join 6) (s 0) 0x2001 && waits (.join 6) (s 1) (.counter 0x100 true 0)) = true := by decide +kernel

/-- R205: a write to the word ends the wait of a strand; a poll that comes due fetches again. -/
theorem test_counter_notice :
    (let st : Strand := { me with wait := some (.counter 0x100 false 4) }
     let poll : State := { mk [] with strands := [{ me with wait := some (.poll 0x30000 (2 ^ 29) false 4) }], inp := { sid := 1 } }
     decide (st.notice 0x20 4 = st.done st.g (st.pc + 1)) && decide (st.notice 0x20 3 = st) && decide (st.notice 0x21 4 = st)
      && nexts .ccwaitPoll poll (fun t => decide (t.strandOf 1 = some { me with wait := some (.fetch 0x30000 (2 ^ 29) (.poll false 4)) }))) = true := by
  decide +kernel

/-- R90, R193: FENCE before and after its acknowledgements, by scope, and with a failed operation to report. -/
theorem test_fence :
    (let s := withPosts (mk []) 1
     let f := (mk []).upd (fun st => { st with fail := some (cProt, 0x30000) })
     !s.drained 1 && s.drained 0 && waits (.fence 1) s (.acks 1) && goes (.fence 0) s 0x2001
      && gives (.fence 2) f ((mk []).trapC cProt 0x30000)) = true := by decide +kernel

/-- R186, R189, R211, R212: MIG by home and pinning, PIN, UNPIN, PREF, DISCARD of scratchpad and of a misaligned range. -/
theorem test_pinning :
    (let s := mk [(5, 0x100), (6, 0x30000), (7, 0x20000), (8, 64), (9, 0x20020)]
     let p := onMe s (fun st => { st with sw := wd (2 ^ 18 + 2 ^ 19), migcnt := 3, migwin := 4 })
     mapsTo s 0x100 needR 0x100 && goes (.mig 5) s 0x2001 && waits (.mig 6) s (.depart 1) && goes (.mig 6) p 0x2001
      && becomes (.pin) s { s.x.me with sw := wd (2 ^ 18) } && becomes .unpin p { p.x.me with sw := 0, migcnt := 0, migwin := 0 } && goes (.pref 6) s 0x2001
      && mapsTo s 0x20000 needW (2 ^ 42) && isSpad (localOf (2 ^ 42)) && goes (.discard 7 8) s 0x2001 && gives (.discard 9 8) s (s.trapC cAlign 0x20020)
      && gives (.discard 7 9) s (s.trapC cAlign 0x20000)) = true := by decide +kernel
/-! ### Event records -/

/-- R447 to R449: a record written in the first and in the second pass, held while the queue is full, and dropped. -/
theorem test_event_queue :
    (let r := eventRecord 0x28 0 1 5 0 7250 0x100000001
     let q (n h held : Nat) : Pasture :=
       { pcb := { evqn := 4, evq := 0x1000 }, evqtail := BitVec.ofNat 32 n, records := n, evqhead := BitVec.ofNat 32 h, evheld := List.replicate held [] }
     let s (n h held : Nat) : State := { mk [] with pastures := [(0, q n h held)] }
     r.length == 32 && !((s 3 0 0).pas 0).evqFull && ((s 4 0 0).pas 0).evqFull
      && (let t := (s 3 0 0).postRecord 0 r; decide (memBytes t.mem (hostKey 0x1060) 32 = recSet r 2 1 1) && (t.pas 0).evqtail == 4)
      && (let t := (s 4 4 0).postRecord 0 r; decide (memBytes t.mem (hostKey 0x1000) 32 = recSet r 2 1 0) && (t.pas 0).evqtail == 5)
      && (let t := (s 4 0 1023).postRecord 0 r; (t.pas 0).evheld.length == 1024 && (t.pas 0).evqtail == 4)
      && (let t := (s 4 0 1024).postRecord 0 r; (t.pas 0).evheld.length == 1024 && (t.pas 0).evdrop == 1)) = true := by decide +kernel

/-- The bytes of R449's example: a SET_DONE of pasture 1, class 1, set 5 at 7,250 ns. -/
theorem test_event_record : recSet (eventRecord 0x28 1 1 5 0 7250 0x100000001) 2 1 1 =
    [0x28, 1, 1, 1, 5, 0, 0, 0] ++ List.replicate 8 0 ++ [0x52, 0x1C, 0, 0, 0, 0, 0, 0] ++ [1, 0, 0, 0, 1, 0, 0, 0] := by decide +kernel

end Sys2Proof.Tests
end

