-- ==== Sys2Proof/Tests/Dispatch.lean ====
section
/-! SUPPORT. Tests of slices, groups, budgets, binding, migration, walks, pinned reads and posted operations. -/

set_option Elab.async false

namespace Sys2Proof.Tests

open Sys2Proof Sys2Proof.Machine

/-! ### SPAWN -/

/-- A slice packet (R216): entry 0x10000, argument 7, AFFINITY, JOIN, class 1. -/
def packet (aff join cls : Nat) : List (Nat × Nat) :=
  [(0x100, 0x10000), (0x108, 7), (0x110, aff), (0x118, join), (0x138, cls)]
/-- A strand of depth 3 with a packet at 0x100, in a pasture with class 1 open, n of its pool entries of 2 taken. -/
def sSpawn (n : Nat) (l : List (Nat × Nat)) : State :=
  let s := onMe (mkM [(6, 0x100)] l) (fun st => { st with slice := { depth := 3 } })
  { s with pastures := [(0, { pcb := { pool := 2 }, opened := 2, pool := n })] }

/-- R217, R221: a malformed packet; an AFFINITY and a JOIN beyond the address space, that translate to no tile, or that may not be
written. -/
theorem test_spawn_traps :
    (let a := sSpawn 0 (packet 0 0 0x1001)
     let b (aff : Nat) : State := sSpawn 0 (packet aff 0 1)
     let c (join : Nat) : State := sSpawn 0 (packet 0x100 join 1)
     localAccess a 0x100 64 needR 0x100 && a.drained 2 && packetBad (memBytes a.mem 0x100 64) && !packetBad (memBytes (b 0).mem 0x100 64)
      && mapsTo (c 0) 0x100 needNone 0x100 && mapsTo (c 0) 0x40000 needRW (3 * 2 ^ 42)
      && traps (.spawn 5 6) a cProt 0x100 && traps (.spawnw 5 6) a cProt 0x100
      && traps (.spawn 5 6) (b (2 ^ 56)) cXlate (wd (2 ^ 56)) && traps (.spawn 5 6) (b 0x40000) cProt 0x40000
      && traps (.spawnw 5 6) (c (2 ^ 56)) cXlate (wd (2 ^ 56)) && traps (.spawnw 5 6) (c 0x40000) cProt 0x40000
      && traps (.spawnw 5 6) (c 0x60000) cProt 0x60000) = true := by decide +kernel

/-- R237: 2 for depth, 3 for a closed class, 0 or a wait for a full pool. -/
theorem test_spawn_refused :
    (let deep (n : Nat) : State := onMe (sSpawn 0 (packet 0 0 1)) (fun st => { st with slice := { depth := n } })
     let full := sSpawn 2 (packet 0 0 1)
     let closed := sSpawn 0 (packet 0 0 3)
     cwn (.spawn 5 6) (deep 24) 5 2 && cwn (.spawnw 5 6) (deep 24) 5 2 && !cwn (.spawn 5 6) (deep 23) 5 2
      && cwn (.spawn 5 6) closed 5 3 && cwn (.spawnw 5 6) closed 5 3 && cwn (.spawn 5 6) full 5 0
      && waitsNoting (.spawnw 5 6) full (.pool 5 (memBytes full.mem 0x100 64))) = true := by decide +kernel

/-- R220, R237: an accepted child, without a join counter, and with one on the strand's tile or on another. -/
theorem test_spawn :
    (let one (i : Instr) (join : Nat) (f : State → Bool) : Bool :=
      let s := sSpawn 1 (packet 0x30000 join 1)
      nexts i s (fun t => regSet s.x.me t.x.me 5 1 && t.x.me.pc == 0x2001 && (t.pas 0).pool == 2 && f t
        && memRead t.mem 0x200 8 == (if join = 0x200 then 1 else 0)
        && (t.pas 0).classQ.map (fun l => (l.home, l.cls, l.depth, l.entry, l.arg)) == [(1, 1, 4, 0x10000, 7)])
     one (.spawn 5 6) 0 (fun _ => true) && one (.spawnw 5 6) 0 (fun _ => true) && one (.spawn 5 6) 0x200 (·.unacked.isEmpty)
      && one (.spawn 5 6) 0x30008 (fun t => match t.unacked, (t.pas 0).classQ with
          | [k], [l] => decide (k.body = .post (.amo 0 (2 ^ 29 + 8) 8 1 0x30008)) && l.after == some k.id && k.dst == 1
          | _, _ => false)) = true := by decide +kernel

/-! ### Slice instructions -/

/-- A strand of tile 0 whose slice has a value of its own for each selector. -/
def sSlice : State := onMe (mk [(6, 0), (7, 5)]) (fun st => { st with
  budget := 5, watch := 9, grace := true
  slice := { depth := 1, cls := 2, near := true, ngrp := 3, budget := 4, join := 8, affinity := 6, accept := 7, ed := -1 } })

/-- R242: the selectors, at both ends; beyond them ILLEGAL. -/
theorem test_sliceinfo : (!sSlice.x.me.hslot && originOf sSlice.x.me.sid == sSlice.here
    && ([(0, 1), (1, 2), (2, 1), (3, 3), (4, 4), (5, 8), (6, 6), (7, 7), (8, 2 ^ 64 - 1), (9, 24), (10, 16384)] : List (Nat × Nat)).all
      (fun p => cw (.sliceinfo 5 (BitVec.ofNat 8 p.1)) sSlice 5 (wd p.2))
    && gives (.sliceinfo 5 11) sSlice sSlice.illegalC
    && (let h := onMe sSlice (fun st => { st with sw := wd (2 ^ 23) }); cw (.sliceinfo 5 0) h 5 0 && cw (.sliceinfo 5 8) h 5 0)) = true := by
  decide +kernel

/-- R241: DEADLINE 0 gives the acceptance time and AGE. -/
theorem test_dlset : nexts (.dlset 6) sSlice (fun t => t.x.me.slice.ed == 1000007 && t.x.me.deadline == 0 && t.x.me.pc == 0x2001) = true := by
  decide +kernel

/-- R240: YIELD to the fold; of a strand kept in its slot; with the fold full; away from the record with a command queued. -/
theorem test_yield :
    (let live := onMe sSlice (fun st => { st with sw := wd (2 ^ 16) })
     let full : State := { sSlice with strands := List.replicate 256 { sid := 9, place := .fold 0 } }
     let far := withPosts (onMe sSlice (fun st => { st with sid := wd (2 ^ 25 + 1) })) 0
     let busy : State := { far with unacked := [{ id := 9, party := .strand (wd (2 ^ 25 + 1)), src := 0, dst := 1, body := .ack 0 }] }
     sSlice.foldRoom 0 && !full.foldRoom 0
      && nexts .yield sSlice (fun t => t.x.me.place == .fold 0 && t.x.me.budget == 4 && t.x.me.watch == 0 && !t.x.me.grace && t.x.me.pc == 0x2001)
      && nexts .yield live (fun t => t.x.me.place == .slot 0 0 0 && t.x.me.budget == 4 && t.x.me.pc == 0x2001)
      && nexts .yield full (fun t => t.x.me.place == .slot 0 0 0 && t.ctr 0 ctrFoldFull == 1)
      && originOf busy.x.me.sid == 1 && !busy.mayLeave busy.x.me && waits .yield busy (.fetch 0 (2 ^ 29) .record)
      && waits (.sliceinfo 5 10) busy (.fetch 0 (2 ^ 29) .record)
      && nexts .yield (noting far [(105, 0)]) (fun t => t.x.me.place == .fold 0 && t.x.me.budget == 4)
      && nexts .yield (noting far [(105, cHomeLost)]) (fun t => t.x.trap.any (·.cause == cHomeLost))) = true := by
  decide +kernel

/-! ### Groups -/

/-- R235: GRP names groups 3 and 0; 255 is never one. -/
theorem test_group_instructions :
    (let s := onMe (mk []) (fun st => { st with grp := 0xFFFF0003 })
     s.x.me.inGroup 3 && s.x.me.inGroup 0 && !s.x.me.inGroup 255 && !s.x.me.inGroup 4 && s.drained 2
      && gives (.gbar 4) s (s.trapC cProt 4) && gives (.garrive 4) s (s.trapC cProt 4) && gives (.gwait 255) s (s.trapC cProt 255)
      && ([(.gbar 3, true, true), (.garrive 3, true, false), (.gwait 3, false, true)] : List (Instr × Bool × Bool)).all (fun (i, a, b) =>
          nexts i s (fun t => decide (t.x = (s.park (.groupAck 3)).x) && t.mesh.map (fun k => (k.body, k.dst)) == [(.group 1 3 a b, 0)]))
      && waits (.gbar 3) (withPosts s 1) (.acks 2) && waits (.garrive 3) (withPosts s 1) (.acks 2)) = true := by decide +kernel

/-- A group access of strand 1 on its way, with the members and the arrivals given. -/
def sGroup (members : Nat) (arrived : List Word) (arrive blocking : Bool) : State :=
  { mk [] with
    pastures := [(0, { groups := [(3, { phase := 8, members := members, arrived := arrived })] })]
    strands := [{ me with wait := some (.groupAck 3) }]
    mesh := [{ id := 7, party := .strand 1, src := 0, dst := 0, body := .group 1 3 arrive blocking }], inp := { k := 7 } }

/-- R234, R235: an arrival short of the members, one that completes them, a second arrival, and waits. -/
theorem test_group_phases :
    (let run (s : State) (f : Group → Option Strand → Bool) : Bool := nexts .groupAccess s (fun t => t.mesh.isEmpty && f (tget (t.pas 0).groups 3 {}) (t.strandOf 1))
     run (sGroup 3 [2] true true) (fun g st => g.arrived == [2, 1] && g.phase == 8 && st.any (fun st => st.wait == some (.group 3 false true)))
      && run (sGroup 3 [2] true false) (fun g st => g.arrived == [2, 1] && st.any (fun st => st.wait == none && st.pc == 0x2001))
      && run (sGroup 2 [2] true true) (fun g st => g.arrived == [] && g.phase == 9 && g.waiters == [] && st.any (fun st => st.pc == 0x2001))
      && run (sGroup 3 [1] true true) (fun g st => g.arrived == [1] && g.waiters == [1] && st.any (fun st => st.wait == some (.group 3 true true)))
      && run (sGroup 3 [1] false true) (fun g st => g.waiters == [1] && st.any (fun st => st.wait == some (.group 3 false true)))
      && run (sGroup 3 [2] false true) (fun g st => g.arrived == [2] && st.any (fun st => st.pc == 0x2001))) = true := by decide +kernel

/-! ### Budgets and timers -/

/-- R231, R410, R187: what one bundle of 8 turns charges; the migration window of 10 wraps. -/
theorem test_charge :
    (let st : Strand := { me with budget := 8, migwin := 3, migcnt := 5 }
     let h : Strand := { st with sw := wd (2 ^ 23), hturns := 100 }
     (st.charge 8 10).budget == 0 && (st.charge 8 10).migwin == 1 && (st.charge 8 10).migcnt == 0 && (st.charge 6 10).migcnt == 5
      && (h.charge 8 10).budget == 8 && (h.charge 8 10).hturns == 108) = true := by decide +kernel

/-- R148, R153, R410: BUDGET at 0 enters the handler; within its grace, and in a handler slot, the strand stops. -/
theorem test_budget :
    (let s := onMe (mk []) (fun st => { st with budget := 0 })
     let g := onMe s (fun st => { st with grace := true })
     let h := onMe (mk []) (fun st => { st with sw := wd (2 ^ 23), hturns := 4096 })
     s.x.me.inSlot && nexts .budget s (fun t => t.x.me.inTrap && t.x.me.budget == 256 && t.x.me.utc == 0x0B && t.free == 1)
      && nexts .budgetGraceExpiry g (fun t => t.x.me.stop == some .escalated) && nexts .handlerBudget h (fun t => t.x.me.stop == some .escalated)
      && nexts .budget (mk []) (fun t => t.x.me.pc == 0x2000 && !t.x.me.inTrap)) = true := by decide +kernel

/-- R232: the watch timer at its interval, once. -/
theorem test_watch :
    (let s (n : Nat) (f : Bool) : State := { mk [] with
        pastures := [(0, { pcb := { watch := [0, 50] } })], strands := [{ me with watch := n, fired := f, slice := { cls := 1 } }], inp := { sid := 1 } }
     nexts .watch (s 50 false) (fun t => (t.strandOf 1).any (·.fired)) && nexts .watch (s 49 false) (fun t => (t.strandOf 1).any (fun st => !st.fired))
      && nexts .watch (s 50 true) (fun t => (t.pas 0).evqtail == 0)) = true := by decide +kernel

/-! ### Placement and binding -/

/-- Slices of class 2 and class 1 wait in their class queue, with the credits given. -/
def sMove (near : Bool) (credit : List Nat) : State :=
  { mk [] with pastures := [(0, { classQ := [{ cls := 2, home := 5, entry := 0x10000, near := near }, { cls := 1, home := 5 }], credit := credit })] }
/-- The same with every slot of tile 5 taken. -/
def sMoveFull : State :=
  { sMove true [0, 0, 1] with strands := (List.range 56).map (fun i => { sid := wd i, place := .slot 5 (i / 14) (i % 14) }) }
/-- The placement of a slice on its way to tile 5, whose ready queue holds n. -/
def sPlace (n : Nat) : State :=
  { mk [] with tiles := [(5, { readyQ := List.replicate n { cls := 3, home := 5 } })], inp := { k := 7, l := 1 }
               mesh := [{ id := 7, party := .cmd 0, src := 0, dst := 5, body := .slice { cls := 2, home := 0 } }] }

/-- R221, R222, R224: the class that has credit, or the first when all are renewed; the tile of a STRICT slice and of a NEAR one; the
ready queue with 63 and with 64 slices. -/
theorem test_class_queue_move :
    (let to_ (s : State) (c d : Nat) : Bool := nexts .classQueueMove s (fun t => (t.pas 0).classQ.length == 1
        && (match t.mesh with | [k] => (match k.body with | .slice l => l.cls == c | _ => false) && k.dst == d && k.want == 1 | _ => false))
     decide (sMoveFull.freeSlot 5 = none) && decide ((sMove false []).freeSlot 5 = some (0, 0)) && to_ (sMove false [0, 0, 1]) 2 5 && to_ (sMove true [0, 0, 1]) 2 5
      && to_ (sMove false [0, 0, 0]) 1 5 && to_ (sMove false [0, 1, 1]) 1 5
      && nexts .classQueueMove (sMove false [0, 0, 0]) (fun t => (t.pas 0).credit == [0, 0, 1, 1, 1, 1, 1, 1])
      && nexts .classQueueMove (sPlace 63) (fun t => (t.tl 5).readyQ.length == 64 && t.mesh.isEmpty && ((t.tl 5).readyQ.map (·.home)) == List.replicate 64 5)
      && nexts .classQueueMove (sPlace 64) (fun t => (t.tl 5).readyQ.length == 64 && ((t.pas 0).overflow.map (·.cls)) == [2])) = true := by
  decide +kernel

/-- R134, R135, R225: a slice binds in slot 0 of core 1, where core 0 has a strand. -/
theorem test_slice_bind :
    (let s : State := { mk [] with tiles := [(0, { readyQ := [{ cls := 2, entry := 0x18, arg := 7, budget := 99, grp := 5 }], latch := [16] })]
                                   pastures := [(0, { pool := 1 })], inp := { k := 0, m := 3 } }
     decide (s.pasOfTile 0 = some 0) && s.indexFree 0 3 && decide (s.freeSlot 0 = some (1, 0)) && decide (s.firstCand 0 (·.cls == 0) = none)
      && nexts .sliceBind s (fun t => (t.tl 0).readyQ == [] && (t.pas 0).pool == 0 && (t.tl 0).latch == []
          && (t.strands.drop 1).map (fun st => (st.place, st.sid, st.pc, st.gr 1, st.gr 2)) == [(.slot 0 1 0, 3, 3, 7, 0)]
          && (t.strands.drop 1).map (fun st => (st.sw, st.budget, st.grp, st.utv)) == [(0, 99, 5, 0)])) = true := by decide +kernel

/-- Tile 0 with every slot taken: strand 1 of class 2 waits in slot 0 of core 0, the others live on; a slice of class c waits. -/
def sFullTile (c : Nat) : State :=
  { mk [] with
    strands := { me with wait := some (.counter 0 true 0), slice := { cls := 2, ed := 9 } } ::
      (List.range 55).map (fun i => { sid := wd (i + 2), place := .slot 0 ((i + 1) / 14) ((i + 1) % 14), sw := wd (2 ^ 16) })
    tiles := [(0, { readyQ := [{ cls := c, ed := 8 }] })], inp := { k := 0, m := 77 } }

/-- R225, R227: the hypotheses of a bind in a slot that is taken: the victim of a class-0 slice, and the longest-parked strand. -/
theorem test_bind_over :
    (let a := sFullTile 0
     let b := sFullTile 1
     decide (a.freeSlot 0 = none) && a.foldRoom 0 && a.indexFree 0 77 && decide (a.pasOfTile 0 = some 0)
      && decide (a.firstCand 0 (·.cls == 0) = some ({ cls := 0, ed := 8 }, none)) && (a.victim 0).any (fun v => v.sid == 1 && v.inSlot)
      && decide (b.firstCand 0 (·.cls == 0) = none) && decide (b.firstCand 0 (fun _ => true) = some ({ cls := 1, ed := 8 }, none))
      && (b.longestParked 0).any (fun v => v.sid == 1 && decide ((8 : Int) < v.slice.ed))) = true := by decide +kernel

/-- R234, R235: the phase opens for a waiter that had arrived before and arrives again in the new one, blocking or not; the access of a
strand that is gone. -/
theorem test_group_reopens :
    (let s (b : Bool) : State := { sGroup 2 [2] true true with
        pastures := [(0, { groups := [(3, { phase := 8, members := 2, arrived := [2], waiters := [2] })] })]
        strands := [{ me with wait := some (.groupAck 3) }, { me with sid := 2, place := .slot 0 0 1, wait := some (.group 3 true b) }] }
     let run (s : State) (f : Group → Option Strand → Bool) : Bool := nexts .groupAccess s (fun t => f (tget (t.pas 0).groups 3 {}) (t.strandOf 2)
        && (t.strandOf 1).any (fun st => st.pc == 0x2001 && st.wait.isNone))
     run (s true) (fun g st => g.phase == 9 && g.arrived == [2] && g.waiters == [2] && st.any (·.wait == some (.group 3 false true)))
      && run (s false) (fun g st => g.phase == 9 && g.arrived == [2] && g.waiters == [] && st.any (fun st => st.wait.isNone && st.pc == 0x2001))
      && nexts .groupAccess { sGroup 2 [2] true true with strands := [] } (fun t => t.mesh.isEmpty
        && decide (t.pastures = (sGroup 2 [2] true true).pastures))) = true := by decide +kernel

/-! ### Migration -/

/-- The test strand waits to leave for tile 1. -/
def sLeave : State :=
  { mk [] with strands := [{ me with wait := some (.depart 1), sw := wd (2 ^ 22 + 3), utc := 5, utv := wd (2 ^ 56 + 8) }], inp := { sid := 1 } }

/-- R87, R136, R139, R182, R230: the context leaves, and what it keeps; before its acknowledgements nothing happens; with the fold full it
keeps its slot. -/
theorem test_migration_depart :
    (let s := sLeave
     let w := withPosts s 1
     let full : State := { s with strands := s.strands ++ List.replicate 256 { sid := 9, place := .fold 0 } }
     let pin : State := { s with strands := s.strands.map (fun st => { st with sw := wd (2 ^ 18) }) }
     s.strands.all (fun st => s.mayLeave st && s.moves st) && w.strands.all (fun st => !w.mayLeave st) && gives .migrationDepart w w
      && nexts .migrationDepart s (fun t => t.mesh.map (fun k => (k.src, k.dst, k.cls)) == [(0, 1, 0)]
          && (t.strandOf 1).any (fun st => st.place == .transit 0 && st.sw == 3 && st.utc == 5 && st.wait == none && st.cOnly && st.arrived && st.migcnt == 1)
          && (t.tl 0).departing == [(1, none)])
      && !full.foldRoom 0 && (full.strandOf 1).any (fun st => st.inSlot && !st.pinReason && st.fail.isNone && full.mayLeave st)
      && nexts .migrationDepart pin (fun t => t.mesh.isEmpty && (t.strandOf 1).any (fun st => st.wait == none && st.place == .slot 0 0 0))) = true := by decide +kernel

/-- The context of strand 1 on its way to tile 1, with n contexts in the arrival queue there and c migrations counted. -/
def sArrive (n c : Nat) (failed : Bool) : State :=
  { mk [] with
    tiles := [(0, { departing := [(1, some (2, 3))] }), (1, { failed := failed, arrivals := List.replicate n 9 })]
    strands := [{ me with place := .transit 0, migcnt := c }]
    mesh := [{ id := 7, party := .strand 1, src := 0, dst := 1, body := .context 1 500 }], inp := { k := 7 } }

/-- R183 to R185: a failed tile, a full arrival queue, and room for one. -/
theorem test_context_arrival :
    (let f := sArrive 0 0 true
     let r := sArrive 32 0 false
     let a := sArrive 31 32 false
     nexts .contextArrival f (fun t => t.mesh.isEmpty && (t.strandOf 1).any (fun st => st.place == .slot 0 2 3))
      && nexts .contextArrival r (fun t => t.mesh.map (fun k => (k.body, k.src, k.dst)) == [(.contextRefused 1 500, 1, 0)] && decide (t.strands = r.strands))
      && (a.packet 7).any (fun k => k.body == .context 1 500 && a.target k == 1 && !(a.tl 1).failed
          && decide ((a.tl 1).arrivals.length < 32))
      && nexts .contextArrival a (fun t => (t.tl 1).arrivals.drop 31 == [1] && t.mesh.map (fun k => (k.body, k.src, k.dst)) == [(.contextAck 1, 1, 0)]
          && (t.strandOf 1).any (fun st => st.place == .arrival 1))) = true := by decide +kernel

/-- R182, R184: the retry, and the acknowledgement. -/
theorem test_migration_retry :
    (let back (b : Body) : State := { mk [] with tiles := [(0, { departing := [(1, none)] })]
                                                 mesh := [{ id := 7, party := .strand 1, src := 1, dst := 0, body := b }], inp := { k := 7 } }
     nexts .migrationRetry (back (.contextRefused 1 500)) (fun t => t.mesh.map (fun k => (k.body, k.src, k.dst)) == [(.context 1 500, 0, 1)]
        && (t.strandOf 1).any (·.retries == 1))
      && nexts .arrivalAck (back (.contextAck 1)) (fun t => t.mesh.isEmpty && (t.tl 0).departing == [])) = true := by decide +kernel

/-- R182, R183: the head of the arrival queue takes slot 0 of core 0 of its tile. -/
theorem test_arrival_bind :
    (let s : State := { mk [] with tiles := [(0, { arrivals := [2, 3], latch := [16] })], inp := { k := 0 }
                                   strands := [me, { sid := 2, place := .arrival 0, pc := 9, cOnly := true }] }
     decide (s.freeSlot 0 = some (1, 0))
      && nexts .arrivalBind s (fun t => (t.tl 0).arrivals == [3] && (t.tl 0).latch == []
          && (t.strandOf 2).any (fun st => st.place == .slot 0 1 0 && st.pc == 9 && st.cOnly && st.retries == 0))) = true := by decide +kernel

/-! ### Walks and pinned reads -/

/-- Page tables of one level each (R175) for page 0x80000, which maps to itself with R and W, below a root at 0x200000. -/
def sWalk (leaf : Nat) : State :=
  { mkM [] [(0x200000, 0x201001), (0x201000, 0x202001), (0x202000, 0x203001), (0x203000, 0x204001), (0x204000 + 8 * 8, leaf)] with
    pastures := [(0, { pcb := { roots := [0x200000] } })]
    tiles := [(0, { walks := [0x80000] })], strands := [{ me with wait := some (.walk 0x80010) }], inp := { k := 0, val := 0x80000 } }

/-- R174, R177: a walk that succeeds, and one that finds no leaf. -/
theorem test_walk :
    (let s := sWalk (0x80000 + 0x1B)
     let f := sWalk 0
     decide (s.walk 0 0 0x80000 = .ok { asp := 0, base := 0x80000, bits := 16, pa := 0x80000, r := true, w := true, x := false, s := false })
      && decide (f.walk 0 0 0x80000 = .fault cXlate) && (s.walkers 0 0x80000 none).length == 1
      && nexts .walkComplete s (fun t => (t.tl 0).tlb.length == 1 && (t.tl 0).walks == [] && (t.strandOf 1).any (fun st => st.wait == none && st.pc == 0x2000))
      && nexts .walkComplete f (fun t => (t.tl 0).tlb == [] && (t.strandOf 1).any (fun st => st.inTrap && st.utc == 4 && st.utval == 0x80010))) = true := by
  decide +kernel

/-- R87, R190: the read leaves. -/
theorem test_fetch_send :
    (let s : State := { mk [] with strands := [{ me with wait := some (.fetch 0x30008 (2 ^ 29 + 8) (.load 8 false 5)) }], inp := { sid := 1 } }
     s.strands.all (fun st => s.moves st && s.mayLeave st)
      && nexts .pinnedFetchSend s (fun t => t.mesh.map (fun k => (k.body, k.src, k.dst)) == [(.fetch 1 0x30008 (2 ^ 29 + 8) (.load 8 false 5), 0, 1)]
          && (t.strandOf 1).any (·.wait == some (.reply 0x30008 (2 ^ 29 + 8) (.load 8 false 5))))) = true := by decide +kernel

/-- A request on its way to word 2^29 + 8 of tile 1, which holds 9. -/
def sReq (r : Req) (failed bad : Bool) : State :=
  { mkM [] [(2 ^ 29 + 8, 9)] with
    tiles := [(1, { failed := failed })], bad := if bad then [2 ^ 26 + 1] else []
    mesh := [{ id := 7, party := .strand 1, src := 0, dst := 1, body := .fetch 1 0x30008 (2 ^ 29 + 8) r }], inp := { k := 7 } }

/-- R190, R202, R203, R214: a load, an atomic, an exchange that fails; an error; a failed home. -/
theorem test_fetch_request :
    (let out (s : State) (v m : Nat) (c : Option Nat) : Bool := nexts .pinnedFetchRequest s (fun t =>
        (match t.mesh with
         | [k] => (match k.body with | .data 1 _ w e 0x30008 => w == BitVec.ofNat 2048 v && e == c && k.dst == 0 | _ => false)
         | _ => false) && memRead t.mem (2 ^ 29 + 8) 8 == m)
     out (sReq (.load 8 false 5) false false) 9 9 none && out (sReq (.amor 0 8 3 5) false false) 9 12 none
      && out (sReq (.cas 8 8 3 5) false false) 9 9 none && out (sReq (.cas 8 9 3 5) false false) 9 3 none
      && out (sReq (.load 8 false 5) false true) 0 9 (some cMemerr) && out (sReq (.load 8 false 5) true true) 0 9 (some cHomeLost)
      && (let h : State := { sReq (.load 8 false 5) false false with cmds := [{ id := 1, sid := 2, pasture := 0, tile := 1, core := 0, eng := .bank, exTile := 1, op := .bsum 0 0 0, lo := 2 ^ 29, hi := 2 ^ 29 + 9, st := .held }] }
          nexts .pinnedFetchRequest h (fun t => t.mesh.map (·.id) == [7] && decide (t.mem = h.mem) && t.ctr 1 0x218 == 1))) = true := by decide +kernel

/-- R190, R214: the answer completes the bundle, sign-extended, or with the trap of its error. -/
theorem test_fetch_reply :
    (let s (c : Option Nat) : State := { mk [] with
        strands := [{ me with wait := some (.reply 0x30008 (2 ^ 29 + 8) (.load 2 true 5)), cOnly := true }]
        mesh := [{ id := 7, party := .strand 1, src := 1, dst := 0, body := .data 1 (.load 2 true 5) 0xFFFE c 0x30008 }], inp := { k := 7 } }
     nexts .pinnedFetchReply (s none) (fun t => t.mesh.isEmpty && (t.strandOf 1).any (fun st => st.gr 5 == wd (2 ^ 64 - 2) && st.pc == 0x2001 && st.wait == none))
      && nexts .pinnedFetchReply (s (some cMemerr)) (fun t => (t.strandOf 1).any (fun st => st.inTrap && st.utc == 0x109 && st.utval == 0x30008 && st.gr 5 == 0)))
     = true := by decide +kernel

/-! ### Posted operations -/

/-- A posted operation, number n of its party, on its way to tile 1, which expects number 4. -/
def sPost (o : Post) (n : Nat) (failed : Bool) : State :=
  { mkM [] [(2 ^ 29 + 8, 9)] with
    tiles := [(1, { failed := failed })], seqExp := [((.strand 1, 1), 4)]
    mesh := [{ id := 7, party := .strand 1, src := 0, dst := 1, seq := n, body := .post o }], inp := { k := 7 } }

/-- What goes back for it, and what the word then holds. -/
def answered (s : State) (b : Body) (v : Nat) (next : Nat) : Bool :=
  nexts .postedOpArrival s (fun t => t.mesh.map (fun k => (k.body, k.dst)) == [(b, 0)] && memRead t.mem (2 ^ 29 + 8) 8 == v
    && seqGet t.seqExp (.strand 1) 1 == next)

/-- R82: in its turn, before it and after it; at a failed home. -/
theorem test_posted_store :
    (let o : Post := .store (2 ^ 29 + 8) 2 0x12345 0x30008
     answered (sPost o 4 false) (.ack 7) 0x2345 5 && answered (sPost o 3 false) (.ack 7) 9 4 && answered (sPost o 5 false) (.refused 7) 9 4
      && answered (sPost o 4 true) (.nack 7 cHomeLost 0x30008) 9 5) = true := by decide +kernel

/-- R193, R200, R214, R238: a posted atomic, one that meets an error, and a join decrement. -/
theorem test_posted_amo :
    (let o : Post := .amo 0 (2 ^ 29 + 8) 8 (wd (2 ^ 64 - 10)) 0x30008
     answered (sPost o 4 false) (.ack 7) (2 ^ 64 - 1) 5 && answered { sPost o 4 false with bad := [2 ^ 26 + 1] } (.nack 7 cMemerr 0x30008) 9 5
      && answered (sPost (.joinDec (2 ^ 29 + 8) 0x30008) 4 false) (.ack 7) 8 5) = true := by decide +kernel

end Sys2Proof.Tests
end

