-- ==== Sys2Proof/Tests/Engines.lean ====
section
/-! SUPPORT. Tests of engine commands: issue, acceptance, reports, status, and what each command does on one element (R28 to R32, R208,
R260 to R262, R278 to R357). -/

set_option Elab.async false

namespace Sys2Proof.Tests

open Sys2Proof Sys2Proof.Machine

/-! ### Issue -/

/-- A block of n bytes with the fields (offset, size, value). -/
def block (n : Nat) (l : List (Nat × Nat × Nat)) : List Byte := memBytes (l.foldl (fun m p => memPut m p.1 (leBytes p.2.1 p.2.2)) []) 0 n
/-- The fields stand in a block at 0x400, to which g6 points; g7 points to a counter at 0x300. -/
def sBlk (l : List (Nat × Nat × Nat)) : State :=
  { mk [(6, 0x400), (7, 0x300)] with mem := memPut [] 0x400 (block 192 l) }
/-- Issues, decided: one command is queued with the counter given; with two in the queue the bundle waits. -/
def issues (i : Instr) (s : State) (e : Engine) (ctr : Option Nat) (more : Cmd → Bool) : Bool :=
  let two := { s with cmds := List.replicate 2 { id := 0, sid := 9, pasture := 0, tile := 0, core := 0, eng := e, exTile := 0, op := .fdone } }
  !s.longBusy s.x.me && nexts i s (fun u => u.cmds.length == 1 && u.cmds.all (fun c => decide (c.op = i) && c.eng == e && c.ctr == ctr && c.sid == 1 && more c)
    && u.x.me.pc == 0x2001 && decide (u.mem = s.mem)) && waitsNoting i two .queue
/-- It is PROT with the address given. -/
def prots (i : Instr) (s : State) (a : Nat) : Bool := traps i s cProt (wd a)

/-- R285, R296, R298, R322: copies, stream copies and matrix commands are queued with their blocks. -/
theorem test_issue_copies :
    (let s := sBlk [(0, 8, 0x1234), (0x10, 8, 0x300)]
     let m := sBlk [(0, 8, 0x1234)]
     let t := { s with tiles := [(0, { tlb := pages, streams := [(1, { owner := some 1 })] })] }
     mapsTo s 0x400 needR 0x400 && isLocal s 0x400 192 && issues (.cpy 6 7 0) s .copy (some 0x300) (fun c => c.blk.length == 192 && c.st == .queued) && gives (.cpys 1 6 0) s s.illegalC
      && issues (.cpys 1 6 2) t .copy (some 0x300) (fun c => c.num == 1) && issues (.mxldb 6 7 0) m .matrix (some 0x300) (fun c => c.blk.length == 64)
      && issues (.mxrun 6 7 0) m .matrix (some 0x300) (fun c => c.blk.length == 128) && issues (.mxdrain 6 7 3) m .matrix (some 0x300) (fun c => c.exTile == 0)) = true := by
  decide +kernel

/-- R208: GET and PUT of tile 1, and a full server. -/
theorem test_issue_transfers :
    (let s := sBlk [(0, 8, 0x30000), (8, 8, 0x200)]
     let f := { s with cmds := List.replicate 16 { id := 0, sid := 9, pasture := 0, tile := 0, core := 1, eng := .getput, exTile := 0, op := .fdone } }
     mapsTo s 0x30000 needW (2 ^ 29)
      && nexts (.get 6 7 0) s (fun u => u.cmds.map (fun c => (c.eng, c.st, c.exTile, c.ctr)) == [(.getput, .held, 1, some 0x300)] && u.x.me.pc == 0x2001)
      && nexts (.put 6 7 0) s (fun u => u.cmds.map (fun c => (c.eng, c.st, c.exTile, c.ctr)) == [(.getput, .held, 1, some 0x300)])
      && waitsNoting (.get 6 7 0) f .queue && waitsNoting (.put 6 7 0) f .queue) = true := by decide +kernel

/-- The seven bank instructions. -/
def bankInstrs : List Instr := [.badd 6 7 0, .baxpy 6 7 0, .bscale 6 7 0, .bmax 6 7 0, .bfill 6 7 0, .bsum 6 7 0, .bexps 6 7 0]

/-- R278, R285: a range in the scratchpad is kept with its bounds; a range in DRAM is PROT. -/
theorem test_issue_bank :
    (bankInstrs.all (fun i => issues i (sBlk [(0, 8, 0x20010), (0x20, 4, 4)]) .bank (some 0x300) (fun c => c.exTile == 0 && c.lo == 2 ^ 42 + 16 && c.hi == 2 ^ 42 + 32 && c.num == 1))
      && bankInstrs.all (fun i => prots i (sBlk [(0, 8, 0x10), (0x20, 4, 4)]) 0x10)) = true := by decide +kernel

/-- R341, R355: the step-cache and select commands, and their malformed records. -/
theorem test_issue_select :
    (let own (l : List (Nat × Nat × Nat)) : State := { sBlk l with tiles := [(0, { tlb := pages, sel := [(2, { owner := some 1, heldK := 4, heldT := 0 })] })] }
     let h := onMe (sBlk []) (fun st => { st with sw := wd (2 ^ 23) })
     let opens := sBlk [(0, 4, 4), (4, 1, 1)]
     let full := { opens with tiles := [(0, { tlb := pages, sel := (List.range 4).map (fun i => (i, { owner := some (wd (9 + i)) })) })] }
     issues (.scinv 6) (sBlk []) .matrix none (fun c => c.arg == 0x400) && issues (.scset 6) (sBlk []) .matrix none (fun c => c.st == .queued)
      && prots (.scset 6) (sBlk [(8, 4, 32)]) 0x400 && [.selopen 6, .selpush 6 7, .selemit 6 7, .selreset, .fpop 5 6, .fdone].all (fun i => gives i h h.illegalC)
      && [.selpush 6 7, .selemit 6 7, .selreset].all (fun i => gives i (sBlk []) (sBlk []).illegalC)
      && issues .selreset (own []) .select none (fun c => c.num == 2) && nexts .selreset (own []) (fun u => (u.selCtx 0 2).owner == none)
      && issues (.selpush 6 7) (own [(0x10, 4, 1)]) .select (some 0x300) (fun c => c.num == 2) && prots (.selpush 6 7) (own [(0, 8, 2)]) 0x400
      && issues (.selemit 6 7) (own [(0x10, 2, 4), (0x12, 1, 1)]) .select (some 0x300) (fun c => c.num == 2) && prots (.selemit 6 7) (own [(0x10, 2, 5)]) 0x400
      && prots (.selopen 6) (sBlk [(0, 4, 257), (4, 1, 1)]) 0x400 && nexts (.selopen 6) opens (fun u => u.cmds.map (·.num) == [0] && (u.selCtx 0 0).owner == some 1)
      && nexts (.selopen 6) full (fun u => decide (u.x = ((full.noting u.x.log).park .queue).x) && (u.tl 0).selWait == [1] && u.cmds.isEmpty)) = true := by decide +kernel

/-- R379 to R381: pushes with a priority of their own and relative to VT, FDONE, and FPOP, which waits. -/
theorem test_issue_flock :
    (let s := sBlk [(0, 4, 0xFFFFFFFE), (8, 8, 0x30000)]
     let v := onMe (sBlk [(0, 4, 5), (8, 8, 0x30000)]) (fun st => { st with vt := 7 })
     issues (.fpush 6) s .flock none (fun c => c.num == 1 && bfield c.blk 0 4 == 0xFFFFFFFE) && prots (.fpush 6) (sBlk [(0, 4, 0xFFFFFFFF), (8, 8, 0x30000)]) 0x400
      && prots (.fpush 6) (sBlk [(6, 2, 1)]) 0x400 && issues (.fpushRel 6) v .flock none (fun c => bfield c.blk 0 4 == 12)
      && prots (.fpushRel 6) (onMe s (fun st => { st with vt := 1 })) 0x400 && issues .fdone s .flock none (fun _ => true)
      && nexts (.fpop 5 6) s (fun u => u.cmds.map (fun c => (c.lo, c.st)) == [(0x400, .queued)] && u.cmds.all (fun c => u.x.me.wait == some (.fpop c.id 5))
          && u.x.me.cOnly && u.x.me.pc == 0x2000)) = true := by decide +kernel

/-! ### Acceptance, reports, status -/

/-- A command of the test strand. -/
def cmdOf (id : Nat) (e : Engine) (op : Instr) (st : CmdSt) : Cmd := { id := id, sid := 1, pasture := 0, tile := 0, core := 0, eng := e, exTile := 0, op := op, st := st }
/-- One command with a record that is not malformed waits, and n of another core are accepted. -/
def sAccept (e : Engine) (op : Instr) (n : Nat) : State :=
  let blk : List Byte := match e with
    | .copy => block 192 [(0, 8, 0x100), (8, 8, 0x200), (0x20, 1, 10), (0x21, 1, 10), (0x22, 1, 1), (0x30, 4, 1)]
    | .matrix => block 128 [(0, 8, 0x100), (0x10, 8, 0x208), (0x58, 2, 1), (0x5A, 2, 1), (0x5C, 2, 1), (0x60, 1, 8)]
    | _ => []
  { mk [] with cmds := { cmdOf 5 e op .queued with blk := blk } :: (List.range n).map (fun i => { cmdOf (20 + i) e op .held with core := 1, ord := i + 1 }), inp := { k := 5 } }

/-- R28, R286, R302, R324, R356, R375: each engine accepts below its limit, and not at it. -/
theorem test_accept :
    (([(.copy, .cpy 6 7 0, 32), (.matrix, .mxrun 6 7 0, 16), (.select, .selreset, 8), (.bank, .bfill 6 7 0, 4)] : List (Engine × Instr × Nat)).all (fun p =>
        nexts .commandAccept (sAccept p.1 p.2.1 (p.2.2 - 1)) (fun u => (u.cmds.take 1).map (·.st) == [.held])
        && gives .commandAccept (sAccept p.1 p.2.1 p.2.2) (sAccept p.1 p.2.1 p.2.2))
      && nexts .commandAccept (sAccept .flock (.fpush 6) 0) (fun u => (u.flk 0).pushed == 1 && u.cmds.map (·.st) == [.held])
      && nexts .commandAccept { mk [] with
           cmds := [{ cmdOf 5 .bank (.bfill 6 7 0) .queued with exTile := 1 }], inp := { k := 5 }
           waiting := [{ id := 9, party := .strand 1, src := 0, dst := 1, seq := 2, body := .post (.bank 5) }] } (fun u =>
          u.cmds.map (·.st) == [.sent] && u.waiting.isEmpty && u.mesh.map (fun k => (k.body, k.dst, k.seq)) == [(.post (.bank 5), 1, 2)])
      && nexts .commandAccept { mk [] with cmds := [cmdOf 5 .copy (.cpy 6 7 0) .queued, cmdOf 6 .matrix (.mxrun 6 7 0) .queued], inp := { k := 5 } } (fun u =>
          u.cmds.map (·.st) == [.held, .queued] && u.cmds.map (·.err) == [some 0x40, none] && nexts .commandAccept { u with inp := { k := 6 } } (fun u =>
            u.cmds.map (·.st) == [.held, .finished (some 0x40)]))) = true := by decide +kernel

/-- R32, R355: a report ends a command; a context goes to the first that waits. -/
theorem test_report_and_grant :
    (let s : State := { mk [] with cmds := [cmdOf 5 .copy (.cpy 6 7 0) (.finished none)], inp := { k := 5 } }
     let r : State := { mk [] with cmds := [{ cmdOf 5 .bank (.bfill 6 7 0) (.finished none) with exTile := 1 }], inp := { k := 5 }
                                   mesh := [{ id := 7, src := 1, dst := 0, body := .report 5 }] }
     nexts .completionReport s (·.cmds.isEmpty) && nexts .completionReport r (fun u => u.cmds.isEmpty && u.mesh.isEmpty)
      && nexts .selcontextGrant { mk [] with tiles := [(0, { selWait := [1, 2], sel := [(0, { owner := some 9 })] })], inp := { k := 0 } } (fun u =>
          (u.tl 0).selWait == [2] && (u.selCtx 0 1).owner == some 1)) = true := by decide +kernel

/-- R306, R330, R343, R383: the ends of each range of selectors; what lies beyond is ILLEGAL. -/
theorem test_status :
    (let s : State := { mk [(6, 0)] with
       tiles := [(0, { tlb := pages, ctrs := [(0x300, 3), (0x330, 4), (0x400, 5), (0x438, 6), (0x500, 7), (0x530, 8), (0xF00, 9), (0xF40, 10)]
                       streams := [(3, { owner := some 1, len := 256, ready := 3 })], images := [(15, { st := 2, gen := 7 })], scSlot := 64, scRegion := 0x40, scThresh := 5
                       flock := { recs := [{ prio := 4, bytes := [] }], tree := some { pushed := 1, popped := 2, finished := 3, floor := 6 } } })]
       cmds := [cmdOf 5 .copy (.cpy 6 7 0) .held] }
     let ok (i : Instr) (v : Nat) : Bool := nexts i s (fun t => regSet s.x.me t.x.me 5 (wd v) && t.x.me.pc == 0x2001 && decide (t.tiles = s.tiles))
     let ill (i : Instr) : Bool := gives i s s.illegalC
     ok (.cpystat 5 0) 3 && ok (.cpystat 5 6) 4 && ok (.cpystat 5 8) 1 && ok (.cpystat 5 15) 3 && ok (.cpystat 5 19) 5 && ill (.cpystat 5 7) && ill (.cpystat 5 11) && ill (.cpystat 5 20)
      && ok (.mxstat 5 0) 5 && ok (.mxstat 5 7) 6 && ok (.mxstat 5 8) 0 && ok (.mxstat 5 31) 0x20007 && ill (.mxstat 5 9) && ill (.mxstat 5 32)
      && ok (.scstat 5 0) 7 && ok (.scstat 5 6) 8 && ok (.scstat 5 9) 5 && ok (.scstat 5 10) 64 && ok (.scstat 5 11) 0x40 && ill (.scstat 5 7) && ill (.scstat 5 12)
      && ok (.fstat 5 0) 9 && ok (.fstat 5 8) 10 && ok (.fstat 5 16) 1 && ok (.fstat 5 17) 0 && ok (.fstat 5 18) 4 && ok (.fstat 5 19) 1 && ok (.fstat 5 21) 3 && ok (.fstat 5 22) 0
      && ill (.fstat 5 10) && ill (.fstat 5 23) && ok (.ffloor 5) 4) = true := by decide +kernel

/-- R326: MXWAIT, on the strand's own commands and on a counter. -/
theorem test_mxwait :
    (let s := sBlk []
     let b := { mk [(6, 0)] with cmds := [cmdOf 5 .matrix (.mxrun 6 7 0) .held] }
     let c (v n : Nat) : State := mkM [(6, 0x300), (7, n)] [(0x300, v)]
     goes (.mxwait 6 7) (mk [(6, 0)]) 0x2001 && waits (.mxwait 6 7) b .mxidle && goes (.mxwait 6 7) (c 3 3) 0x2001 && goes (.mxwait 6 7) (c (2 ^ 63) 3) 0x2001
      && waits (.mxwait 6 7) (c 2 3) (.counter 0x300 false 3) && localAccess s 0x300 8 needR 0x300) = true := by decide +kernel

/-! ### What the commands do. The counter of every one is at 0x300, and stood at 4. -/

/-- A command with its block, held by its engine; words of memory; the strand's format register. -/
def sRun (e : Engine) (op : Instr) (l : List (Nat × Nat × Nat)) (n : Nat) (m : List (Nat × Nat)) : State :=
  { mkM [] ((0x300, 4) :: m) with cmds := [{ cmdOf 5 e op .held with blk := block n l, ctr := some 0x300 }], inp := { k := 5 } }
/-- Its command waits still in its core's queue. -/
def queued (s : State) : State := { s with cmds := s.cmds.map (fun k => { k with st := .queued }) }
/-- Its completion: the counter, the command, and n bytes at an address. -/
def completes (i : Instr) (s : State) (err : Option Nat) (key n v : Nat) : Bool :=
  nexts i s (fun u => memRead u.mem 0x300 8 == 5 + (match err with | some e => 2 ^ 63 + e * 2 ^ 56 | none => 0)
    && u.cmds.map (·.st) == [.finished err] && memRead u.mem key n == v && u.mem.wf)

/-- R293 to R297: a copy of one doubleword, a conversion of binary32 to bf16, and a malformed record. -/
theorem test_copy_run :
    (let c (st dt flg dst : Nat) : State := sRun .copy (.cpy 6 7 0) [(0, 8, 0x100), (8, 8, dst), (0x20, 1, st), (0x21, 1, dt), (0x22, 1, 1), (0x23, 1, flg), (0x30, 4, 1)] 192
       [(0x100, 0x112233443FC08001), (0x200, 0xFFFFFFFFFFFFFFFF)]
     !(c 15 15 0 0x200).cmds.any (c 15 15 0 0x200).copyBad && (c 0 2 0 0x200).cmds.all (fun k => (shapeOf k).dims.length == 1 && (shapeOf k).dims.all (·.ext == 1))
      && completes .cpyExec (c 11 11 0 0x200) none 0x200 8 0x112233443FC08001 && completes .cpyExec (c 0 2 0 0x200) none 0x200 8 0xFFFFFFFFFFFF3FC1
      && completes .cpyExec (c 0 2 1 0x200) none 0x200 2 0x3FC0 && (c 7 7 0 0x200).cmds.any (c 7 7 0 0x200).copyBad
      && completes .cpyExec (c 7 7 0 0x200) (some 0x40) 0x200 8 0xFFFFFFFFFFFFFFFF) = true := by decide +kernel

/-- R82, R208, R391: GET and PUT of four bytes between the tile and tile 1: the read of tile 1 is a packet, and the word it
answers is written here; the word read here is a posted operation to tile 1, and the command waits for its acknowledgement. -/
theorem test_transfer_run :
    (let l := [(0, 8, 0x30104), (8, 8, 0x100), (0x28, 4, 1), (0x2C, 1, 2)]
     let g (i : Instr) (l : List (Nat × Nat × Nat)) (log : Tbl Acc) : State := { sRun .getput i l 64 [(0x100, 0x8877665544332211)] with
       cmds := [{ cmdOf 5 .getput i .held with blk := block 64 l, ctr := some 0x300, exTile := 1, num := 1, log := log }] }
     (g (.get 6 7 0) l []).homeKey (2 ^ 29) == 1
      && nexts .getputExec (g (.get 6 7 0) l []) (fun u => u.cmds.map (·.st) == [.held] && memRead u.mem 0x300 8 == 4
          && u.mesh.map (fun k => (k.body, k.dst, k.cls)) == [(.fetch 1 0x30104 (2 ^ 29 + 0x104) (.load 4 false 0), 1, 2)])
      && completes .getputExec (g (.get 6 7 0) l [(3 * 2 ^ 60, .val 0xFFEEDDCC)]) none 0x100 8 0x88776655FFEEDDCC
      && nexts .getputExec (g (.put 6 7 0) l []) (fun u => u.cmds.map (·.st) == [.held] && memRead u.mem 0x300 8 == 4
          && u.mesh.map (fun k => (k.body, k.dst, k.cls)) == [(.post (.store (2 ^ 29 + 0x104) 4 0x44332211 0x30104), 1, 2)] && u.unacked.length == 1)
      && completes .getputExec (g (.get 6 7 0) [(0x2D, 1, 2)] []) (some 0x40) 0x100 8 0x8877665544332211) = true := by decide +kernel

/-- R299, R301: an operand of a stream; a source on a failed tile, whose permit is reclaimed. -/
theorem test_stream_copy_run :
    (let l (src flg : Nat) : List Byte := block 192 [(0, 8, src), (0x20, 1, 10), (0x21, 1, 10), (0x22, 1, 1), (0x23, 1, flg), (0x30, 4, 1)]
     let c (src flg : Nat) (st : CmdSt) (log : Tbl Acc) : State := { sRun .copy (.cpys 1 6 0) [] 192 [(0x100, 0x99)] with
       now := 10 ^ 9
       cmds := [{ cmdOf 5 .copy (.cpys 1 6 0) st with log := log, num := 1, ctr := some 0x300, blk := l src flg }]
       tiles := [(0, { tlb := pages, streams := [(1, { owner := some 1, base := 0x20000, len := 256, buf := [2 ^ 42], ready := 2, rd := 7 })] })] }
     let ok := c 0x100 0 .held []
     ok.cmds.all ok.mayFill && completes .cpysOperand ok none (2 ^ 42 + 32) 32 0x99 && nexts .cpysOperand ok (fun u => (u.stream 0 0 1).ready == 3)
      && nexts .cpysOperand (c 0x30000 0 .held []) (fun u => u.cmds.all (fun k => k.log.map (·.2) == [.out (10 ^ 9)]) && u.mesh.length == 1 && (u.stream 0 0 1).ready == 2)
      && nexts .permitReclaim (c 0x30000 0 .held [(3 * 2 ^ 60, .out 0)]) (fun u => u.cmds.map (fun k => (k.lost, k.err)) == [(true, some cHomeLost)])
      && completes .cpysOperand (c 0x100 128 .held []) (some 0x40) (2 ^ 42 + 32) 32 0) = true := by decide +kernel

/-- A bank command on one element at scratchpad address 0x20010. -/
def sBank (i : Instr) (ty aux : Nat) (x y : Nat) (res : Bool) : State :=
  let l := [(0, 8, 0x20010), (8, 8, if bankSrc i then 0x100 else 0), (0x10, 8, aux), (0x18, 8, if res then 0x208 else 0), (0x20, 4, 1), (0x24, 1, ty)]
  { mkM [] [(0x300, 4), (0x100, y), (2 ^ 42 + 16, x)] with
    cmds := [{ cmdOf 5 .bank i .held with blk := block 64 l, ctr := some 0x300, lo := 2 ^ 42 + 16, hi := 2 ^ 42 + 16 + bankSize ty, num := 1 }], inp := { k := 5 } }

/-- R280 to R288: every form on integers and on binary32. -/
theorem test_bank_run :
    (let w (i : Instr) (ty aux x y v : Nat) : Bool := completes .bankCommandExec (sBank i ty aux x y false) none (2 ^ 42 + 16) (bankSize ty) v
     w (.bfill 6 7 0) 10 77 5 0 77 && w (.bscale 6 7 0) 10 3 (2 ^ 32 - 2) 0 (2 ^ 32 - 6) && w (.badd 6 7 0) 11 0 5 (2 ^ 64 - 7) (2 ^ 64 - 2)
      && w (.baxpy 6 7 0) 10 3 5 4 17 && w (.bmax 6 7 0) 10 0 5 (2 ^ 32 - 1) 5
      && w (.badd 6 7 0) 0 0 0x3FC00000 0x40100000 0x40700000 && w (.bscale 6 7 0) 0 0x4000000000000000 0x3FC00000 0 0x40400000
      && w (.baxpy 6 7 0) 0 0x4000000000000000 0x3F800000 0x3FC00000 0x40800000 && w (.bmax 6 7 0) 0 0 0x3FC00000 0x40100000 0x40100000
      && completes .bankCommandExec (sBank (.bsum 6 7 0) 10 0 (2 ^ 32 - 3) 0 true) none 0x208 8 (2 ^ 64 - 3)
      && completes .bankCommandExec (sBank (.bfill 6 7 0) 9 0 5 0 false) (some 0x40) (2 ^ 42 + 16) 4 5
      && ((sBank (.badd 6 7 0) 10 0 5 4 false).installed ((2 ^ 42 + 16) / 2 ^ 17)).length == 1) = true := by decide +kernel

/-- R286: a remote bank command is installed, first of its bank, and acknowledged. -/
theorem test_bank_install :
    nexts .bankInstall { mk [] with cmds := [{ cmdOf 5 .bank (.bfill 6 7 0) .arrived with tile := 1 }], inp := { k := 5 }
                                    unacked := [{ id := 9, party := .strand 1, src := 1, dst := 0, seq := 3, body := .post (.bank 5) }] }
      (fun u => u.cmds.map (·.st) == [.held] && u.mesh.map (fun k => (k.body, k.dst)) == [(.ack 9, 1)] && seqGet u.seqExp (.strand 1) 0 == 4) = true := by
  decide +kernel

/-- R307 to R323: a load, a product and a drain of one element; malformed commands; a product with no image. -/
theorem test_matrix_run :
    (let ld (k : Nat) : State := sRun .matrix (.mxldb 6 7 0) [(0, 8, 0x101), (0x16, 2, k), (0x18, 2, 1), (0x1A, 2, 9), (0x1C, 1, 8)] 64 [(0x100, 0xFD00)]
     let run (m : Nat) (im : Tbl Image) : State := { sRun .matrix (.mxrun 6 7 0) [(0, 8, 0x100), (0x10, 8, 0x208), (0x58, 2, m), (0x5A, 2, 1), (0x5C, 2, 1), (0x5E, 2, 9), (0x60, 1, 8)]
        128 [(0x100, 7)] with tiles := [(0, { tlb := pages, images := im })] }
     let dr (acc : Nat) : State := sRun .matrix (.mxdrain 6 7 0) [(8, 8, acc), (0x10, 8, 0x208), (0x58, 2, 1), (0x5A, 2, 1)] 128 [(0x100, 0xC0A00000)]
     let im : Image := { st := 2, gen := 9, load := (0, 0, 1, 1, 8), cols := [{ e := 6, cells := .q (-3) true false :: List.replicate 95 (.q 0 false true) }] }
     nexts .mxldbExec (ld 1) (fun u => decide (u.image 0 0 = im) && memRead u.mem 0x300 8 == 5) && completes .commandAccept (queued (ld 0)) (some 0x40) 0x200 8 0
      && completes .mxrunExec (run 1 [(0, im)]) none 0x208 4 0xC1A80000 && completes .mxrunExec (run 1 []) (some 0x48) 0x208 4 0
      && completes .commandAccept (queued (run 0 [(0, im)])) (some 0x40) 0x208 4 0 && completes .mxdrainExec (dr 0x100) none 0x208 4 0xC0A00000
      && completes .commandAccept (queued (dr 0)) (some 0x40) 0x208 4 0) = true := by decide +kernel

/-- R341, R342: the settings and invalidations of the step cache. -/
theorem test_step_cache_commands :
    (let t : Tile := { tlb := pages, scSlot := 64, sc := [(0, { v := true, btag := 5 }), (3, { v := true, btag := 6 })] }
     let set (slot inv : Nat) : State := { sRun .matrix (.scset 6) [(8, 4, slot), (12, 4, 2 ^ 31), (0x10, 1, inv)] 64 [] with tiles := [(0, t)] }
     let inv (a : Nat) : State := { mk [] with tiles := [(0, t)], inp := { k := 5 }, cmds := [{ cmdOf 5 .matrix (.scinv 6) .held with arg := wd a }] }
     nexts .scsetExec (set 64 0) (fun u => (u.tl 0).scThresh == 0 && (u.tl 0).sc.length == 2) && nexts .scsetExec (set 64 1) (fun u => (u.tl 0).sc.isEmpty)
      && nexts .scsetExec (set 128 0) (fun u => (u.tl 0).sc.isEmpty && (u.tl 0).scSlot == 128) && nexts .scinvExec (inv (2 ^ 63)) (fun u => (u.tl 0).sc.isEmpty)
      && nexts .scinvExec (inv 6) (fun u => decide (u.scEntry 0 3 = {}) && (u.scEntry 0 0).v) && nexts .scinvExec (inv 7) (fun u => (u.tl 0).sc.length == 2)) = true := by
  decide +kernel

/-- A select command on context 2, which has the fields given. -/
def sSel (op : Instr) (l : List (Nat × Nat × Nat)) (x : SelCtx) : State :=
  { sRun .select op l 32 [(0x100, 0x3FC0000040100000)] with
    tiles := [(0, { tlb := pages, sel := [(2, x)] })], cmds := [{ cmdOf 5 .select op .held with blk := block 32 l, ctr := some 0x300, num := 2 }] }

/-- R347 to R357: open, push of one key, emit of one index, reset; and the order of a full list. -/
theorem test_select_run :
    (let x : SelCtx := { owner := some 1, k := 2, c := 1, lists := [[]] }
     let y : SelCtx := { k := 2, c := 1, lists := [[{ idx := 3, key := 0x40100000, push := 1 }, { idx := 4, key := 0x3FC00000, push := 1 }]] }
     nexts .selopenExec (sSel (.selopen 6) [(0, 4, 256), (4, 1, 2), (5, 1, 2), (6, 1, 1)] {}) (fun u =>
        decide (u.selCtx 0 2 = { k := 256, c := 2, ktype := 2, smallest := true, lists := [[], []] }))
      && nexts .selpushExec (sSel (.selpush 6 7) [(0, 8, 0x100), (0x10, 4, 1), (0x14, 4, 8)] x) (fun u =>
        (u.selCtx 0 2).lists.map (·.map (fun e => (e.idx, e.key))) == [[(8, 0x40100000)]] && memRead u.mem 0x300 8 == 5)
      && completes .selemitExec (sSel (.selemit 6 7) [(0, 8, 0x208), (0x10, 2, 1), (0x12, 1, 1)] y) none 0x208 4 3
      && nexts .selresetExec (sSel .selreset [] y) (fun u => (u.selCtx 0 2).lists.isEmpty && (u.selCtx 0 2).k == 0)
      && (y.offer 0 { idx := 5, key := 0x40000000, push := 2 }).lists.map (·.map (·.idx)) == [[3, 5]]
      && (y.offer 0 { idx := 5, key := 0x3F800000, push := 2 }).lists.map (·.map (·.idx)) == [[3, 4]]) = true := by decide +kernel

/-! ### Several elements, and floating ones -/

/-- R293 to R297: three elements of binary32 in a row, among them a signalling NaN and a subnormal, which a copy within one type keeps. -/
theorem test_copy_row :
    (let s (n : Nat) : State := sRun .copy (.cpy 6 7 0) [(0, 8, 0x100), (8, 8, 0x200), (0x30, 4, n), (0x38, 8, 4), (0x40, 8, 4), (0x22, 1, 1)] 192
       [(0x100, 0x000000017F800001), (0x108, 0x99999999C0000000)]
     (s 3).cmds.all (fun c => decide ((shapeOf c).dims = [{ ext := 3, sstr := 4, dstr := 4 }]) && !(s 3).copyBad c && copySize (shapeOf c).st == 4)
      && completes .cpyExec (s 3) none 0x200 12 0xC0000000000000017F800001) = true := by decide +kernel

/-- R208: GET and PUT of three elements of two bytes on the issuing tile. -/
theorem test_transfer_row :
    (let s (i : Instr) : State := sRun .getput i [(0, 8, 0x200), (8, 8, 0x100), (0x18, 8, 2), (0x20, 8, 2), (0x28, 4, 3), (0x2C, 1, 1)] 64
       [(0x100, 0x8877665544332211), (0x200, 0xFFEEDDCCBBAA9988)]
     (s (.get 6 7 0)).cmds.all (fun c => !xferBad c.blk && c.num == c.tile)
      && completes .getputExec (s (.get 6 7 0)) none 0x100 8 0x8877DDCCBBAA9988 && completes .getputExec (s (.put 6 7 0)) none 0x200 8 0xFFEE665544332211) = true := by
  decide +kernel

/-- R299: an operand of four doublewords. R304: one of a killed strand's CPYS goes nowhere. -/
theorem test_stream_row :
    (let s (o : Bool) : State := { sRun .copy (.cpys 1 6 0) [] 192 [(0x100, 1), (0x108, 2), (0x110, 3), (0x118, 4)] with
       cmds := [{ cmdOf 5 .copy (.cpys 1 6 0) .held with
                  num := if o then 5 else 1, ctr := some 0x300, orphan := o, lo := if o then 256 else 0, hi := if o then 32 else 0
                  blk := block 192 [(0, 8, 0x100), (0x20, 1, 11), (0x21, 1, 11), (0x22, 1, 1), (0x30, 4, 4), (0x38, 8, 8)] }]
       tiles := [(0, { tlb := pages, streams := if o then [] else [(1, { owner := some 1, base := 0x20000, len := 256, buf := [2 ^ 42] })] })] }
     completes .cpysOperand (s false) none (2 ^ 42) 32 (1 + 2 * 2 ^ 64 + 3 * 2 ^ 128 + 4 * 2 ^ 192)
      && nexts .cpysOperand (s false) (fun u => (u.stream 0 0 1).ready == 1)
      && completes .cpysOperand (s true) none (2 ^ 42) 32 0) = true := by decide +kernel

/-- Bank commands on two elements at scratchpad address 0x20010, with SRC at 0x100. -/
def sBank2 (i : Instr) (ty aux : Nat) (x y : Nat) (res : Bool) : State :=
  let z := bankSize ty
  { sBank i ty aux 0 0 res with
    mem := [(0x100, 2 * z, y), (2 ^ 42 + 16, 2 * z, x), (0x300, 8, 4)].foldl (fun m p => memPut m p.1 (leBytes p.2.1 p.2.2)) []
    cmds := (sBank i ty aux 0 0 res).cmds.map (fun c => { c with
      hi := 2 ^ 42 + 16 + 2 * z
      blk := block 64 [(0, 8, 0x20010), (8, 8, if bankSrc i then 0x100 else 0), (0x10, 8, aux), (0x18, 8, if res then 0x208 else 0), (0x20, 4, 2), (0x24, 1, ty)] }) }

/-- R280 to R288: the forms on two elements. -/
theorem test_bank_row :
    (let two (a b : Nat) : Nat := a + b * 2 ^ 32
     let w (i : Instr) (ty aux x y v : Nat) : Bool := completes .bankCommandExec (sBank2 i ty aux x y false) none (2 ^ 42 + 16) 8 v
     w (.bfill 6 7 0) 10 77 5 0 (two 77 77) && w (.bscale 6 7 0) 10 3 (two 2 7) 0 (two 6 21) && w (.badd 6 7 0) 10 0 (two 5 6) (two 7 8) (two 12 14)
      && w (.baxpy 6 7 0) 10 3 (two 5 1) (two 4 2) (two 17 7) && w (.bmax 6 7 0) 10 0 (two 5 1) (two (2 ^ 32 - 1) 9) (two 5 9)
      && w (.badd 6 7 0) 0 0 (two 0x3FC00000 0x40000000) (two 0x40100000 0x40000000) (two 0x40700000 0x40800000)
      && completes .bankCommandExec (sBank2 (.bsum 6 7 0) 10 0 (two 40 2) 0 true) none 0x208 8 42
      && completes .bankCommandExec (sBank2 (.bsum 6 7 0) 0 0 (two 0x3FC00000 0x40100000) 0 true) none 0x208 8 0x40700000) = true := by decide +kernel

/-- R126 to R129, R310, R316: a load of 3.0 in bf16, held as 96 in units of 2^-5; 1.5 times it; and a row of two i8 elements by a column. -/
theorem test_matrix_more :
    (let ld : State := sRun .matrix (.mxldb 6 7 0) [(0, 8, 0x100), (0x16, 2, 1), (0x18, 2, 1), (0x1A, 2, 9), (0x1C, 1, 2)] 64 [(0x100, 0x4040)]
     let run (k f : Nat) (im : Image) (a : Nat) : State := { sRun .matrix (.mxrun 6 7 0) [(0, 8, 0x100), (0x10, 8, 0x208), (0x58, 2, 1), (0x5A, 2, 1), (0x5C, 2, k), (0x5E, 2, 9), (0x60, 1, f), (0x64, 2, 1)]
        128 [(0x100, a)] with tiles := [(0, { tlb := pages, images := [(0, im)] })] }
     let one : Image := { st := 2, gen := 9, load := (0, 0, 1, 1, 2), cols := [{ e := 1, cells := .q 96 false false :: List.replicate 95 (.q 0 false true) }] }
     let row : Image := { st := 2, gen := 9, load := (0, 0, 2, 1, 8), cols := [{ e := 6, cells := .q (-3) true false :: .q 5 false false :: List.replicate 94 (.q 0 false true) }] }
     ld.cmds.all (fun c => !ld.mxLoadBad c)
      && nexts .mxldbExec ld (fun u => (u.image 0 0).st == 2 && (u.image 0 0).cols.map (fun c => (c.e, c.cells.take 1)) == [(1, [.q 96 false false])] && memRead u.mem 0x300 8 == 5)
      && completes .mxrunExec (run 1 2 one 0x3FC0) none 0x208 4 0x40900000
      && completes .mxrunExec (run 2 8 row 0x07FE) none 0x208 4 0x42240000) = true := by decide +kernel

/-- R347 to R357: three keys into a list of two; their indices, and the empty places after them. Rank order: larger first, then the lower index; a
NaN last. -/
theorem test_select_more :
    (let x : SelCtx := { owner := some 1, k := 2, c := 1, lists := [[]] }
     let s : State := { sSel (.selpush 6 7) [(0, 8, 0x100), (8, 8, 4), (0x10, 4, 3), (0x14, 4, 8)] x with mem := [(0x100, 0x3F80000040000000), (0x108, 0x40400000), (0x300, 4)].foldl (fun m p => memPut m p.1 (leBytes 8 p.2)) [] }
     let y : SelCtx := { x with lists := [[{ idx := 3, key := 0x40100000, push := 1 }]] }
     let c (i k p : Nat) : Cand := { idx := i, key := k, push := p }
     nexts .selpushExec s (fun u => (u.selCtx 0 2).lists.map (·.map (fun e => (e.idx, e.key))) == [[(10, 0x40400000), (8, 0x40000000)]])
      && completes .selemitExec (sSel (.selemit 6 7) [(0, 8, 0x208), (0x10, 2, 3), (0x12, 1, 1)] y) none 0x208 12 (3 + (2 ^ 64 - 1) * 2 ^ 32)
      && candBefore x (c 1 0x40000000 0) (c 2 0x3F800000 0) && !candBefore x (c 2 0x3F800000 0) (c 1 0x40000000 0)
      && candBefore x (c 1 0x3F800000 5) (c 2 0x3F800000 0) && candBefore { x with smallest := true } (c 2 0x3F800000 0) (c 1 0x40000000 0)
      && candBefore x (c 9 0xFF800000 0) (c 1 0x7FC00000 0) && !candBefore x (c 1 0x7FC00000 0) (c 9 0xFF800000 0)) = true := by decide +kernel

end Sys2Proof.Tests
end

