-- ==== Sys2Proof/Tests/Flock.lean ====
section
/-! SUPPORT. Tests of the Flock units and of the trees of a pasture (R34, R35, R243, R246, R365 to R387). -/

set_option Elab.async false

namespace Sys2Proof.Tests

open Sys2Proof Sys2Proof.Machine

/-- A record of the given priority, place in the order and payload. -/
def recOf (prio order : Nat) : FRec := { prio := prio, bytes := leBytes 32 (prio + 77 * 2 ^ 64), order := order }
/-- A command of the test strand on tile 0. -/
def flk (op : Instr) (st : CmdSt) : Cmd := { id := 5, sid := 1, pasture := 0, tile := 0, core := 0, eng := .flock, exTile := 0, op := op, st := st, lo := 0x200 }
/-- A push whose home is tile h; tile 0 holds n records of room for 4096. -/
def sPush (h n : Nat) : State :=
  { mk [] with tiles := [(0, { spillblk := some 0, flock := { recs := List.replicate n (recOf 1 1) } })]
               cmds := [{ flk (.fpush 6) .held with num := h, blk := (recOf 3 0).bytes }], inp := { k := 5 }, ids := 50 }

/-- R375, R379: a push to its own tile, with room and without, and to tile 1. -/
theorem test_push :
    (nexts .fpushExec (sPush 0 1) (fun u => records (u.flk 0).recs == [(1, (recOf 1 1).bytes, 1), (3, (recOf 3 0).bytes, 50)] && u.cmds.map (·.st) == [.finished none])
      && (sPush 0 4096).flockFull 0 && nexts .fpushExec (sPush 0 4096) (fun u => (u.flk 0).recs.length == 4096 && u.cmds.map (·.st) == [.held])
      && nexts .fpushExec (sPush 1 0) (fun u => u.mesh.map (fun k => (k.body, k.dst)) == [(.post (.push 5 { prio := 3, bytes := (recOf 3 0).bytes }), 1)]
          && u.cmds.map (·.st) == [.sent] && (u.flk 0).recs.isEmpty)) = true := by decide +kernel

/-- R82, R375: a record arrives at tile 0: in room, in none, and at a failed tile. -/
theorem test_record_arrival :
    (let s (n : Nat) (f : Bool) : State := { sPush 1 0 with
       tiles := [(0, { failed := f, spillblk := some 0, flock := { recs := List.replicate n (recOf 1 1) } })], inp := { k := 7 }
       mesh := [{ id := 7, party := .cmd 5, src := 1, dst := 0, body := .post (.push 5 (recOf 3 0)) }] }
     nexts .flockRecordArrival (s 1 false) (fun u => u.mesh.map (·.body) == [.ack 7] && (u.flk 0).recs.map (fun r => (r.prio, r.order)) == [(1, 1), (3, 50)])
      && nexts .flockRecordArrival (s 4096 false) (fun u => u.dropped.map (·.id) == [7] && (u.flk 0).recs.length == 4096)
      && nexts .flockRecordArrival (s 1 true) (fun u => u.mesh.map (·.body) == [.nack 7 cHomeLost 0])) = true := by decide +kernel

/-- FPOP of the test strand with buffer 0x200, on tile 0 with the unit given, in the pasture given. -/
def sPop (u : Flock) (q : Pasture) : State :=
  { mk [] with tiles := [(0, { tlb := pages, flock := u })], pastures := [(0, q)], strands := [{ me with wait := some (.fpop 5 5) }]
               cmds := [flk (.fpop 5 6) .held], inp := { k := 5 } }

/-- R370 to R373, R376, R380: a pop before a first result, with records, with none while DONE is set, and with none at all. -/
theorem test_pop :
    (let t : Option TreeRes := some { floor := 3 }
     let s := sPop { recs := [recOf 9 1, recOf 4 3, recOf 4 2], tree := t } {}
     !s.bankHeld 0x200 32 && s.flockTurn (flk (.fpop 5 6) .held)
      && (List.range 4).all (fun i => decide (s.homeOf (s.devnum.toNat * 2 ^ 45 + 0x200 + 8 * i) = .tile 0)) && bfield (recOf 4 2).bytes 0 4 == 4
      && nexts .fpopExec s (fun u => memBytes u.mem 0x200 32 == (recOf 4 2).bytes && (u.flk 0).recs.map (·.order) == [1, 3] && (u.flk 0).inflight == [(1, 4)]
          && (u.flk 0).popped == 1 && (u.strandOf 1).any (fun st => st.gr 5 == 1 && st.vt == 4 && st.pc == 0x2001 && st.wait == none))
      && nexts .fpopExec (sPop { recs := [recOf 9 1] } {}) (fun u => u.cmds.map (·.st) == [.parked])
      && nexts .fpopExec (sPop { tree := t } { doneLatch := true }) (fun u => (u.strandOf 1).any (fun st => st.gr 5 == 0 && st.pc == 0x2001))
      && nexts .fpopExec (sPop { tree := t } {}) (fun u => u.cmds.map (·.st) == [.parked] && u.mesh.isEmpty)) = true := by decide +kernel

/-- R371, R372: a pop of a strand whose entry is kept on tile 1 registers its record there first. -/
theorem test_pop_registers :
    (let sid : Word := wd (2 ^ 25 + 1)
     let s := { sPop { recs := [recOf 4 2], tree := some { floor := 3 } } {} with
       strands := [{ me with sid := sid, wait := some (.fpop 5 5) }], cmds := [{ flk (.fpop 5 6) .held with sid := sid }] }
     s.entryTile 0 sid == originOf sid && originOf sid != 0
      && nexts .fpopExec s (fun u => u.mesh.map (fun k => (k.body, k.dst)) == [(.register 5 0 4, originOf sid)] && (u.flk 0).given.map (·.1) == [5]
          && u.cmds.map (·.st) == [.asking])) = true := by decide +kernel

/-- R373: a steal request at tile 1, whose unit holds a record; the answer; and a registration. -/
theorem test_steal :
    (let t : Option TreeRes := some { floor := 3 }
     let req (u : Flock) : State := { sPop { tree := t } {} with
       tiles := [(0, { flock := { tree := t } }), (1, { flock := u })], mesh := [{ id := 7, party := .cmd 5, src := 0, dst := 1, body := .steal 5 70 }], inp := { k := 7 } }
     let ans (r : Option FRec) : State := { sPop { tree := t } {} with mesh := [{ id := 7, party := .cmd 5, src := 1, dst := 0, body := .stealAnswer 5 1 r }], inp := { k := 7 } }
     let reg : State := { sPop { tree := t } {} with
       tiles := [(0, {}), (1, { flock := { given := [(5, recOf 4 1)] } })], mesh := [{ id := 7, party := .cmd 5, src := 1, dst := 0, body := .register 5 1 4 }], inp := { k := 7 } }
     nexts .stealRequest (req { tree := t }) (fun u => u.mesh.map (fun k => (k.body, k.dst)) == [(.stealAnswer 5 1 none, 0)])
      && nexts .stealRequest (req { recs := [recOf 4 1], tree := t }) (fun u => u.mesh.map (fun k => (k.body, k.dst)) == [(.register 5 1 4, 0)]
          && (u.flk 1).given.map (·.1) == [5] && (u.flk 1).recs.isEmpty)
      && nexts .inflightRegister reg (fun u => u.mesh.map (fun k => (k.body, k.dst)) == [(.stealAnswer 5 1 (some (recOf 4 1)), 0)] && (u.flk 0).inflight == [(1, 4)]
          && (u.flk 0).popped == 1)
      && nexts .stealAnswer (ans (some (recOf 4 1))) (fun u => memBytes u.mem 0x200 32 == (recOf 4 1).bytes && (u.strandOf 1).any (fun st => st.gr 5 == 1 && st.vt == 4))
      && nexts .stealAnswer (ans none) (fun u => u.cmds.map (·.st) == [.parked] && u.mesh.isEmpty)) = true := by decide +kernel

/-- R373: a pop with nothing on its tile asks the tile whose last contribution is least. -/
theorem test_pop_asks :
    (let t : Option TreeRes := some { floor := 3 }
     let s := { sPop { tree := t } {} with tiles := [(0, { flock := { tree := t } }), (97, { flock := { last := 4, tree := t } })] }
     nexts .fpopExec s (fun u => u.mesh.map (fun k => (k.dst, k.src)) == [(97, 0)] && u.cmds.map (fun c => (c.st, c.asked)) == [(.asking, [97])])) = true := by
  decide +kernel

/-- R381: FDONE with an entry and without one. -/
theorem test_fdone :
    (let s (l : List (Word × Nat)) : State := { mk [] with tiles := [(0, { flock := { inflight := l, finished := 2 } })], cmds := [flk .fdone .held], inp := { k := 5 } }
     (s [(1, 4)]).hasEntry 0 1 && nexts .fdoneExec (s [(1, 4), (9, 3)]) (fun u => (u.flk 0).inflight == [(9, 3)] && (u.flk 0).finished == 3 && u.cmds.map (·.st) == [.finished none])
      && nexts .fdoneExec (s []) (fun u => (u.flk 0).finished == 2)) = true := by decide +kernel

/-! ### Trees -/

/-- Pasture 0 with a result sampled, on its way to tile 3. -/
def sTree (r : TreeRes) (q : Pasture) : State :=
  { mk [] with pastures := [(0, { q with sample := some r })], inp := { k := 3 }, strands := [{ me with wait := some (.fpop 5 5) }]
               cmds := [{ flk (.fpop 5 6) .parked with tile := 3, exTile := 3 }] }

/-- R34, R35, R370: a sample: the least contribution and the sums. -/
theorem test_tree_sample :
    (let s : State := { mk [] with tiles := [(0, { flock := { recs := [recOf 9 1], pushed := 2 } }), (5, { flock := { inflight := [(1, 4)], pushed := 3, popped := 1 } })], inp := { k := 0 } }
     s.sampleDone 0 && nexts .treeSample s (fun u => (u.pas 0).sample.any (fun r => r.floor == 4 && r.pushed == 5 && r.popped == 1 && r.finished == 0 && !r.judged)
        && (u.flk 5).last == 4 && (u.flk 0).last == 9 && (u.flk 1).last == 0xFFFFFFFF)) = true := by decide +kernel

/-- R370, R373, R374, R376, R243: a result at a tile: judged before; plain; FLOCK_DONE; a deadlock. -/
theorem test_tree_result :
    (let plain : TreeRes := { pushed := 3, popped := 2 }
     let done : TreeRes := { pushed := 3, popped := 3, finished := 3 }
     let dead : TreeRes := { pushed := 3, popped := 3, finished := 2, allParked := true }
     nexts .treeResult (sTree { plain with judged := true } {}) (fun u => (u.flk 3).tree == some plain && u.cmds.map (·.st) == [.held])
      && nexts .treeResult (sTree plain { doneLatch := true, lastDone := 3 }) (fun u => (u.pas 0).doneLatch && (u.pas 0).sample == some { plain with judged := true })
      && nexts .treeResult (sTree plain { doneLatch := true, lastDone := 2 }) (fun u => !(u.pas 0).doneLatch)
      && nexts .treeResult (sTree done {}) (fun u => (u.pas 0).doneLatch && (u.pas 0).lastDone == 3 && (u.pas 0).evqtail == 1
          && (u.strandOf 1).any (fun st => st.gr 5 == 0 && st.pc == 0x2001))
      && nexts .treeResult (sTree dead {}) (fun u => (u.pas 0).st == .stopped && (u.pad 0).svq.map (fun e => (e.cause, e.past)) == [(wd (2 * 2 ^ 16 + cDeadlock), 0)])
      && nexts .treeResult (sTree dead { pcb := { modeB := true } }) (fun u => (u.pas 0).st == .running)) = true := by decide +kernel

/-- R243, R244: what keeps a sampling instant from finding all parked, one thing at a time. -/
theorem test_all_parked :
    (let leader : Strand := { me with sid := 2, place := .slot 0 1 0, wait := some (.counter 0x100 true 3) }
     let fol : Strand := { me with sid := 3, place := .slot 0 2 0, follow := some { leader := 2, joined := true } }
     let pop : Strand := { me with wait := some (.fpop 5 5) }
     let s : State := { mk [] with strands := [pop, leader, fol, { me with sid := 4, place := .fold 0, wait := some (.group 3 true true) }]
                                   cmds := [flk (.fpop 5 6) .parked], inp := { k := 0 } }
     let all (s : State) (b : Bool) : Bool := s.sampleDone 0 && nexts .treeSample s (fun u => (u.pas 0).sample.any (·.allParked == b))
     all s true && all { s with strands := [] } false && all { s with strands := { me with sid := 9, place := .slot 0 3 0 } :: s.strands } false
      && all { s with cmds := [flk (.fpop 5 6) .asking] } false && all { s with cmds := flk (.fpush 6) .held :: s.cmds } false
      && all { s with strands := [pop, { leader with stop := some .held }] } false && all { s with strands := [pop, { leader with place := .slot 0 1 14 }] } false
      && all { s with tiles := [(0, { flock := { inflight := [(1, 4)] } })] } false && all { s with tiles := [(5, { arrivals := [9] })] } false
      && all { s with tiles := [(5, { readyQ := [{}] })] } false && all { s with pastures := [(0, { pool := 1 })] } false
      && all { s with mesh := [{ id := 7, src := 0, dst := 1, body := .ack 0 }] } false
      && all { s with mesh := [{ id := 7, src := 0, dst := 1, pasture := 1, body := .ack 0 }] } true) = true := by decide +kernel

/-- R246: mode B: before the window ends, a window with issues, and an idle one. -/
theorem test_stall :
    (let s (now b : Nat) : State := { mk [] with now := now, pastures := [(0, { pcb := { modeB := true, mbwin := 100 }, winStart := 50, bundles := b, pool := 1 })], inp := { k := 0 } }
     gives .stall (s 149 0) (s 149 0) && nexts .stall (s 150 7) (fun u => (u.pas 0).winStart == 150 && (u.pas 0).bundles == 0 && (u.pas 0).st == .running)
      && nexts .stall (s 150 0) (fun u => (u.pas 0).st == .stopped && (u.pad 0).svq.map (·.cause) == [wd (2 * 2 ^ 16 + cStall)])) = true := by decide +kernel

/-- R387: a domain's inputs, and their end. -/
theorem test_domain :
    (let s (l : List Word) : State := { mk [] with tiles := [(0, { flock := { pushed := 2 } })], inp := { k := 0, vals := l } }
     nexts .flockDomainSample (s [7, 5, 1, 2, 3]) (fun u => (u.pas 0).domain.any (fun r => r.floor == 5 && r.pushed == 3 && r.popped == 2 && r.finished == 3) && (u.pas 0).peers == [(7, 5)])
      && gives .flockDomainSample (s [0, 5, 1, 2, 3]) (s [0, 5, 1, 2, 3]) && gives .flockDomainSample (s [2048, 5, 1, 2, 3]) (s [2048, 5, 1, 2, 3])
      && nexts .flockDomainSample (s []) (fun u => (u.pas 0).domain == none)) = true := by decide +kernel

end Sys2Proof.Tests
end

