-- ==== Sys2Proof/Tests/Messages.lean ====
section
/-! SUPPORT. Tests of the arrival of WAKE, HALTT and INSP, and of messages and remote matrix commands (R327, R328, R397 to R407, R412 to
R415). -/

set_option Elab.async false

namespace Sys2Proof.Tests

open Sys2Proof Sys2Proof.Machine

/-- A posted operation in its turn at tile 0, from tile 1. -/
def sArr (o : Post) (f : Strand → Strand) (t : Tile) : State :=
  { mk [] with tiles := [(0, t)], strands := [f me], mesh := [{ id := 7, party := .strand 1, src := 1, dst := 0, body := .post o }], inp := { k := 7 } }
/-- Its source gets an answer, and the sequence moves on. -/
def replied (t : State) (b : Body) : Bool :=
  (t.mesh.map (fun k => (k.body, k.dst)) == [(b, 1)]) && seqGet t.seqExp (.strand 1) 0 == 1

/-- R397: a slot whose occupancy number is another. -/
theorem test_acts_stale :
    (nexts .wakeArrival (sArr (.wake 1 0 1 0 0) id {}) (replied · (.stale 7)) && nexts .halttArrival (sArr (.haltt 1 0 1 0 0) id {}) (replied · (.stale 7))
      && nexts .inspArrival (sArr (.insp 1 0 1 0 0x200) id {}) (replied · (.stale 7))
      && decide ((sArr (.wake 1 0 1 0 0) id {}).slotTarget 0 0 0 1 = none) && decide ((sArr (.wake 1 0 1 0 0) id {}).slotTarget 0 0 0 0 = some me)) = true := by
  decide +kernel

/-- R412 to R414: WAKE of a strand that waits on its latch and of one that does not; HALTT; INSP. -/
theorem test_acts_arrive :
    (nexts .wakeArrival (sArr (.wake 1 0 0 0 0) (fun st => { st with wait := some (.latch 5) }) {}) (fun t => replied t (.ack 7)
        && (t.strandOf 1).any (fun st => st.gr 5 == 1 && st.pc == 0x2001 && st.wait == none))
      && nexts .wakeArrival (sArr (.wake 1 0 0 0 0) id {}) (fun t => replied t (.ack 7) && (t.tl 0).latch == [0] && decide (t.strands = [me]))
      && nexts .halttArrival (sArr (.haltt 1 0 0 0 0) id {}) (fun t => replied t (.ack 7) && (t.strandOf 1).any (fun st => st.stop == some .held && st.pc == 0x2000))
      && nexts .inspArrival (sArr (.insp 1 0 0 0 0x200) id {}) (fun t => t.mesh.map (fun k => (k.body, k.dst)) == [(.image 1 0x200 me.packetImage, 1), (.ack 7, 1)])) = true := by
  decide +kernel

/-- R414: the image of INSP is written, and the strand goes on. -/
theorem test_insp_reply :
    (let bs := (List.range 192).map (fun i => BitVec.ofNat 8 (i + 1))
     let s : State := { mk [] with strands := [{ me with wait := some .insp }], mesh := [{ id := 7, src := 1, dst := 0, body := .image 1 0x200 bs }], inp := { k := 7 } }
     decide ((s.partsAt 0 0 needW 0x200 192).1 = .ok [(0x200, 0x200, 192)]) && !s.bankHeld 0x200 192
      && nexts .inspReply s (fun t => memBytes t.mem 0x200 192 == bs && t.mesh.isEmpty && (t.strandOf 1).any (fun st => st.wait == none && st.pc == 0x2001))) = true := by
  decide +kernel

/-! ### MSEND, MPOST, MWAIT, MPROBE, MCANCEL -/

/-- A descriptor at 0x100: target tile (0, 1) of pasture p with the selector given, a payload of len bytes at pay, class cls, and h in the
first reserved byte. -/
def sMsg (sel p len cls pay h : Nat) : State :=
  mkM [(6, 0x100), (7, 0)] [(0x100, 1 + sel * 2 ^ 32), (0x108, 1 + p * 2 ^ 10), (0x110, pay), (0x118, 5 + len * 2 ^ 32 + cls * 2 ^ 48 + h * 2 ^ 56), (0x200, 77)]

/-- R396, R398, R399: malformed descriptors, wrong selectors, a wrong pasture. -/
theorem test_msend_traps :
    (let t (i : Instr) (s : State) (c : Nat) : Bool := localAccess s 0x100 64 needR 0x100 && s.drained 2 && traps i s c 0x100
     let m : Instr := .msend 6 7
     let h : Instr := .msendh 6 7
     t m (sMsg 0xFF 0 257 1 0x200 0) cProt && t m (sMsg 0xFF 0 8 3 0x200 0) cProt && t m (sMsg 0xFF 0 8 1 0x204 0) cProt
      && t m (sMsg 0xFF 0 8 1 0x200 1) cProt && t m (sMsg 0xFE 0 17 1 0x200 0) cProt && t m (sMsg 13 0 8 1 0x200 0) cProt
      && t h (sMsg 0xFE 0 8 1 0x200 0) cProt && t h (sMsg 0xFF 0 0 1 0x200 0) cProt && t h (sMsg 0xFF 0 128 1 0x200 0) cProt && t h (sMsg 0xFF 0 12 1 0x200 0) cProt
      && t m (sMsg 0xFF 1 8 1 0x200 0) cSeal && t m (sMsg 0xFE 1 16 2 0x200 0) cSeal && t h (sMsg 0xFF 1 120 0 0x200 0) cSeal) = true := by decide +kernel

/-- A receive record at 0x100, with buffer 0x200 of cap bytes, for tag 5 from any tile; n receives are listed, and the overflow queue and
the wake latches are as given. -/
def sRecv (a cap n : Nat) (o : List Msg) (l : List Nat) : State :=
  { mkM [(6, a)] [(0x100, 0x200), (0x108, cap + 5 * 2 ^ 32), (0x110, 0xFFFFFFFF), (0x118, 1), (0x120, 2)] with
    tiles := [(0, { tlb := pages, overflow := o, latch := l
                    recvs := (List.range n).map (fun i => { pa := 0x1000 + 64 * i, buf := 0, cap := 8, tag := 1, tmask := 0, src := 0, smask := 0 }) })] }
/-- A message with a tag and len bytes of payload. -/
def msgOf (handler : Bool) (tag len : Nat) : Msg :=
  { handler := handler, tag := tag, len := len, pay := (List.range len).map (fun i => BitVec.ofNat 8 (i + 1)), sender := 1, stamp := 9, sid := 1, ctr := none
    desc := 0x100, gen := 0, where_ := 0 }

/-- R401, R402: MPOST lists a receive, waits for room, takes a message of the overflow queue, or refuses. -/
theorem test_mpost :
    (let s := sRecv 0x100 16 63 [msgOf false 6 4] []
     let d := { s with tiles := [(0, { tlb := pages, recvs := [{ pa := 0x100, buf := 0, cap := 8, tag := 1, tmask := 0, src := 0, smask := 0 }] })] }
     localAccess s 0x100 64 needRW 0x100 && localAccess s 0x200 16 needW 0x200
      && nexts (.mpost 6) s (fun t => (t.tl 0).recvs.length == 64 && memRead t.mem 0x118 8 == 0 && memRead t.mem 0x120 8 == 0 && t.x.me.pc == 0x2001)
      && nexts (.mpost 6) (sRecv 0x100 16 64 [] []) (fun t => decide (t.x = (((sRecv 0x100 16 64 [] []).noting t.x.log).park .queue).x) && (t.tl 0).recvs.length == 64)
      && traps (.mpost 6) d cProt 0x100
      && nexts (.mpost 6) (sRecv 0x100 2 0 [msgOf false 5 4] []) (fun t => (t.tl 0).overflow.isEmpty && (t.tl 0).recvs.isEmpty && t.x.me.pc == 0x2001
          && memRead t.mem 0x120 8 == 9 && memRead t.mem 0x118 8 == 2 ^ 63 + 2 ^ 62 + 2 ^ 48 + 5 * 2 ^ 16 + 4 && memRead t.mem 0x200 8 == 0x0201)) = true := by
  decide +kernel

/-- R405, R406, R412: MWAIT, MPROBE and MCANCEL, of a record and of the latch. -/
theorem test_mwait :
    (let s := sRecv 0x100 16 0 [] []
     let z := sRecv 0 16 0 [] []
     let l := sRecv 0 16 0 [] [0]
     let f := { s with mem := memPut s.mem 0x118 (leBytes 8 (2 ^ 63 + 4)) }
     let c := { s with tiles := [(0, { tlb := pages, recvs := [{ pa := 0x100, buf := 0, cap := 8, tag := 1, tmask := 0, src := 0, smask := 0 }] })] }
     waits (.mwait 5 6) s (.mwait 0x118 5) && cw (.mprobe 5 6) s 5 1 && cw (.mwait 5 6) f 5 (wd (2 ^ 63 + 4)) && waits (.mwait 5 6) z (.latch 5)
      && nexts (.mwait 5 6) l (fun t => t.x.me.gr 5 == 1 && (t.tl 0).latch.isEmpty && t.x.me.pc == 0x2001)
      && nexts (.mprobe 5 6) l (fun t => t.x.me.gr 5 == 1 && (t.tl 0).latch.isEmpty) && nexts (.mprobe 5 6) z (fun t => t.x.me.gr 5 == 0)
      && goes (.mcancel 6) z 0x2001 && goes (.mcancel 6) s 0x2001
      && nexts (.mcancel 6) c (fun t => (t.tl 0).recvs.isEmpty && memRead t.mem 0x118 8 == 0xA000000000000000 && t.x.me.pc == 0x2001)) = true := by
  decide +kernel

/-! ### Messages on their way -/

/-- A posted receive with its record at 0x100 and buffer 0x200. -/
def recvOf (tag cap : Nat) : Recv := { pa := 0x100, buf := 0x200, cap := cap, tag := tag, tmask := 0xFFFFFFFF, src := 0, smask := 0 }

/-- R397, R403, R404, R408: a message at its tile, in every case. -/
theorem test_message_arrival :
    (let run (m : Msg) (t : Tile) (f : State → Bool) : Bool := nexts .messageArrival (sArr (.msg m) id { t with tlb := pages }) f
     let hs (n : Nat) : List HEntry := List.replicate n { pc := 0, regs := [], g15 := 0 }
     let refused (t : State) : Bool := t.mesh.map (fun k => (k.body, k.dst)) == [(.msgRefused 7, 1)] && seqGet t.seqExp (.strand 1) 0 == 0
     run { msgOf false 5 4 with gen := 1 } {} (replied · (.stale 7))
      && run (msgOf true 5 16) { handlers := hs 31 } (fun t => replied t (.ack 7) && ((t.tl 0).handlers.drop 31).map (fun e => (e.pc, e.regs.take 2, e.g15))
          == [(0x0807060504030201, [0x100F0E0D0C0B0A09, 0], wd (2 ^ 48 + 5 * 2 ^ 16 + 16))])
      && run (msgOf true 5 16) { handlers := hs 32 } refused
      && run (msgOf false 5 4) { recvs := [{ recvOf 6 8 with pa := 0x140 }, recvOf 5 3] } (fun t => replied t (.ack 7) && (t.tl 0).recvs.map (·.pa) == [0x140] && memRead t.mem 0x200 8 == 0x030201
          && memRead t.mem 0x118 8 == 2 ^ 63 + 2 ^ 62 + 2 ^ 48 + 5 * 2 ^ 16 + 4 && memRead t.mem 0x120 8 == 9)
      && run (msgOf false 5 4) { overflow := List.replicate 127 (msgOf false 1 0) } (fun t => replied t (.ack 7) && (t.tl 0).overflow.length == 128)
      && run (msgOf false 5 4) { overflow := List.replicate 128 (msgOf false 1 0) } refused) = true := by decide +kernel

/-- R174, R287, R403, R406: a message whose buffer's page misses waits for the walk; one whose record's status word an installed bank command
holds writes its payload and waits; both keep their record, which MCANCEL then leaves alone. -/
theorem test_message_waits :
    (let bank : Cmd := { id := 1, sid := 2, pasture := 0, tile := 0, core := 0, eng := .bank, exTile := 0, op := .bsum 0 0 0, lo := 0x118, hi := 0x120, st := .held }
     let s (l : List TlbEntry) (c : List Cmd) : State := { sArr (.msg (msgOf false 5 4)) id { recvs := [recvOf 5 8], tlb := l } with cmds := c }
     let stays (t : State) : Bool := t.mesh.map (·.id) == [7] && t.seqExp == [] && (t.tl 0).recvs.map (fun r => (r.pa, r.taker)) == [(0x100, some 7)]
     let z := sRecv 0x100 16 0 [] []
     let taken := { z with tiles := [(0, { tlb := pages, recvs := [{ recvOf 5 8 with taker := some 7 }] })] }
     decide ((s [] []).xlateAt 0 0 0x200 needW = none) && nexts .messageArrival (s [] []) (fun t => stays t && (t.tl 0).walks == [0] && decide (t.mem = []))
      && (s pages [bank]).bankHeld 0x118 8
      && nexts .messageArrival (s pages [bank]) (fun t => stays t && memRead t.mem 0x200 8 == 0x04030201 && memRead t.mem 0x120 8 == 9 && memRead t.mem 0x118 8 == 0
          && nexts .messageArrival { t with cmds := [] } (fun t => replied t (.ack 7) && (t.tl 0).recvs == [] && memRead t.mem 0x118 8 == 2 ^ 63 + 2 ^ 48 + 5 * 2 ^ 16 + 4))
      && goes (.mcancel 6) taken 0x2001) = true := by decide +kernel

/-- What comes back to the sender on tile 0 for message 101. -/
def sSent (b : Body) (m : Msg) : State :=
  { mkM [] [(0x300, 5)] with unacked := [{ id := 101, party := .strand 1, src := 0, dst := 1, body := .post (.msg m) }]
                             mesh := [{ id := 7, party := .strand 1, src := 1, dst := 0, body := b }], inp := { k := 7 } }

/-- R397, R404, R407: a refusal below and at MRETRY, with a counter and without; a stale message; a message to the controllers. -/
theorem test_messages_return :
    (let m := msgOf false 5 4
     let e : State := { mkM [] [] with mesh := [{ id := 7, party := .strand 1, src := 1, dst := 0, body := .post (.event (msgOf false 5 4)) }], inp := { k := 7 }
                                       pastures := [(0, { pcb := { evq := 3 * 2 ^ 42, evqn := 256 } })] }
     nexts .messageRetry (sSent (.msgRefused 101) { m with tries := 15 }) (fun t => t.mesh.map (·.body) == [.post (.msg { m with tries := 16 })])
      && nexts .messageRetry (sSent (.msgRefused 101) { m with tries := 16 }) (fun t => t.mesh.isEmpty && t.unacked.isEmpty
          && (t.strandOf 1).any (fun st => st.fail == some (cMsgRefused, 0x100)))
      && canCount (sSent (.msgRefused 101) { m with tries := 16, ctr := some 0x300 }) 0x300
      && nexts .messageRetry (sSent (.msgRefused 101) { m with tries := 16, ctr := some 0x300 }) (fun t => t.unacked.isEmpty
          && memRead t.mem 0x300 8 == 2 ^ 63 + cMsgRefused * 2 ^ 56 + 6)
      && nexts .staleRefusal (sSent (.stale 101) { m with ctr := some 0x300 }) (fun t => t.unacked.isEmpty && memRead t.mem 0x300 8 == 2 ^ 63 + 0x4B * 2 ^ 56 + 6)
      && nexts .staleRefusal (sSent (.stale 101) m) (fun t => t.unacked.isEmpty && t.mesh.isEmpty && (t.pas 0).evqtail == 1)
      && nexts .controllerMessage e (fun t => replied t (.ack 7) && (t.pas 0).evqtail == 1)) = true := by decide +kernel

/-- R328: a matrix command at its tile: queued, refused behind eight, stale, and at a failed tile. -/
theorem test_mxsend_arrival :
    (let c (i : Nat) (st : CmdSt) : Cmd := { id := i, sid := 1, pasture := 0, tile := 1, core := 0, eng := .matrix, exTile := 0, op := .mxsend 6 7 0, st := st }
     let s (n : Nat) (o : Post) (t : Tile) : State := { sArr o id t with cmds := c 9 .sent :: (List.range n).map (fun i => c (20 + i) .arrived) }
     nexts .mxsendArrival (s 7 (.mxsend 9 0) {}) (fun t => replied t (.ack 7) && (t.cmds.take 1).map (·.st) == [.arrived])
      && nexts .mxsendArrival (s 8 (.mxsend 9 0) {}) (fun t => t.dropped.map (·.id) == [7] && (t.cmds.take 1).map (·.st) == [.sent])
      && nexts .mxsendArrival (s 0 (.mxsend 9 1) {}) (replied · (.stale 7)) && nexts .mxsendArrival (s 0 (.mxsend 9 0) { failed := true }) (replied · (.nack 7 cHomeLost 0))) = true := by
  decide +kernel

/-- R327: MXSEND of an earmark that names no tile, or another pasture's. -/
theorem test_mxsend_traps :
    (let s (n p : Nat) : State := onMe (sMsg n p 0 0 0 0) (fun st => { st with g := st.g.setIfInBounds 7 0x200 })
     mapsTo (s 0xFF 1) 0x200 needR 0x200 && isLocal (s 0xFF 1) 0x200 128 && traps (.mxsend 6 7 0) (s 0xFE 0) cProt 0x100
      && traps (.mxsend 6 7 0) (s 13 0) cProt 0x100 && traps (.mxsend 6 7 0) (s 0xFF 1) cSeal 0x100) = true := by
  decide +kernel

end Sys2Proof.Tests
end

