-- ==== Sys2Proof/Tests/Numbers.lean ====
section
/-! SUPPORT. Tests of arithmetic: the formats, rounding and flags, the scalar floating-point instructions and conversions (R105 to R122,
R160 to R165). The words expected are worked out by hand from the formats. -/

set_option Elab.async false

namespace Sys2Proof.Tests

open Sys2Proof Sys2Proof.Machine

/-- R108, R161: exact results of finite values; the invalid operations and the division by zero. -/
theorem test_exact_arithmetic :
    (decide (addF 0 (.fin false 3 2) (.fin true 1 3) = (.fin false 7 6, 0)) && decide (mulF (.fin false 3 2) (.fin true 1 3) = (.fin true 3 6, 0))
      && decide (divF (.fin false 3 2) (.fin true 1 3) = (.fin true 9 2, 0)) && decide (divF (.fin true 3 2) (.fin false 0 1) = (.inf true, fDZ))
      && decide (divF (.fin true 0 1) (.fin false 0 1) = (.nan false, fNV)) && decide (addF 0 (.inf false) (.inf true) = (.nan false, fNV))
      && decide (mulF (.inf true) (.fin false 0 1) = (.nan false, fNV)) && decide ((addF 3 (.fin false 1 1) (.fin true 1 1)).1.neg = true)
      && decide ((addF 0 (.fin false 1 1) (.fin true 1 1)).1.neg = false) && (addF 0 (.nan true) (.inf false)).1.isNaN
      && decide ((addF 0 (.nan true) (.inf false)).2 = fNV) && decide ((divF (.fin false 1 1) (.nan false)).2 = 0)) = true := by decide +kernel

/-- The operands of that statement can be had. -/
theorem witness_proper : FVal.proper (.fin false 3 2) ∧ FVal.proper (.fin true 1 3) ∧ FVal.proper (.fin true 0 1) := by
  simp [FVal.proper]

/-- R106, R107, R111: the least and the greatest number of every format, subnormals and D8 among them, round to themselves in every mode. -/
theorem test_formats_round_trip :
    ([(0, [0, 1, 0x807FFFFF, 0x3F800000, 0x7F7FFFFF, 0xFF800000]), (1, [1, 0x8000000000000000, 0x7FEFFFFFFFFFFFFF, 0x7FF0000000000000]),
      (2, [1, 0x7F7F, 0xFF80]), (3, [1, 0x3FF, 0x7BFF, 0xFC00]), (4, [1, 0x7E, 0xFE]), (5, [1, 0x7B, 0xFC]), (6, [0, 1, 0x40, 0x7E, 0x7F, 0xC1, 0xFF]),
      (7, [0, 1, 7, 15])] : List (Nat × List Nat)).all (fun (c, l) => l.all (fun b => b < 2 ^ tyBits c && !(decodeF c b false).isNaN
        && (List.range 5).all (fun m => decide (roundTo c m false false (decodeF c b false) = { bits := b, fl := 0 })))) = true := by
  decide +kernel

/-- FpResult, decided: the register and flags, or the trap. -/
def fpr (i : Instr) (s : State) (d : RegNo) (bits : Nat) (fl : Flags) (n : Nat) : Bool :=
  if fl &&& BitVec.ofNat 5 (s.x.src.sw.toNat / 2 ^ 5) = 0 then
    nexts i s (fun t => regSet s.x.me t.x.me d (wd bits) && decide (t = { s with x := { s.x with
      me := { s.x.me with g := t.x.me.g, sw := s.x.me.sw ||| zx fl }, aflags := s.x.aflags ||| fl, turns := n } }))
  else gives i s (({ s with x := { s.x with turns := n } } : State).trapAt true cFp (zx fl))
/-- The strand with a status word. -/
def withSw (s : State) (w : Nat) : State := onMe s (fun st => { st with sw := wd w })

/-- 1.5, 2.25 and 1.0 in binary32; 3.0 and -2.0 in binary64. -/
def sFp : State := mk [(4, 0x3F800000), (6, 0x3FC00000), (7, 0x40100000), (8, 0x4008000000000000), (9, 0xC000000000000000), (10, 0)]

/-- R160 to R163: the arithmetic of binary32 and binary64. -/
theorem test_scalar_arithmetic :
    (fpr (.fadd 5 6 7 0 1) sFp 5 0x40700000 0 1 && fpr (.fsub 5 6 7 0 1) sFp 5 0xBF400000 0 1 && fpr (.fmul 5 6 7 0 1) sFp 5 0x40580000 0 1
      && fpr (.ffma 4 6 7 0 1) sFp 4 0x408C0000 0 1 && fpr (.fdiv 5 6 7 0 1) sFp 5 0x3F2AAAAB fNX 4 && fpr (.fdiv 5 6 7 1 1) sFp 5 0x3F2AAAAA fNX 4
      && fpr (.fsqrt 5 7 0 1) sFp 5 0x3FC00000 0 4 && fpr (.fadd 5 8 9 0 0) sFp 5 0x3FF0000000000000 0 1
      && fpr (.fdiv 5 8 9 0 0) sFp 5 0xBFF8000000000000 0 8 && fpr (.fsqrt 5 9 0 0) sFp 5 0x7FF8000000000000 fNV 8
      && fpr (.fmul 5 8 9 7 0) sFp 5 0xC018000000000000 0 1 && fpr (.ffma 8 8 9 0 0) sFp 8 0xC008000000000000 0 1) = true := by decide +kernel

/-- R144, R164: an enabled flag traps FP, with the flags, and nothing is written; SW.RM is used by the code 7. -/
theorem test_scalar_trap :
    (fpr (.fdiv 5 6 7 0 1) (withSw sFp (2 ^ 9)) 5 0x3F2AAAAB fNX 4 && fpr (.fdiv 5 6 10 0 1) (withSw sFp (2 ^ 6)) 5 0x7F800000 fDZ 4
      && fpr (.fdiv 5 6 7 7 1) (withSw sFp (3 * 2 ^ 10)) 5 0x3F2AAAAA fNX 4 && fpr (.fdiv 5 6 7 7 1) (withSw sFp (2 * 2 ^ 10)) 5 0x3F2AAAAB fNX 4) = true := by
  decide +kernel

/-- R120 to R122, R163: FMIN, FMAX, FCMP and the sign instructions. -/
theorem test_scalar_compare :
    (fpr (.fmin 5 6 7 1) sFp 5 0x3FC00000 0 1 && fpr (.fmax 5 6 7 1) sFp 5 0x40100000 0 1 && fpr (.fmin 5 8 9 0) sFp 5 0xC000000000000000 0 1
      && fpr (.fmax 5 9 8 0) sFp 5 0x4008000000000000 0 1 && fpr (.fcmp 5 6 7 0 1) sFp 5 0 0 1 && fpr (.fcmp 5 6 7 2 1) sFp 5 1 0 1
      && fpr (.fcmp 5 6 6 0 1) sFp 5 1 0 1
      && aw (.fsgn 5 8 9 0) sFp 5 0xC008000000000000 1 && aw (.fsgnn 5 8 9 0) sFp 5 0x4008000000000000 1
      && aw (.fsgnx 5 9 9 0) sFp 5 0x4000000000000000 1 && aw (.fsgn 5 6 9 1) sFp 5 0x3FC00000 1) = true := by decide +kernel

/-- R165: FCVT between formats: narrowing rounds, overflows, or saturates. -/
theorem test_convert_formats :
    (fpr (.fcvt 5 8 0 1 0 false) sFp 5 0x40400000 0 1 && fpr (.fcvt 5 6 0 0 1 false) sFp 5 0x3FF8000000000000 0 1
      && fpr (.fcvt 5 7 0 3 1 false) sFp 5 0x4080 0 1 && fpr (.fcvt 5 7 0 2 1 false) sFp 5 0x4010 0 1
      && fpr (.fcvt 5 6 0 3 1 true) (mk [(6, 0x47800000)]) 5 0x7BFF (fOF ||| fNX) 1
      && fpr (.fcvt 5 6 0 3 1 false) (mk [(6, 0x47800000)]) 5 0x7C00 (fOF ||| fNX) 1) = true := by decide +kernel

/-- R118, R119, R165: FCVT to the integers, in range, out of it, infinite and NaN. -/
theorem test_convert_to_integer :
    (fpr (.fcvt 5 7 0 4 1 false) sFp 5 2 fNX 1 && fpr (.fcvt 5 6 0 6 1 false) sFp 5 2 fNX 1 && fpr (.fcvt 5 9 0 4 0 false) sFp 5 (2 ^ 64 - 2) 0 1
      && fpr (.fcvt 5 9 0 5 0 false) sFp 5 0 fNV 1 && fpr (.fcvt 5 9 0 6 0 false) sFp 5 (2 ^ 64 - 2) 0 1
      && fpr (.fcvt 5 6 0 6 1 false) (mk [(6, 0x4F000000)]) 5 0x7FFFFFFF fNV 1 && fpr (.fcvt 5 6 0 4 1 false) (mk [(6, 0xFF800000)]) 5 (2 ^ 63) fNV 1
      && fpr (.fcvt 5 6 0 7 1 false) (mk [(6, 0x7F800000)]) 5 0xFFFFFFFF fNV 1 && fpr (.fcvt 5 6 0 5 1 false) (mk [(6, 0x7FC00000)]) 5 0 fNV 1) = true := by
  decide +kernel

/-- R105, R165: FCVT from the integers, to floats and to other integers, wrapped and saturated. -/
theorem test_convert_from_integer :
    (let s := mk [(6, 2 ^ 64 - 3), (7, 0x80000000), (8, 5)]
     fpr (.fcvt 5 6 0 0 4 false) s 5 0xC008000000000000 0 1 && fpr (.fcvt 5 7 0 1 6 false) s 5 0xCF000000 0 1
      && fpr (.fcvt 5 7 0 1 7 false) s 5 0x4F000000 0 1 && fpr (.fcvt 5 6 0 1 5 false) s 5 0x5F800000 fNX 1
      && fpr (.fcvt 5 7 0 6 5 false) s 5 0xFFFFFFFF80000000 0 1 && fpr (.fcvt 5 7 0 6 5 true) s 5 0x7FFFFFFF 0 1
      && fpr (.fcvt 5 6 0 5 4 true) s 5 0 0 1 && fpr (.fcvt 5 6 0 7 4 false) s 5 0xFFFFFFFD 0 1 && fpr (.fcvt 5 8 0 4 7 true) s 5 5 0 1) = true := by
  decide +kernel

/-- R66, R120, R161, R164: 0.5 + 0.25 and 1 + 2^60 by an atomic; the roots of 4 and 2 on either side of 1.5; minimum and maximum of zeros and
of a NaN; an unordered comparison. -/
theorem test_number_rules :
    (amoNew 8 4 0x3F000000 0x3E800000 == 0x3F400000 && amoNew 8 8 0x3FF0000000000000 0x43B0000000000000 == 0x43B0000000000000
      && amoNew 8 4 0x7F800000 0xFF800000 == 0x7FC00000
      && (match sqrtF 23 (.fin false 4 1) with | (.fin false p q, 0) => p == 2 * q && q != 0 | _ => false) && decide (sqrtF 23 (.fin true 0 1) = (.fin true 0 1, 0))
      && decide (sqrtF 23 (.fin true 1 1) = (.nan false, fNV))
      && (match sqrtF 23 (.fin false 2 1) with | (.fin false p q, 0) => decide (2 * p < 3 * q) && decide (7 * q < 5 * p) | _ => false)
      && decide (minMaxF 0 false false 0 0x80000000 = { bits := 0x80000000, fl := 0 }) && decide (minMaxF 0 true false 0 0x80000000 = { bits := 0, fl := 0 })
      && decide (minMaxF 0 true true 1 0x7FC00000 = { bits := 0, fl := 0 }) && decide (minMaxF 0 false false 0x7F800001 0x7FC00000 = { bits := 0x7FC00000, fl := fNV })
      && cmpF 0 (.fin true 0 1) (.fin false 0 1) == (true, 0) && cmpF 2 (.nan false) (.inf true) == (false, fNV) && cmpF 1 (.nan false) (.inf true) == (true, 0)) = true := by
  decide +kernel

/-- R114: 2^24 + 1 in binary32 in the five modes: a tie goes to the even code, or down, up, down, or to the odd code; and −(2^24 + 1). R275: 1 + 2^-14 among
the fractions of 13 bits. -/
theorem test_rounding_modes :
    ((List.range 5).map (fun m => (roundTo 0 m false false (.fin false 16777217 1)).bits) == [0x4B800000, 0x4B800000, 0x4B800001, 0x4B800000, 0x4B800001]
      && (List.range 5).map (fun m => (roundTo 0 m false false (.fin true 16777217 1)).bits) == [0xCB800000, 0xCB800000, 0xCB800000, 0xCB800001, 0xCB800001]
      && (roundTo 0 0 false false (.fin false 16777217 1)).fl == fNX
      && (List.range 5).map (fun m => (roundSpecial 0 m false (.fin false 16385 16384, 0)).bits) == [0x3F800000, 0x3F800000, 0x3F800400, 0x3F800000, 0x3F800400]) = true := by
  decide +kernel

end Sys2Proof.Tests
end

