-- ==== Sys2Proof/Tests/Steps.lean ====
section
/-! SUPPORT. Tests of whole bundles and of steps (R41 to R43, R53 to R56, R140, R178, R418). -/

set_option Elab.async false

namespace Sys2Proof.Tests

open Sys2Proof Sys2Proof.Machine

/-- A run of two instructions, with a property of what follows. -/
def pair (c a : Instr) (s : State) (f : State → Bool) : Bool := match runPair c a s with | .next t => f t | _ => false
/-- One step, with a property of what follows. -/
def steps (s : State) (f : State → Bool) : Bool := match step s with | .next t => f t | _ => false

/-- R53, R54, R144: both slots read the registers as they stood; one destination for both is ILLEGAL_BUNDLE, but g0 is none. -/
theorem test_both_slots :
    (let s := mk [(5, 10), (6, 20), (7, 30)]
     pair (.lea 5 6 2) (.add 6 5 7) s (fun u => u.x.me.gr 5 == 22 && u.x.me.gr 6 == 40 && u.x.me.pc == 0x2001 && u.x.me.budget == 999 && u.x.trap == none)
      && pair (.lea 0 6 2) (.add 0 5 7) s (fun u => u.x.me.gr 0 == 0 && u.x.trap == none)
      && pair (.lea 5 6 2) (.add 5 6 7) s (fun u => u.x.trap.any (·.cause == cIllegalBundle) && u.x.me.gr 5 == 10 && u.x.me.budget == 999)) = true := by decide +kernel

/-- R56: the order of causes: ILLEGAL of C, ILLEGAL of A, a conflict, the trap of C, the trap of A; and a C slot that waits. -/
theorem test_cause_order :
    (let s := mk [(6, 4), (7, 0), (8, 0x30000)]
     let cause (c a : Instr) (s : State) (n : Nat) (slotA : Bool) : Bool := pair c a s (fun u => u.x.trap.any (·.cause == n) && u.x.me.utc.toNat / 2 ^ 9 % 2 == (if slotA then 1 else 0)
        && u.x.me.gr 5 == 0)
     let fp := onMe s (fun st => { st with sw := wd (2 ^ 6) })
     let far := withPosts (mk [(8, 0x30000)]) 32
     cause .leave (.vadd true 3 1 2 2 7 false) s cIllegal true && cause .hend (.vadd true 3 1 2 2 7 false) s cIllegal false && cause .hend (.add 5 6 7) s cIllegal false
      && cause (.ld 5 6 3 0) (.add 5 6 7) s cIllegalBundle false && cause (.ld 5 6 3 0) (.fdiv 9 6 7 0 0) fp cAlign false
      && cause (.lea 9 6 0) (.fdiv 5 6 7 0 0) fp cFp true
      && pair (.st 5 8 3 0) (.addi 5 5 1) far (fun u => u.x.me.gr 5 == 1 && u.x.me.wait == some (.acks 4) && u.x.me.cOnly && u.x.me.pc == 0x2000)
      && pair (.ld 5 6 3 0) (.addi 9 9 1) (mk [(6, 0x70000)]) (fun u => u.x.me.gr 9 == 0 && u.x.me.wait == some (.walk 0x70000))) = true := by decide +kernel

/-- R144: a bundle of 8 turns that is abandoned after 3 has taken those and changed nothing else. R261: a bundle whose A slot finds no
operand in its stream is not performed, nor charged. -/
theorem test_abandoned :
    (let s := mk [(6, 20), (7, 4)]
     let cut : State := { s with x := { s.x with upTo := 3 } }
     let dry : State := { s with tiles := [(0, { tlb := pages, streams := [(1, { owner := some 1, len := 256, buf := [2 ^ 42] })] })] }
     pair (.lea 9 6 0) (.div 5 6 7) cut (fun u => u.x.me.gr 9 == 0 && u.x.me.gr 5 == 0 && u.x.me.pc == 0x2000 && u.x.me.budget == 997 && u.x.trap == none)
      && pair (.lea 9 6 0) (.div 5 6 7) s (fun u => u.x.me.gr 9 == 20 && u.x.me.gr 5 == 5 && u.x.me.pc == 0x2001 && u.x.me.budget == 992)
      && pair (.lea 9 6 0) (.vadd false 3 1 1 2 7 true) dry (fun u => u.x.me.gr 9 == 0 && u.stalled && u.x.me.wait == some .stream && u.x.me.budget == 1000)) = true := by
  decide +kernel

/-- The test strand, whose bundle at 0x10000 has the two words. -/
def sStep (w0 w1 : Nat) : State :=
  { mk [] with mem := memPut [] 0x10000 (leBytes 4 w0 ++ leBytes 4 w1), strands := [withRegs me [(6, 20)]], x := {}, cur := .strand 0 0 0 }

/-- R41 to R43, R140: a step of a strand: LEA g6 := g6 + 64 beside ADDI g4 := g4 + 1; a long instruction; a word that is none. -/
theorem test_step_strand :
    (let s := sStep 0x02CC0040 0x15100001
     decide (decodeC 0x02CC0040 = .ok (.lea 6 6 64)) && decide (decodeA 0x15100001 = .ok (.addi 4 4 1)) && s.canIssue s.cur
      && decide (tlbFind (s.tl 0).tlb 0 0x10000 = some (page 0x10000 0x10000 false false true))
      && decide (s.checkEntry 0 (page 0x10000 0x10000 false false true) 0x10000 { x := true } = .inl 0x10000)
      && steps s (fun u => (u.strandOf 1).any (fun st => st.gr 6 == 84 && st.gr 4 == 1 && st.pc == 0x2001 && st.budget == 999 && st.place == .slot 0 0 0) && decide (u.x = {})
          && decide (u.mem = s.mem))
      && steps (sStep 0x80A00000 0x12345678) (fun u => (u.strandOf 1).any (fun st => st.gr 5 == 0x12345678 && st.pc == 0x2001))
      && steps (sStep 1 0) (fun u => (u.strandOf 1).any (fun st => st.inTrap && st.utc == 0x01 && st.utval == 1 && st.pc == 0x1000))) = true := by decide +kernel

/-- R418: a step of a controller core: GSTOP of a pasture, from its SRAM. -/
theorem test_step_controller :
    (let w := 0x640C0400
     let s : State := { mkCtl [] with mem := memPut [] (sramKey 0 0) (leBytes 4 w), cur := .ctl 0 0, x := {}, ctls := [(0, { ctx := { place := .ctl 0 0 } })] }
     s.canIssue s.cur && steps s (fun u => (u.pas 0).st == .stopped && (u.ctl 0 0).ctx.pc == 1)) = true := by decide +kernel

/-- Log 2: the moves of a schedule, and the stop where nothing moves. -/
theorem test_step_moves :
    (let s (m : Move) : State := { mk [] with sched := [m], cur := .strand 0 3 3 }
     steps (s (.tick 5)) (fun u => u.now == 5 && u.sched.isEmpty) && steps (s (.event .featureCommit {})) (fun u => u.committed && u.sched.isEmpty)
      && (let w (m : Move) : State := { sStep 0x02CC0040 0x15100001 with sched := [m] }
          [Move.part (.strand 0 0 0) [1], .turns (.strand 0 0 0) 1].all (fun m => steps (w m) (fun u => u.sched.isEmpty
            && (u.strandOf 1).any (fun st => st.gr 6 == 84 && st.gr 4 == 1 && st.pc == 0x2001) && decide (u.x = {}))))
      && steps (s (.issue (.strand 0 3 3))) (fun u => u.sched.isEmpty && decide (u.strands = [me]))
      && (match step { mk [] with cur := .strand 0 3 3 } with | .fault .nothingMoves => true | _ => false)) = true := by decide +kernel

/-- From reset a step is possible: a controller core runs, and memory keeps its form. -/
theorem test_step_from_reset :
    (State.reset.mem.wf && State.reset.canIssue State.reset.cur && steps State.reset (fun u => u.mem.wf && (u.ctl 0 0).ctx.pc == 1)) = true := by decide +kernel

/-- Log 8: a placed word is the first that runs: CSRR in a strand, CREATE by a controller, which it declines before COMMIT. -/
theorem test_placed :
    (steps (State.reset.withFetchWord 32 0x01C00212) (fun u => u.strands.map (fun st => (st.pc, st.gr 14)) == [(0x2001, 0)])
      && steps (State.reset.withFetchWord 32 0x64000C06) (fun u => (u.ctl 0 0).ctx.gr 1 == 2 && (u.ctl 0 0).ctx.pc == 1)
      && steps (State.reset.withFetchWord 64 0) (fun u => u.strands.map (·.pc) == [0x2001])) = true := by decide +kernel

end Sys2Proof.Tests
end

