-- ==== Sys2Proof/Tests/Rooms.lean ====
section
/-! SUPPORT. Tests of budgets as bundles issue, of slots that are made free, of the fold region, of walks and fetches that other
tiles answer. -/

set_option Elab.async false

namespace Sys2Proof.Tests

open Sys2Proof Sys2Proof.Machine

/-! ### Budgets as bundles issue -/

/-- One issue of the test strand. -/
def issues1 (s : State) (f : State → Bool) : Bool := match issue (.strand 0 0 0) s with | .next t => f t | _ => false
/-- The bundle of test_step_strand, of the strand as f makes it. -/
def sDue (f : Strand → Strand) : State := { sStep 0x02CC0040 0x15100001 with strands := [f (withRegs me [(6, 20)])] }

/-- R148, R149, R153: with BUDGET 0 the bundle at PC does not issue, but the C slot of one that has issued goes on. -/
theorem test_budget_issue :
    (let a := sDue (fun st => { st with budget := 0 })
     let g := sDue (fun st => { st with budget := 0, grace := true })
     let left := sDue (fun st => { st with budget := 0, cOnly := true, pend := some { w0 := 0x02CC0040, w1 := 0x15100001, g := (withRegs me [(6, 20)]).g, v := me.v } })
     let go := sDue (fun st => { st with budget := 1 })
     issues1 a (fun u => (u.strandOf 1).any (fun st => st.inTrap && st.utc == 0x0B && st.gr 6 == 20 && st.gr 4 == 0 && st.budget == 256))
      && issues1 g (fun u => (u.strandOf 1).any (fun st => st.stop == some .escalated && st.gr 6 == 20))
      && issues1 left (fun u => (u.strandOf 1).any (fun st => st.gr 6 == 84 && st.gr 4 == 0 && st.pc == 0x2001 && st.budget == 0 && st.stop.isNone))
      && issues1 go (fun u => (u.strandOf 1).any (fun st => st.gr 6 == 84 && st.gr 4 == 1 && st.pc == 0x2001 && st.budget == 0))) = true := by
  decide +kernel

/-- R148, R410: the bundle whose turns bring a handler slot to 4,096 is not performed, and they are spent. -/
theorem test_handler_budget_issue :
    (let s (n : Nat) : State := onMe (mk [(6, 20), (7, 4)]) (fun st => { st with sw := wd (2 ^ 23), hturns := n })
     let one (c : Instr) (s : State) (f : State → Bool) : Bool := match runSingle c s with | .next t => f t | _ => false
     let ends (n : Nat) (u : State) : Bool := u.x.me.stop == some .escalated && u.x.trap.any (·.cause == cHandlerBudget) && u.x.me.hturns == n
      && u.x.me.gr 5 == 0 && u.x.me.pc == 0x2000
     (s 0).x.me.hslot && pair .nopC (.div 5 6 7) (s 4088) (ends 4096) && pair .nopC (.div 5 6 7) (s 4095) (ends 4103)
      && pair .nopC (.div 5 6 7) (s 4087) (fun u => u.x.me.gr 5 == 5 && u.x.me.hturns == 4095 && u.x.trap.isNone)
      && one (.lea 5 6 4) (s 4095) (ends 4096)
      && one (.lea 5 6 4) (s 4094) (fun u => u.x.me.gr 5 == 24 && u.x.me.hturns == 4095 && u.x.trap.isNone)) = true := by decide +kernel

/-! ### Room in a tile -/

/-- R183, R225, R227: the core with the fewest active strands; the latest ED; the strand that has waited longest. -/
theorem test_room :
    (let at_ (sid c n : Nat) (w : Option Wait) (l : Slice) (p : Nat) : Strand :=
        { sid := wd sid, place := .slot 0 c n, wait := w, slice := l, parkedAt := p }
     let s : State := { mk [] with strands := [at_ 1 0 0 none { cls := 1, ed := 5 } 0, at_ 2 1 0 (some (.counter 0 true 0)) { cls := 2, ed := 9 } 7,
        at_ 3 2 0 (some (.fullEmpty 0)) { cls := 2, ed := 9 } 6, at_ 4 3 0 none { cls := 0, ed := 99 } 0] }
     let held : State := { s with strands := s.strands.map (fun st => { st with sw := wd (2 ^ 16) }) }
     let parked := s.strands.map (fun st => if st.sid = 2 then { st with bound := 1 } else st)
     decide (s.freeSlot 0 = some (0, 1)) && decide ((mk []).freeSlot 0 = some (1, 0))
      && (s.victim 0).any (fun v => v.sid == 2 || v.sid == 3) && (({ s with strands := parked } : State).victim 0).any (·.sid == 2)
      && (s.longestParked 0).any (·.sid == 3) && (held.victim 0).isNone && (held.longestParked 0).isNone
      && decide ((sFullTile 1).freeSlot 0 = none)) = true := by decide +kernel

/-- R183, R225, R227, R228: with every slot taken, a class-0 slice takes the victim's slot, or makes room for arrivals whatever the ED; a
slice of class 1 takes the slot of a longest-parked strand with a later ED, or of a victim beyond MARGIN; else nothing happens. -/
theorem test_bind_makes_room :
    (let took (s : State) : Bool := nexts .sliceBind s (fun t => (t.strandOf 77).any (·.place == .slot 0 0 0) && (t.strandOf 1).any (·.place == .fold 0)
        && (t.tl 0).readyQ == [])
     let first (s : State) (f : Strand → Strand) : State := { s with strands := s.strands.map (fun st => if st.sid = 1 then f st else st) }
     let early (c : Nat) : State := first (sFullTile c) (fun st => { st with slice := { cls := 0, ed := 3 } })
     let live (c ed : Nat) : State := first (sFullTile c) (fun st => { st with wait := none, slice := { cls := 2, ed := ed } })
     let withArr (s : State) : State := { s with tiles := s.tiles.map (fun x => (x.1, { x.2 with arrivals := [9] })) }
     took (sFullTile 0) && took (sFullTile 1)
      && gives .sliceBind (early 0) (early 0) && took (withArr (early 0)) && gives .sliceBind (early 1) (early 1)
      && took { live 1 9 with pastures := [(0, { pcb := { margin := 0 } })] } && gives .sliceBind { live 1 8 with pastures := [(0, { pcb := { margin := 0 } })] } { live 1 8 with pastures := [(0, { pcb := { margin := 0 } })] }) = true := by
  decide +kernel

/-! ### The fold region -/

/-- The machine with 256 contexts in the fold of tile 0, whose fold region begins at 0x8000. -/
def sFolded (s : State) : State :=
  { s with pastures := [(0, { pcb := { foldq := 8 } })], strands := s.strands ++ List.replicate 256 { sid := 9, place := .fold 0 }
           tiles := [(0, { (s.tl 0) with foldbase := 0x8000 })] }

/-- R138, R182, R230: a context that leaves goes by way of an entry of the fold, here the first of the region in DRAM, which it keeps until
its arrival is acknowledged; one that is refused comes back to it. -/
theorem test_fold_region :
    (let s := sFolded sLeave
     let back (b : Body) : State := { mk [] with tiles := [(0, { departing := [(1, none)], leftAt := [(1, 4)] })], strands := [{ me with place := .transit 0 }]
                                                 mesh := [{ id := 7, party := .strand 1, src := 1, dst := 0, body := b }], inp := { k := 7 } }
     s.foldRoom 0 && decide (s.foldEntry 0 = some 0) && decide (sLeave.foldEntry 0 = none)
      && nexts .migrationDepart s (fun t => (t.tl 0).leftAt == [(1, 0)] && (t.strandOf 1).any (fun st => st.place == .transit 0 && st.foldAt.isNone)
          && t.mem.all (fun c => decide (0x8000 ≤ c.1) && decide (c.1 < 0x8100)) && decide (t.foldEntry 0 = some 1))
      && nexts .migrationDepart sLeave (fun t => (t.tl 0).leftAt == [] && t.mem == [])
      && nexts .arrivalAck (back (.contextAck 1)) (fun t => (t.tl 0).leftAt == [] && t.mesh.isEmpty)
      && nexts .contextArrival { sArrive 0 0 true with tiles := [(0, { departing := [(1, none)], leftAt := [(1, 4)] }), (1, { failed := true })] }
          (fun t => (t.tl 0).leftAt == [] && (t.strandOf 1).any (fun st => st.place == .fold 0 && st.foldAt == some 4))) = true := by decide +kernel

/-! ### Walks -/

/-- R24, R175 to R177: each fault of a table, as it is found: a root on another paddock, a table on a failed tile, an error; an entry that is
not valid, has a reserved bit, or is a leaf too large, unaligned, or beyond the tiles; a table where only a leaf may be; a leaf of a
failed tile. -/
theorem test_walk_faults :
    (let leaf := 0x80000 + 0x1B
     let w (s : State) : Walk := s.walk 0 0 0x80000
     let top (e : Nat) : State := { sWalk leaf with mem := memPut (sWalk leaf).mem 0x200000 (leBytes 8 e) }
     decide (w { sWalk leaf with pastures := [(0, { pcb := { roots := [2 ^ 29 * 200] } })] } = .fault cXlate)
      && decide (w { sWalk leaf with tiles := [(0, { failed := true })] } = .fault cHomeLost)
      && decide (w { sWalk leaf with bad := [0x200000 / 8] } = .fault cMemerr)
      && [0, 0x201001 + 2 ^ 56, 0x201001 + 2 ^ 8, 0x201001 + 4, 0x201001 + 8, 0x201003].all (fun e => decide (w (top e) = .fault cXlate))
      && [leaf + 4096, leaf - 0x1B + 1, leaf + 2 ^ 45 * 9 * 0 + 2 ^ 42 * 7].all (fun e => decide (w (sWalk e) = .fault cXlate))
      && decide (w (sWalk (leaf + 128)) = .fault cHomeLost)) = true := by decide +kernel

/-- R177, R190, R287: the root table on tile 1 is asked by one packet, whose answer is noted at its level; one that a bank command holds makes
the walk wait. -/
theorem test_walk_fetches :
    (let s : State := { sWalk (0x80000 + 0x1B) with pastures := [(0, { pcb := { roots := [2 ^ 29 + 0x200000] } })] }
     let held : State := { sWalk (0x80000 + 0x1B) with cmds := [{ id := 1, sid := 2, pasture := 0, tile := 0, core := 0, eng := .bank, exTile := 0, op := .bsum 0 0 0, lo := 0x200000, hi := 0x200009, st := .held }] }
     let back (c : Option Nat) : State := { mk [] with
        tiles := [(0, { walks := [0x80000], walkRuns := [{ page := 0x80000, id := 3, log := [(0, .out 0)] }] })]
        mesh := [{ id := 7, party := .walk 0 3, src := 1, dst := 0, key := 0, body := .data 0 (.load 8 false 0) 0x201001 c 0x80000 }], inp := { k := 7 } }
     s.tableOk 0 (2 ^ 29 + 0x200000)
      && nexts .walkComplete s (fun u => u.mesh.map (fun k => (k.body, k.src, k.dst, k.want, k.key)) == [(.fetch 0 0x80000 (2 ^ 29 + 0x200000) (.load 8 false 0), 0, 1, 1, 0)]
          && (u.tl 0).walks == [0x80000] && (u.tl 0).walkRuns.map (fun w => w.log.length) == [1])
      && nexts .walkComplete held (fun u => u.mesh.isEmpty && (u.tl 0).walks == [0x80000] && u.ctr 0 0x218 == 1)
      && nexts .pinnedFetchReply (back none) (fun u => (u.tl 0).walkRuns.map (·.log) == [[(0, .val 0x201001)]] && u.mesh.isEmpty)
      && nexts .pinnedFetchReply (back (some cHomeLost)) (fun u => (u.tl 0).walkRuns.map (·.log) == [[(0, .fault cHomeLost)]])
      -- two reads at a time, and then the rest
      && nexts .walkComplete { sWalk (0x80000 + 0x1B) with inp := { k := 0, val := 0x80000, l := 2 } } (fun u =>
          (u.tl 0).walks == [0x80000] && (u.tl 0).walkRuns.map (fun w => w.log.length) == [2] && u.ctr 0 0x130 == 2
          && nexts .walkComplete { u with inp := { k := 0, val := 0x80000 } } (fun u => (u.tl 0).walks == [] && (u.tl 0).tlb.length == 1 && u.ctr 0 0x130 == 5))) = true := by
  decide +kernel

/-! ### Bundles and records from another tile -/

/-- The test strand, whose code page lies on tile 1. -/
def sFarCode : State :=
  { sStep 0 0 with tiles := [(0, { tlb := [page 0x10000 (2 ^ 29 + 0x10000) false false true] })]
                   mem := memPut [] (2 ^ 29 + 0x10000) (leBytes 4 0x02CC0040 ++ leBytes 4 0x15100001) }

/-- R180, R190: a bundle of tile 1: the strand waits for it; its bytes come to the buffer of the core; and one issue takes them. -/
theorem test_far_bundle :
    (let s := sFarCode
     let pa := 2 ^ 29 + 0x10000
     let w := 0x15100001 * 2 ^ 32 + 0x02CC0040
     let got : State := { s with tiles := [(0, { (s.tl 0) with fbuf := [(0, [(pa, w)])] })] }
     let reply (c : Option Nat) : State := { s with
        strands := s.strands.map (fun st => { st with wait := some (.reply 0x10000 pa .code) })
        mesh := [{ id := 7, party := .strand 1, src := 1, dst := 0, body := .data 1 .code (BitVec.ofNat 2048 w) c 0x10000 }], inp := { k := 7 } }
     s.canIssue s.cur && decide (s.checkEntry 0 (page 0x10000 pa false false true) 0x10000 { x := true } = .inl pa)
      && steps s (fun u => (u.strandOf 1).any (fun st => st.wait == some (.fetch 0x10000 pa .code) && st.pc == 0x2000 && st.budget == 1000) && u.mesh.isEmpty)
      && nexts .pinnedFetchReply (reply none) (fun u => (u.strandOf 1).any (·.wait.isNone) && tget (u.tl 0).fbuf 0 [] == [(pa, w)])
      && nexts .pinnedFetchReply (reply (some cMemerr)) (fun u => (u.strandOf 1).any (fun st => st.inTrap && st.utc == 9 && st.utval == 0x10000 && st.budget == 999))
      && steps got (fun u => (u.strandOf 1).any (fun st => st.gr 6 == 84 && st.gr 4 == 1 && st.pc == 0x2001 && st.budget == 999) && tget (u.tl 0).fbuf 0 [] == [])) = true := by
  decide +kernel

/-- R190, R218: the slice record of a strand whose origin is tile 1: the request, and the answer that lets its SLICEINFO go on. -/
theorem test_far_record :
    (let sid := wd (2 ^ 25 + 1)
     let st (w : Wait) : Strand := { me with sid := sid, wait := some w, cOnly := true, pend := some { w0 := 0, w1 := 0, g := me.g, v := me.v } }
     let pa := 2 ^ 29
     let ask : State := { mk [] with strands := [st (.reply 0 pa .record)], mesh := [{ id := 7, party := .strand sid, src := 0, dst := 1, body := .fetch sid 0 pa .record }], inp := { k := 7 } }
     let back : State := { ask with mesh := [{ id := 7, party := .strand sid, src := 1, dst := 0, body := .data sid .record 0 none 0 }] }
     nexts .pinnedFetchRequest ask (fun u => u.ctr 1 0x130 == 1 && u.mesh.map (fun k => (k.body, k.dst)) == [(.data sid .record 0 none 0, 0)])
      && nexts .pinnedFetchReply back (fun u => (u.strandOf sid).any (fun st => st.wait.isNone && st.pend.any (fun b => b.log == [(memoKey recordKey, 0)])))) = true := by
  decide +kernel

/-- R60, R418: a controller core that meets a C-slot instruction it does not execute: LDFE is ILLEGAL. -/
theorem test_step_controller_illegal :
    (let w := 0x1AAC0000
     let s : State := { mkCtl [] with mem := memPut [] (sramKey 0 0) (leBytes 4 w), cur := .ctl 0 0, x := {}, ctls := [(0, { ctx := { place := .ctl 0 0 } })] }
     decide (decodeC w = .ok (.ldfe 5 6 0)) && !(mkCtl []).permits false (.ldfe 5 6 0)
      && steps s (fun u => (u.ctl 0 0).ctx.pc == 0 && (u.ctl 0 0).sv.fault == some (cIllegal, wd w))) = true := by decide +kernel

end Sys2Proof.Tests
end

