-- ==== Sys2Proof/Tests/Strands.lean ====
section
/-! SUPPORT. Tests of the ends of strands, handlers, acts on other strands, and messages (R216 to R238, R327, R328, R395 to R415), and
of acknowledgements and losses (R192, R390). -/

set_option Elab.async false

namespace Sys2Proof.Tests

open Sys2Proof Sys2Proof.Machine

/-! ### Acknowledgements and losses -/

/-- A packet with a body on its way from tile 1 to tile 0; two operations are kept for retransmission. -/
def sBack (b : Body) (cls : Nat) : State :=
  { withPosts (mk []) 2 with mesh := [{ id := 7, party := .strand 1, src := 1, dst := 0, cls := cls, body := b }], inp := { k := 7 } }

/-- R193, R390, R392: an acknowledgement, a failed one, drops of each class, a notice, a retransmission, and the token. -/
theorem test_acknowledgements :
    (let n : State := { sBack (.refused 9) 1 with dropped := [{ id := 9, src := 0, dst := 1, body := .ack 3 }], resend := [] }
     let r : State := { mk [] with resend := [{ id := 7, src := 0, dst := 1, tries := 1, body := .ack 3 }], inp := { k := 7 } }
     nexts .postedAck (sBack (.ack 101) 1) (fun t => t.unacked.map (·.id) == [100] && t.mesh.isEmpty)
      && nexts .failedAck (sBack (.nack 100 cHomeLost 0x30008) 1) (fun t => t.unacked.map (·.id) == [101]
          && (t.strandOf 1).any (fun st => st.fail == some (cHomeLost, 0x30008)))
      && gives .packetDrop (sBack (.ack 101) 0) (sBack (.ack 101) 0)
      && [1, 2].all (fun c => nexts .packetDrop (sBack (.ack 101) c) (fun t => t.dropped.map (·.id) == [7]
          && t.mesh.map (fun k => (k.body, k.dst)) == [(.refused 7, 1)]))
      && nexts .refusalNotice n (fun t => t.dropped.isEmpty && t.mesh.isEmpty && t.resend.map (fun k => (k.id, k.tries)) == [(9, 1)])
      && nexts .retransmit r (fun t => t.resend.isEmpty && t.mesh.map (fun k => (k.id, k.tries)) == [(7, 1)])
      && nexts .class0TokenReturn { mk [] with tiles := [(3, { token := false })], inp := { k := 3 } } (fun t => (t.tl 3).token)) = true := by
  decide +kernel

/-! ### Ends -/

/-- R234, R238: END leaves a group and lowers its join counter; HEND gives up a reservation; each in its own kind of slot. -/
theorem test_ends :
    (let g := onMe { mkM [] [(0x200, 5)] with pastures := [(0, { groups := [(2, { members := 3 })] })] } (fun st => { st with grp := 0xFFFFFF02 })
     let j := onMe g (fun st => { st with slice := { join := 0x200 } })
     let h := onMe (mk []) (fun st => { st with sw := wd (2 ^ 23) })
     let r := onMe { h with tiles := [(0, { tlb := pages, resv := [{ pa := 0x100, holder := 1, fifo := [] }] })] } (fun st => { st with sw := wd (2 ^ 23 + 2 ^ 20) })
     g.drained 2 && !g.x.me.hslot && originOf g.x.me.sid == g.here && mapsTo j 0x200 needW 0x200 && !j.bankHeld 0x200 8
      && nexts .endStrand g (fun t => t.x.gone && t.finishIssue.strands.isEmpty && (tget (t.pas 0).groups 2 {}).members == 2 && decide (t.mem = g.mem))
      && nexts .endStrand j (fun t => t.x.gone && memRead t.mem 0x200 8 == 4)
      && gives .endStrand h h.illegalC && gives .hend (mk []) (mk []).illegalC && waits .endStrand (withPosts (mk []) 1) (.acks 2)
      && waits .hend (withPosts h 1) (.acks 2) && gives .hend h { h with x := { h.x with gone := true } }
      && r.x.me.rsv && nexts .hend r (fun t => t.x.gone && !t.x.me.rsv)) = true := by decide +kernel

/-- A strand at depth d, whose class 1 is open or closed, waits with a slice packet for the pool of 2, of which n are taken; AFFINITY was
translated to tile 1. -/
def sRetry (n d : Nat) (open_ : BitVec 8) : State :=
  let bs := leBytes 56 (0x10000 + 7 * 2 ^ 64) ++ leBytes 8 1
  let w : Pending := { w0 := 0, w1 := 0, g := me.g, v := me.v, log := [(memoKey 3, 1)] }
  { mk [] with pastures := [(0, { pcb := { pool := 2, depth := 24 }, opened := open_, pool := n })], inp := { sid := 1 }
               strands := [{ me with wait := some (.pool 5 bs), pend := some w, slice := { depth := d } }] }

/-- R237: the wait for the pool, full and with an entry free: its loop alone is tried again. -/
theorem test_pool_retry :
    (let ends_ (s : State) (v : Word) : Bool := nexts .spawnwPoolRetry s (fun t => (t.strandOf 1).any (fun st => st.gr 5 == v && st.pc == 0x2001
        && st.wait == none && st.pend == none) && decide (t.mem = s.mem) && (v == 1 || decide (t.pastures = s.pastures)))
     gives .spawnwPoolRetry (sRetry 2 0 2) (sRetry 2 0 2) && ends_ (sRetry 1 24 2) 2 && ends_ (sRetry 1 0 1) 3 && ends_ (sRetry 1 0 2) 1
      && nexts .spawnwPoolRetry (sRetry 1 0 2) (fun t => (t.pas 0).pool == 2
        && (t.pas 0).classQ.map (fun l => (l.entry, l.arg, l.cls, l.depth, l.home)) == [(0x10000, 7, 1, 1, 1)])) = true := by decide +kernel

/-! ### Handlers -/

/-- A handler queue with one entry. -/
def sHandler (pc : Word) : State :=
  { mk [] with tiles := [(0, { handlers := [{ pc := pc, regs := (List.range 14).map (fun i => wd (100 + i)), g15 := 9 }] })], inp := { k := 0, m := 5 } }

/-- R408 to R410: a handler starts in slot 14 of core 0; with a misaligned or too great an address it is stopped at once. -/
theorem test_handler_start :
    (decide ((sHandler 0x18).pasOfTile 0 = some 0) && decide ((sHandler 0x18).handlerSlot 0 = some (0, 14)) && (sHandler 0x18).indexFree 0 5
      && nexts .handlerStart (sHandler 0x18) (fun t => (t.tl 0).handlers.isEmpty
        && (t.strands.drop 1).map (fun st => (st.place, st.pc, st.gr 1, st.gr 14, st.gr 15, st.sw)) == [(.slot 0 0 14, 3, 100, 113, 9, wd (2 ^ 23))]
        && (t.strands.drop 1).map (fun st => (st.grp, st.utv, originOf st.sid)) == [(0xFFFFFFFF, 0, 0)])
      && [0x14, 2 ^ 56].all (fun pc => nexts .handlerStart (sHandler (wd pc)) (fun t => (t.tl 0).handlers.isEmpty
        && (t.strands.drop 1).map (fun st => (st.place, st.stop)) == [(.slot 0 0 14, some .escalated)]))) = true := by decide +kernel

/-! ### Earmarks and acts on other strands -/

/-- The ten bytes of an earmark before its seal: logical (row 0, column 1), generation 4. -/
def emHead (sel rights pas : Nat) : List Byte := leBytes 8 (1 + sel * 2 ^ 32 + 4 * 2 ^ 48) ++ leBytes 2 (rights + pas * 2 ^ 10)
/-- An earmark with a false seal at 0x100. -/
def sEm (sel rights pas : Nat) : State := { mk [(6, 0x100), (7, 0x200)] with mem := memPut [] 0x100 (emHead sel rights pas ++ leBytes 6 0) }

/-- R395, R396: selectors that name no slot, and an earmark of another pasture. -/
theorem test_earmark_traps :
    ([14, 15, 64, 0xFE, 0xFF].all (fun n => let s := sEm n 15 0
        localAccess s 0x100 16 needR 0x100 && s.drained 2 && traps (.wake 6) s cProt 0x100 && traps (.haltt 6) s cProt 0x100)
      && [0, 13, 61].all (fun n => let s := sEm n 15 1
        traps (.wake 6) s cSeal 0x100 && traps (.haltt 6) s cSeal 0x100)
      && (let s := sEm 61 15 0
          !emRight (memBytes (sEm 61 12 0).mem 0x100 16) 1 && emRight (memBytes s.mem 0x100 16) 3 && emPas (memBytes s.mem 0x100 16) == 0
            && mapsTo s 0x200 needW 0x200 && s.postRoom s.x.me.party s.here)) = true := by decide +kernel

/-- Bytes written are the bytes read. -/
theorem memBytes_memPut (m : Memory) (a : Nat) (bs : List Byte) (h : m.wf = true) : memBytes (memPut m a bs) a bs.length = bs := by
  have key (n i : Nat) (hn : i + n ≤ bs.length) : memBytes (memPut m a bs) (a + i) n = (bs.drop i).take n := by
    induction n generalizing i with
    | zero => simp [memBytes]
    | succ n ih =>
      have hi : i < bs.length := by omega
      rw [memBytes, memGet_memPut_self a i bs h hi, Nat.add_assoc, ih (i + 1) (by omega), List.drop_eq_getElem_cons hi, List.take_succ_cons]
  simpa using key bs.length 0 (by simp)

/-- The length of a string of n bytes. -/
theorem leBytes_length (n v : Nat) : (leBytes n v).length = n := by
  induction n generalizing v with
  | zero => rfl
  | succ n ih => simp [leBytes, ih]

theorem beBytes_length (n v : Nat) : (beBytes n v).length = n := by simp [beBytes, leBytes_length]

/-- A hash has 32 bytes. -/
theorem sha256_length (bs : List Byte) : (sha256 bs).length = 32 := by
  have round (l : List Nat) : ∀ x : ShaRun, x.work.length = 8 → (l.foldl ShaRun.round x).work.length = 8 := by
    induction l with
    | nil => intro x hx; exact hx
    | cons k l ih =>
      intro x hx
      refine ih _ ?_
      rw [ShaRun.round]
      split
      · rfl
      · exact hx
  have block (hash : List Nat) (b : List Byte) (hh : hash.length = 8) : (shaBlock hash b).length = 8 := by
    simp only [shaBlock, List.length_zipWith]
    rw [round _ _ hh, hh]; rfl
  have all (f : Nat → List Byte) (l : List Nat) : ∀ hash : List Nat, hash.length = 8 → (l.foldl (fun h i => shaBlock h (f i)) hash).length = 8 := by
    induction l with
    | nil => intro h hh; exact hh
    | cons i l ih => intro h hh; exact ih _ (block h _ hh)
  have hash : ((shaPrimes.take 8).map (shaFraction 2)).length = 8 := by decide +kernel
  have out (l : List Nat) : (l.flatMap (beBytes 4)).length = 4 * l.length := by
    induction l with
    | nil => rfl
    | cons x l ih => simp only [List.flatMap_cons, List.length_append, ih, beBytes_length, List.length_cons]; omega
  rw [sha256, out, all _ _ _ hash]

/-- What a memory holds does not matter to where an address leads. -/
theorem witness_access (m : Memory) : localAccess { mk [(6, 0x100), (7, 0x200)] with mem := m } 0x100 16 needR 0x100 = true := by
  have h : mapsTo { mk [(6, 0x100), (7, 0x200)] with mem := m } 0x100 needR 0x100 = mapsTo (mk [(6, 0x100), (7, 0x200)]) 0x100 needR 0x100 := by
    unfold mapsTo; rfl
  have g : isLocal { mk [(6, 0x100), (7, 0x200)] with mem := m } 0x100 16 = isLocal (mk [(6, 0x100), (7, 0x200)]) 0x100 16 := by
    unfold isLocal; rfl
  rw [localAccess, h, g]; decide +kernel

/-- The fields of an earmark, whatever its seal. -/
theorem emHead_fields (sel : Nat) (hs : sel = 61 ∨ sel = 0xFF) (l : List Byte) :
    let em := emHead sel 15 0 ++ l
    emSel em = sel ∧ emPas em = 0 ∧ em.take 10 = emHead sel 15 0 ∧ em.drop 10 = l ∧ (emHead sel 15 0).length = 10 ∧ ∀ r, r < 4 → emRight em r = true := by
  rcases hs with rfl | rfl <;>
    refine ⟨rfl, by rw [emPas, show bfield (_ ++ l) 9 1 = 0 from rfl], rfl, rfl, rfl, fun r hr => ?_⟩ <;>
    (rw [emRight, show bfield (_ ++ l) 8 1 = 15 from rfl]; interval_cases r <;> decide)

/-- R395, R396: an earmark that every one of the instructions accepts: slot 13 of core 3, with all four rights and the seal of its pasture; and
one for a tile. -/
theorem witness_earmark (sel : Nat) (hs : sel = 61 ∨ sel = 0xFF) :
    ∃ (s : State) (em : List Byte), EarmarkAt s 6 em ∧ s.corr = [] ∧ s.drained 2 = true ∧ s.x.me.fail = none ∧ emSel em = sel
      ∧ ∀ r, r < 4 → EarmarkGood s em (fun _ => true) r := by
  have hseal (q : Pasture) (e : List Byte) : (q.sealOf e).length = 6 := by simp [Pasture.sealOf, hmacSha256, sha256_length]
  have hq (e : List Byte) : ({} : Pasture).sealOf (e.take 10) = ({} : Pasture).sealOf e := by rw [Pasture.sealOf, Pasture.sealOf, List.take_take]; rfl
  obtain ⟨f1, f2, f3, f4, f5, f6⟩ := emHead_fields sel hs (({} : Pasture).sealOf (emHead sel 15 0))
  have hl : (emHead sel 15 0 ++ ({} : Pasture).sealOf (emHead sel 15 0)).length = 16 := by rw [List.length_append, f5, hseal]
  obtain ⟨em, he⟩ : ∃ e, e = emHead sel 15 0 ++ ({} : Pasture).sealOf (emHead sel 15 0) := ⟨_, rfl⟩
  rw [← he] at f1 f2 f3 f4 hl f6
  rw [← f3, hq] at f4
  have hm := memBytes_memPut [] 0x100 em rfl
  rw [hl] at hm
  have hp : State.drained { mk [(6, 0x100), (7, 0x200)] with mem := memPut [] 0x100 em } 2 = true := by
    have h : State.drained { mk [(6, 0x100), (7, 0x200)] with mem := memPut [] 0x100 em } 2 = State.drained (mk [(6, 0x100), (7, 0x200)]) 2 := by
      unfold State.drained; rfl
    rw [h]; decide +kernel
  refine ⟨{ mk [(6, 0x100), (7, 0x200)] with mem := memPut [] 0x100 em }, em, ⟨0x100, witness_access _, hm.symm⟩, rfl, hp, rfl, f1,
    fun r hr => ⟨rfl, f2, ?_, f6 r hr⟩⟩
  rw [f4, List.take_of_length_le (by rw [hseal])]
  rfl

end Sys2Proof.Tests
end

