-- ==== Sys2Proof/Tests/System.lean ====
section
/-! SUPPORT. Tests of the controllers' system instructions and services, of power and bring-up, and of the host's side (R3, R19, R179, R214,
R421 to R456). -/

set_option Elab.async false

namespace Sys2Proof.Tests

open Sys2Proof Sys2Proof.Machine

/-- A controller core with registers, words of memory, and the test strand, stopped or not, in slot 0. -/
def sCtl (l : List (Nat × Nat)) (m : List (Nat × Nat)) (stop : Option Stop) : State :=
  { mkCtl l with mem := m.foldl (fun m p => memPut m p.1 (leBytes 8 p.2)) [], strands := [{ me with stop := stop, g := me.g.setIfInBounds 3 33 }], tiles := [(0, {})] }
/-- One posted store of n bytes leaves for tile 0, and the bundle is complete. -/
def posts (i : Instr) (s : State) (n : Nat) : Bool :=
  nexts i s (fun u => u.x.me.pc == s.x.me.pc + 1 && decide (u.mem = s.mem) && u.mesh.length == 1
    && u.mesh.all (fun k => k.dst == 0 && match k.body with | .post (.store 0x400 m _ _) => m == n | _ => false))

/-- R428, R429: MINT, misaligned; of a template that has not come, or came with an error; of a pasture that is not, with reserved
bits, of a tile outside the grid; to an address that is not; and good: for a tile, for the controllers, for a slot. -/
theorem test_mint :
    (let z (a b : Nat) : State := sCtl [(6, a), (7, b)] [] none
     let s (w v b : Nat) : State := noting (z 0x100 b) [(5, w + v * 2 ^ 64)]
     let t (w v : Nat) : Bool := let z := s w v 0x400; gives (.mint 6 7) z (z.trapC cProt 0x100)
     let ok := s (0xFF * 2 ^ 32 + 11) 15 0x400
     (z 0x108 0x400).x.me.isCtl && (z 0 0).pastures.length == 1 && decide ((z 0 0).homeOf 0x100 = .tile 0)
      && gives (.mint 6 7) (z 0x108 0x400) ((z 0x108 0x400).trapC cAlign 0x108) && gives (.mint 6 7) (z 0x100 0x408) ((z 0x100 0x408).trapC cAlign 0x408)
      && gives (.mint 6 7) (z (2 ^ 56) 0x400) ((z (2 ^ 56) 0x400).trapC cXlate (2 ^ 56)) && waits (.mint 6 7) (z 0x100 0x400) (.fetch 0x100 0x100 (.block 16 5))
      && (let e := noting (z 0x100 0x400) [(5, 2 ^ 128 + cMemerr)]; nexts (.mint 6 7) e (fun u => u.x.trap == some { cause := cMemerr, val := 0x100 }))
      && t (0xFF * 2 ^ 32) (1 * 2 ^ 10) && t (0xFF * 2 ^ 32) 16 && t (0xFF * 2 ^ 32) 0x100 && t (0xFF * 2 ^ 32 + 12) 0 && t (14 * 2 ^ 32) 0 && t (64 * 2 ^ 32) 0
      && (let e := s (0xFF * 2 ^ 32 + 11) 15 (2 ^ 56); gives (.mint 6 7) e (e.trapC cXlate (2 ^ 56)))
      && posts (.mint 6 7) ok 16 && posts (.mint 6 7) (s (0xFE * 2 ^ 32) 1 0x400) 16 && posts (.mint 6 7) (s (61 * 2 ^ 32) 14 0x400) 16
      && waits (.mint 6 7) { ok with unacked := (List.range 32).map (fun i => { id := 100 + i, party := .ctl 0 0, src := 0, dst := 1, body := .ack 0 }) } (.acks 4)) = true := by
  decide +kernel

/-- R430, R431: CTXLD and CTXST of a strand that is held, of one that is not, of none, misaligned, at an address that is not;
CTXST before its bytes have come, and after. -/
theorem test_contexts :
    (let s (sid a : Nat) (h : Option Stop) : State := sCtl [(6, a), (7, sid)] [] h
     let ok := s 1 0x400 (some .held)
     let far := s 1 (2 ^ 56) (some .held)
     let bs := block 256 [(8, 8, 5), (0x20, 8, 42), (0x88, 8, 9), (0x90, 8, 2 ^ 64 - 1), (0xB0, 5, 7)]
     let got := noting ok [(112, leNat bs)]
     [s 1 0x400 none, s 2 0x400 none].all (fun z => [.ctxld 6 7, .ctxst 6 7].all (fun i => gives i z (z.trapC cProt (z.g 7))))
      && [.ctxld 6 7, .ctxst 6 7].all (fun i => gives i (s 1 0x420 none) ((s 1 0x420 none).trapC cAlign 0x420))
      && [.ctxld 6 7, .ctxst 6 7].all (fun i => traps i far cXlate (2 ^ 56))
      && posts (.ctxld 6 7) ok 256 && (pageParts 0x400 256).length == 1 && waitsNoting (.ctxst 6 7) ok (.fetch 0x400 0x400 (.block 256 112))
      && nexts (.ctxst 6 7) got (fun u => u.x.me.pc == ok.x.me.pc + 1 && (u.strandOf 1).any (fun st => st.gr 3 == 42 && st.gr 0 == 0 && st.pc == 9 && st.deadline == 7
          && st.edDue && st.sw == wd (2 ^ 10 - 1 + 2 ^ 13 + 2 ^ 18 + 2 ^ 21) && st.stop == some .held && st.place == .slot 0 0 0))) = true := by decide +kernel

/-- R179, R419, R436: TLBINV drops what the range meets, and is complete with nothing in flight; it waits as FENCE.D, and for a
store that was translated with an entry dropped; it ends once that is gone. -/
theorem test_tlbinv :
    (let c (n : Nat) (a b : Nat) : State := { sCtl [(6, a), (7, b)] [] none with tiles := [(0, { tlb := pages })], ctls := [(0, { sv := { asp := BitVec.ofNat 8 n } })] }
     let keep := pages.filter (fun e => e.base != 0x20000)
     let pc := (c 0 0 0).x.me.pc
     let posted (p : Party) : State := { c 0 0x20000 0x10000 with ids := 8, mesh := [{ id := 7, party := p, src := 0, dst := 0, body := .post (.store (2 ^ 42 + 8) 8 1 0x20008) }] }
     let fetch := other (.fetch 0x20000 (2 ^ 42) (.load 8 false 5))
     let done := noting (c 0 0x20000 0x10000) [(100, 0), (101, 0)]
     (c 0 0 0).drained 2 && (c 0 0 0).x.me.fail.isNone && nexts (.tlbinv 6 7) (c 0 0x20000 0x10000) (fun u => decide ((u.tl 0).tlb = keep) && u.x.me.pc == pc + 1)
      && nexts (.tlbinv 6 7) { c 0 0x20000 0x10000 with strands := [me, fetch] } (fun u => u.strands.map (·.wait) == [none, none] && u.x.me.pc == pc + 1)
      && nexts (.tlbinv 6 7) (c 0 0 0) (fun u => (u.tl 0).tlb.isEmpty) && gives (.tlbinv 6 7) (c 0 8 0) ((c 0 8 0).trapC cAlign 8)
      && [5, 255].all (fun n => nexts (.tlbinv 6 7) (c n 0 0) (fun u => u.x.trap == some { cause := cProt, val := wd n } && (u.tl 0).tlb.length == 7))
      && waits (.tlbinv 6 7) { c 0 0 0 with unacked := [{ id := 7, party := .ctl 0 0, src := 0, dst := 1, body := .ack 0 }] } (.acks 2)
      && nexts (.tlbinv 6 7) (posted (.strand 1)) (fun u => u.x.me.wait == some (.acks 2) && u.x.me.pc == pc && decide ((u.tl 0).tlb = keep))
      && gives (.tlbinv 6 7) done { done with x := { done.x with me := done.x.me.done done.x.me.g (pc + 1) } }) = true := by decide +kernel

/-- R434, R435: GSTOP of a running pasture, of one that stands, and of none. -/
theorem test_gstop :
    (let c (a : Nat) (st : PState) : State := { sCtl [(6, a)] [] none with pastures := [(0, { st := st })], now := 70, tiles := [(0, { sent := [1, 2, 3], rcvd := [4, 5, 6] })] }
     (c 0 .running).x.me.isCtl && nexts (.gstop 6) (c 0 .running) (fun u => (u.pas 0).st == .stopped && u.x.me.pc == (c 0 .running).x.me.pc + 1
          && (u.tl 0).stopSent == [1, 2, 3] && (u.tl 0).stopRcvd == [4, 5, 6]
          && (u.tl 0).stopSlots.contains (0, 1, 2 ^ 62 + 0x2000))
      && goes (.gstop 6) (c 0 .drained) ((c 0 .drained).x.me.pc + 1)
      && nexts (.gstop 6) (c 56 .running) (fun u => u.x.trap.any (·.cause == cProt) && (u.pas 0).st == .running)) = true := by
  decide +kernel

/-! ### Services -/

/-- A service declines with r, or answers r and has an effect. -/
def declines (i : Instr) (s : State) (r : Nat) : Bool :=
  nexts i s (fun u => regSet s.x.me u.x.me 1 (wd r) && decide (u = { s with x := { s.x with me := s.x.me.done u.x.me.g (s.x.me.pc + 1) } }))
/-- It answers r, with an effect. -/
def answers (i : Instr) (s : State) (r : Nat) (f : State → Bool) : Bool :=
  nexts i s (fun u => regSet s.x.me u.x.me 1 (wd r) && u.x.me.pc == s.x.me.pc + 1 && f u)

/-- R432: RESUME, HOLD and KILL. -/
theorem test_strand_services :
    (let s (sid : Nat) (h : Option Stop) : State := sCtl [(1, sid), (2, 1)] [] h
     [.resume, .hold, .kill].all (fun i => declines i (s 9 none) 1) && declines .resume (s 1 none) 2 && declines .hold (s 1 (some .escalated)) 0
      && answers .resume (s 1 (some .held)) 0 (fun u => (u.strandOf 1).any (fun st => st.stop == none && st.cOnly))
      && answers .hold (s 1 none) 0 (fun u => (u.strandOf 1).any (fun st => st.stop == some .held))
      && answers .kill (s 1 none) 0 (fun u => u.strands.isEmpty)
      && (let h := s 1 (some .held)
          let h : State := { h with
            strands := h.strands.map (fun st => { st with wait := some (.latch 5), edDue := true })
            tiles := [(0, { latch := [0] })] }
          answers .resume h 0 (fun u => (u.strandOf 1).any (fun st => st.gr 5 == 1 && st.wait == none && !st.edDue)
            && (u.tl 0).latch.isEmpty))) = true := by decide +kernel

/-- Pasture 0 in a state. -/
def sPas (st : PState) (l : List (Nat × Nat)) : State :=
  { sCtl l [(0x400, 0x20), (0x1000, 9)] none with pastures := [(0, { st := st, opened := 0x82, pool := 3 }), (7, {})], empties := [0x200] }

/-- R425 to R427, R432: the services of a pasture, in each of its states, and of none. -/
theorem test_pasture_services :
    (let all : List Instr := [.go, .drain, .reset, .destroy, .qctl, .post, .shrink]
     all.all (fun i => declines i (sPas .running [(1, 5)]) 1 && declines i (sPas .running [(1, 56)]) 1)
      && declines .go (sPas .running []) 2 && declines .drain (sPas .drained []) 2 && declines .reset (sPas .stopped []) 2 && declines .destroy (sPas .running []) 2
      && declines .qctl (sPas .drained []) 2 && declines .shrink (sPas .drained [(2, 8000)]) 1
      && answers .go (sPas .stopped []) 0 (fun u => (u.pas 0).st == .running) && answers .destroy (sPas .drained []) 0 (fun u => !u.hasPas 0 && u.hasPas 7)
      && answers .qctl (sPas .stopped [(2, 6), (3, 1)]) 0 (fun u => (u.pas 0).opened == 0x86) && declines .post (sPas .running [(2, 0x408)]) 3
      && gives .post (sPas .running [(2, 0x400)]) ((sPas .running [(2, 0x400)]).park (.fetch 0x400 0x400 (.block 32 112)))
      && declines .post (sPas .running [(2, 2 ^ 56)]) 3 && declines .post (noting (sPas .running [(2, 0x400)]) [(112, 2 ^ 256 + cMemerr)]) 3
      && answers .post (noting (sPas .running [(2, 0x400)]) [(112, 0x20)]) 0 (fun u => (u.pas 0).evqtail == 1)) = true := by decide +kernel

/-- R426, R427: DRAIN leaves no strand and no slice; RESET clears memory and fills every word. -/
theorem test_drain_reset :
    (answers .drain (sPas .stopped []) 0 (fun u => (u.pas 0).st == .drained && u.strands.isEmpty && (u.pas 0).pool == 0 && (u.pas 0).opened == 0)
      && (sPas .drained []).resetKeeps 0 ((sPas .drained []).spared 0) 0x1000 == false
      && answers .reset { sPas .drained [] with pastures := [(0, { st := .drained, pcb := { evqn := 0 } })] } 0 (fun u => (u.pas 0).st == .running && memGet u.mem 0x1000 == 0 && u.isFull 0x1000)) = true := by decide +kernel

/-- A control block of pasture 5 on paddock (6, 7); h2 takes a second row of paddocks, which is not there. -/
def pcbBytes (h2 : Bool) (dbud : Nat) : List Byte :=
  block 768 [(0, 8, 5 + 6 * 2 ^ 8 + 7 * 2 ^ 16 + (if h2 then 2 else 1) * 2 ^ 24 + 2 ^ 32 + 55 * 2 ^ 40), (8, 8, 16 + 24 * 2 ^ 32 + dbud * 2 ^ 40), (0x10, 8, 1000000),
    (0x18, 8, 0x0101010101010100), (0x60, 8, 1000 + 2 * 2 ^ 32 + 64 * 2 ^ 48), (0x68, 8, 64 * 2 ^ 32), (0x70, 8, 1 + 1000 * 2 ^ 32), (0x100, 8, 0x40000)]
/-- CREATE at an address, before COMMIT or after it. -/
def sCreate (committed : Bool) (a : Nat) : State := { sCtl [(1, a)] [] none with committed := committed, keys := 3 }
/-- The block has been read. -/
def sBlock (h2 : Bool) (dbud : Nat) : State :=
  noting (sCreate true 0x400) ((List.range 12).map (fun i => (112 + i, leNat (((pcbBytes h2 dbud).drop (64 * i)).take 64))))

/-- R424: CREATE before COMMIT, misaligned, of a block that is not there, has not come, or came with an error; of a malformed block, of a
budget below 256 (R217), and good. -/
theorem test_create :
    (declines .create (sCreate false 0x400) 2 && declines .create (sCreate true 0x420) 3 && declines .create (sCreate true (2 ^ 56)) 3
      && waits .create (sCreate true 0x400) (.fetch 0x400 0x400 (.block 64 112)) && declines .create (noting (sCreate true 0x400) [(112, 2 ^ 512 + cMemerr)]) 3
      && declines .create (sBlock true 1000) 3 && declines .create (sBlock false 255) 3
      && answers .create (sBlock false 256) 0 (fun u => u.hasPas 5 && u.hasPas 0 && u.keys == 4 && (u.pas 5).rows == 12 && (u.pas 5).st == .running && (u.pas 5).pcb.dbud == 256
          && (u.pas 5).key == 3 && (u.pas 5).pcb.row == 6 && (u.pas 5).pcb.col == 7 && (u.pas 5).pcb.mbwin == 1000 && (u.pas 5).pcb.roots == [0x40000])) = true := by
  decide +kernel

/-- R438: SHRINK of a tile outside the grid, of neither a row nor a column, of a line that is not quiet, and of one of a drained pasture,
which stays drained. -/
theorem test_lines :
    (let s (t w : Nat) (st : PState) : State := { sPas st [(1, 0), (2, t), (3, w)] with strands := [] }
     let cmd : Cmd := { id := 5, sid := 1, pasture := 0, tile := 3, core := 0, eng := .copy, exTile := 3, op := .cpy 6 7 0, st := .held }
     let busy : State := { s 3 1 .stopped with cmds := [cmd] }
     let waiting (z : State) (was : Bool) : State := { z with x := { z.x with src := { z.x.src with wait := some (.shrink was) } } }
     let small : State := { s 2 1 .drained with pastures := [(0, { st := .drained, rows := 2, cols := 3 })] }
     declines .shrink (s 12 1 .stopped) 1 && declines .shrink (s 3 3 .stopped) 3 && !busy.lineQuiet ((busy.pas 0).line true 0) && waits .shrink busy (.shrink false)
      && nexts .shrink { s 3 1 .running with cmds := [cmd] } (fun u => (u.pas 0).st == .stopped && u.x.me.wait == some (.shrink true) && (u.pas 0).rows == 12)
      && waits .shrink (waiting busy true) (.shrink true) && small.lineQuiet ((small.pas 0).line true 0)
      && answers .shrink small 0 (fun u => (u.pas 0).rows == 1 && (u.pas 0).cols == 3 && (u.pas 0).st == .drained && (u.pas 0).retired.length == 3)) = true := by
  decide +kernel

/-- R438: SHRINK goes on once no access with an old translation is left, and the pasture is as it was before. -/
theorem test_lines_end :
    (let s : State := { sPas .stopped [(1, 0), (2, 3), (3, 1)] with strands := [] }
     [true, false].all (fun was =>
       let z : State := { s with x := { s.x with src := { s.x.src with wait := some (.shrink was) } } }
       answers .shrink (noting z [(103, 1), (100, 0), (101, 0)]) 0 (fun u => (u.pas 0).st == (if was then .running else .stopped) && (u.pas 0).rows == 12))) = true := by
  decide +kernel

/-- R179, R439: LOST and a missed heartbeat; LOST of a tile of a pasture with nothing in flight, and once what was in flight is gone. -/
theorem test_tiles :
    (let f (t : Nat) : State := { sPas .running [(1, t)] with tiles := [(3, { failed := true })], strands := [] }
     declines .lost (f 8064) 1 && declines .lost (f 3) 2 && answers .lost (f 8063) 0 (fun u => (u.tl 8063).failed)
      && (f 4).pasOfTile 4 == some 0 && answers .lost (f 4) 0 (fun u => (u.tl 4).failed) && declines .lost (noting (f 4) [(100, 1), (101, 0)]) 0
      && gives .heartbeatMiss { f 0 with inp := { k := 3 } } { f 0 with inp := { k := 3 } } && nexts .heartbeatMiss { f 0 with inp := { k := 8063 } } (fun u => (u.tl 8063).failed)) = true := by
  decide +kernel

/-- R421: a fault of a core's own, an event of its paddock's queue, and INH. -/
theorem test_supervisor_events :
    (let s (sv : Sv) (q : List SvEvent) : State := { mkCtl [] with paddocks := [(3, { svq := q })], ctls := [(6, { ctx := { place := .ctl 3 0, pc := 5 }, sv := sv })], inp := { k := 3, l := 0 } }
     let e : SvEvent := { cause := 7, sid := 8, spc := 9, val := 10, past := 11 }
     gives .supervisorEventEntry (s { inh := true } [e]) (s { inh := true } [e])
      && nexts .supervisorEventEntry (s { vec := 0x18, fault := some (4, 6) } [e]) (fun u => decide ((u.ctl 3 0).ctx.pc = 3) && (u.ctl 3 0).sv.epc == 40 && (u.ctl 3 0).sv.cause == 4
          && (u.ctl 3 0).sv.val == 6 && (u.ctl 3 0).sv.past == 0xFF && (u.ctl 3 0).sv.inh && (u.pad 3).svq.length == 1)
      && nexts .supervisorEventEntry (s { vec := 0x18 } [e]) (fun u => decide ((u.ctl 3 0).ctx.pc = 3) && (u.ctl 3 0).sv.cause == 7 && (u.ctl 3 0).sv.sid == 8 && (u.ctl 3 0).sv.spc == 9
          && (u.ctl 3 0).sv.val == 10 && (u.ctl 3 0).sv.past == 11 && (u.pad 3).svq.isEmpty)) = true := by decide +kernel

/-! ### Power and bring-up -/

/-- R19, R456: the rate follows the draw and the heat, between 1 and 8. -/
theorem test_power :
    (let s (d : Paddock) (w : Nat) : State := { mk [] with paddocks := [(3, d), (4, { share := 2000 })], inp := { k := 3, m := w } }
     let is (i : Instr) (d e : Paddock) (w : Nat) : Bool := gives i (s d w) { s d w with paddocks := [(3, e), (4, { share := 2000 })] }
     is .powerSample { share := 300, rate := 2 } { share := 300, rate := 1, caps := 1 } 301 && is .powerSample { share := 300, rate := 1, calm := 4 } { share := 300, rate := 1 } 301
      && is .powerSample { share := 300, calm := 4 } { share := 300, calm := 5 } 200 && is .powerSample { share := 300, calm := 4 } { share := 300 } 201
      && is .powerStepUp { rate := 7, calm := 10 } { rate := 8 } 0 && is .powerStepUp { rate := 8, calm := 10 } { rate := 8 } 0
      && gives .powerStepUp (s { rate := 7, calm := 9 } 0) (s { rate := 7, calm := 9 } 0) && is .powerShareWrite {} { share := 1000 } 1000
      && gives .powerShareWrite (s {} 1001) (s {} 1001) && is .thermalStepDown { rate := 2 } { rate := 1, caps := 1 } 0 && is .thermalStepDown { rate := 1 } { rate := 1 } 0
      && is .thermalStepUp { rate := 8 } { rate := 8 } 0 && gives .thermalStop (s {} 0) (s {} 0)
      && nexts .thermalStop { s {} 0 with inp := { k := 0 } } (fun u => (u.pas 0).st == .stopped && (u.pas 0).evqtail == 1)) = true := by decide +kernel

/-- R453, R455: bring-up of a machine that ran. What an image's header says and whether it verifies is for the hardware to say, so
that no test can. -/
theorem test_power_on :
    ((sPas .running []).mem.wf && nexts .powerOn (sPas .running []) (fun u => u.strands.isEmpty && u.pastures.isEmpty && u.empties.isEmpty && u.tiles.isEmpty && !u.committed)) = true := by
  decide +kernel

/-! ### The host -/

/-- R441, R443, R454: features and attestation, before and after COMMIT. -/
theorem test_features :
    (let s (c : Bool) (l : Nat) (v : Word) : State := { mk [] with committed := c, feat2 := 0x1FF, inp := { l := l, val := v } }
     gives .featureWordWrite (s true 2 5) (s true 2 5) && gives .featureWordWrite (s false 1 5) (s false 1 5)
      && gives .featureWordWrite (s false 2 0xFFFFFFFF) { s false 2 0xFFFFFFFF with feat2 := 0x3FF } && gives .featureCommit (s false 0 0) { s false 0 0 with committed := true, featctl := true }
      && gives .attestationStart (s true 0 0) (s true 0 0) && gives .attestationStart (s false 0 0) { s false 0 0 with attbusy := true, attctl := true }
      && gives .attestationReportDone { mk [] with attbusy := true } { mk [] with attbusy := true }
      && nexts .attestationReportDone { mk [] with attbusy := true, nonced := true } (fun u => u.attready && !u.attbusy)) = true := by decide +kernel

/-- A launch into pasture 0, class c, set 9, of the bytes given. -/
def sLaunch (bs : List Byte) (ro : Bool) (q : Pasture) : State :=
  { mk [] with pastures := [(0, { q with opened := 2, pcb := { evqn := 0 } })], inp := { k := 0, l := 1, m := 9, ro := ro, bytes := bs } }
/-- A packet of class 1 with AFFINITY, JOIN and CTL as given. -/
def launchBytes (aff join ctl : Nat) : List Byte := leBytes 8 0x10000 ++ leBytes 8 7 ++ leBytes 8 aff ++ leBytes 8 join ++ leBytes 24 0 ++ leBytes 8 ctl

/-- R217, R219, R220, R221: a launch by firmware: accepted, refused with an event where its AFFINITY is no address, and not accepted of
another class, or with the pool full. -/
theorem test_firmware_launch :
    (let s (bs : List Byte) (q : Pasture) : State := { sLaunch bs false q with inp := { k := 0, l := 9, m := 9, bytes := bs }, tiles := [(0, { tlb := pages })] }
     let good := launchBytes 0x200 0 (1 + 31 * 8)
     let stays (z : State) : Bool := gives .launch z z
     !packetBad good && nexts .launch (s good {}) (fun u => (u.pas 0).pool == 1 && (u.pas 0).classQ.map (fun l => (l.cls, l.set, l.depth, l.home)) == [(1, none, 31, 0)] && u.areas.isEmpty)
      && nexts .launch (s (launchBytes (2 ^ 56) 0 1) {}) (fun u => (u.pas 0).pool == 0 && (u.pas 0).evheld.map (fun r => (bfield r 0 1, bfield r 0x18 8)) == [(0x2A, 4)] && u.areas.isEmpty)
      && stays (s (launchBytes 0x200 0 2) {}) && stays (s good { pool := 16384 }) && stays (s [] {})) = true := by decide +kernel

/-- R444, R446: every reason to refuse, in its order, and an accepted launch. -/
theorem test_launch :
    (let refused (s : State) (reason : Nat) : Bool := nexts .launch s (fun u => (u.area 0).lref == 1 && (u.pas 0).evheld.map (fun r => (bfield r 0 1, bfield r 0x18 8)) == [(0x2A, reason)] && (u.pas 0).pool == (s.pas 0).pool)
     let good := launchBytes 0x200 0 1
     let t := { sLaunch good false {} with tiles := [(0, { tlb := pages })] }
     nexts .launch (sLaunch [] false {}) (fun u => (u.area 0).lref == 1 && (u.pas 0).evqtail == 0) && nexts .launch (sLaunch good true {}) (fun u => (u.area 0).roref == 1)
      && refused { sLaunch good false {} with inp := { k := 0, l := 2, m := 9, bytes := good } } 1 && refused (sLaunch good false { st := .drained }) 1
      && refused (sLaunch (launchBytes 0x200 0 2) false {}) 2 && refused (sLaunch good false { pool := 16384 }) 3
      && refused (sLaunch (launchBytes (2 ^ 56) 0 1) false {}) 4 && refused { t with inp := { k := 0, l := 1, m := 9, bytes := launchBytes 0x200 (2 ^ 56) 1 } } 4
      && nexts .launch t (fun u => (u.pas 0).pool == 1 && (u.pas 0).classQ.map (fun l => (l.entry, l.arg, l.cls, l.set, l.home)) == [(0x10000, 7, 1, some 9, 0)]
          && tget (u.pas 0).setstat (256 + 9) (0, 0) == (1, 0))) = true := by decide +kernel

/-- R9, R219, R245, R367, R435, R441, R445, R449, R452: the host's register writes. -/
theorem test_register_writes :
    (let s (q : Pasture) (v : Word) : State := { mk [] with pastures := [(0, q)], inp := { k := 0, val := v } }
     let q : Pasture := { evqhead := 4, evqtail := 6, evdrop := 3 }
     let r (n : RegName) (v : Word) : State := { mk [] with tiles := [], inp := { k := 3, l := 2, val := v, reg := n } }
     let w (n : RegName) (v : Word) (f : State → Bool) : Bool := nexts .registerWrite (r n v) f
     let none (n : RegName) (v : Word) : Bool := gives .registerWrite (r n v) (r n v)
     let late (n : RegName) (v : Word) : State := { r n v with pastures := [(0, { everOpen := true })] }
     let rec1 : List Byte := List.replicate 32 0x11
     let held (n : Nat) (d : BitVec 32) : Pasture := { evqhead := 4, evqtail := 6, evdrop := d, evheld := List.replicate n rec1, pcb := { evqn := 2, evq := 3 * 2 ^ 42 } }
     let dram : Word := 3 * 2 ^ 29 + 0x12000
     gives .evqheadWrite (s q 7) (s q 7) && gives .evqheadWrite (s q 6) (s { q with evqhead := 6 } 6)
      && gives .evqheadWrite { s q 6 with inp := { k := 9, val := 6 } } { s q 6 with inp := { k := 9, val := 6 } }
      && nexts .evqheadWrite (s (held 2 0) 5) (fun u => (u.pas 0).evheld.length == 1 && (u.pas 0).evqtail == 7 && (u.pas 0).evqhead == 5)
      && nexts .evqheadWrite (s (held 1 9) 6) (fun u => (u.pas 0).evheld.isEmpty && (u.pas 0).evqtail == 8)
      && nexts .evdropClear (s q 0) (fun u => (u.pas 0).evdrop == 0) && nexts .hostwakeWrite (s q 9) (fun u => (u.area 0).hostwake == 9)
      && nexts .rorefClear { mk [] with areas := [(3, { roref := 2, lref := 5 })], inp := { k := 3 } } (fun u => (u.area 3).roref == 0 && (u.area 3).lref == 5)
      && nexts .lrefClear { mk [] with areas := [(3, { roref := 2, lref := 5 })], inp := { k := 3 } } (fun u => (u.area 3).roref == 2 && (u.area 3).lref == 0)
      && w .devnum 0x12345 (·.devnum == 0x345) && gives .registerWrite { r .devnum 5 with committed := true } { r .devnum 5 with committed := true }
      && w .attnonce 0x12345 (fun u => u.nonced && u.nonce.getD 2 0 == 0x12345 && u.nonce.getD 1 0 == 0) && w .winopt 0x12345 (fun u => (u.area 3).winopt == 0x45)
      && decide ((r .other 0).pasOfTile 3 = some 0) && decide ((r .other 0).homeOf dram.toNat = .tile 3)
      && w .spillbase dram (fun u => (u.tl 3).spillbase == dram) && none .spillbase (dram + 8) && none .spillbase (2 ^ 29) && gives .registerWrite (late .spillbase dram) (late .spillbase dram)
      && w .spillblk 0x2345 (fun u => (u.tl 3).spillblk == some 0x2345) && none .spillblk 0x12345 && gives .registerWrite (late .spillblk 5) (late .spillblk 5)
      && w .foldbase dram (fun u => (u.tl 3).foldbase == dram) && none .foldbase (2 ^ 29)
      && w .featctl 0 (fun u => !u.committed && !u.featctl) && w .featctl 1 (fun u => u.committed && u.featctl) && w .attctl 1 (fun u => u.attbusy && u.attctl)
      && w .attctl 0 (fun u => !u.attbusy && !u.attctl) && w .linkTime 10000 (·.linkTime == 10000) && none .linkTime 9999 && none .linkTime 100000001
      && nexts .registerWrite { mk [] with pastures := [(3, {})], inp := { k := 3, l := 2, val := 77, reg := .groupHome } }
          (fun u => (u.pas 3).groupHome 2 == 77 && (u.pas 3).groupHome 1 != 77)
      && none .other 1) = true := by decide +kernel

/-- R214, R437, R441, R445, R450, R451: reads and writes through BAR0 and BAR2, and the scrubber. -/
theorem test_host_accesses :
    (let s (k l m : Nat) (bs : List Byte) : State := { mkM [] [(0x100, 0x1122334455667788)] with committed := true, inp := { k := k, l := l, m := m, bytes := bs } }
     let rd (z : State) (st : HostStatus) (bs : List Byte) : Bool := nexts .hostRead z (fun u => decide (u.hostStatus = st) && u.hostRead == bs)
     let e (z : State) (c b : List Nat) : State := { z with corr := c, bad := b }
     rd (s 0 1 4 []) .success (leBytes 4 0x46380000) && rd (s 8 1 8 []) .success (leBytes 4 0x3FF ++ leBytes 4 0x82000000) && rd (s 2 1 4 []) .unsupported []
      && rd (s 0 1 2 []) .unsupported [] && rd { s 0x20 1 4 [] with featctl := true } .success (leBytes 4 3) && rd (s 0x102 0 4 []) .success [0x66, 0x55, 0x44, 0x33]
      && rd (s (8064 * 2 ^ 29) 0 8 []) .unsupported [] && nexts .hostRead (e (s 0x100 0 8 []) [] [0x20]) (fun u => decide (u.hostStatus = .aborted) && u.hostRead == [] && u.ctr 0 0x160 == 1)
      && nexts .hostWrite (s 0x106 0 0 [1, 2, 3, 4]) (fun u => memRead u.mem 0x100 8 == 0x0201334455667788 && memRead u.mem 0x108 8 == 0x0403)
      && nexts .hostWrite (s 0x100 1 0 [1, 2]) (fun u => memRead u.mem (3 * 2 ^ 42 + 0x100) 2 == 0x0201 && memRead u.mem 0x100 8 == 0x1122334455667788)
      && gives .hostWrite (s (8064 * 2 ^ 29) 0 0 [1]) (s (8064 * 2 ^ 29) 0 0 [1])
      && nexts .patrolScrub (e (s 0 0 0 []) [0x20] []) (fun u => u.corr.isEmpty && u.ctr 0 0x158 == 1)
      && nexts .patrolScrub (e (s 0 0 0 []) [] [0x20]) (fun u => u.bad == [0x20] && u.ctr 0 0x160 == 1 && (u.pas 0).evqtail == 1)
      && (s 0 0 0 []).bar0Read 0x1020004 == 0) = true := by decide +kernel

/-- R103, R287: a host write that meets an installed bank command waits, and one to the same home behind it; a read waits too. -/
theorem test_host_waits :
    (let s (k : Nat) (bs : List Byte) : State := { mkM [] [] with inp := { k := k, m := 8, bytes := bs }, cmds := [{ cmdOf 5 .bank (.bfill 6 7 0) .held with lo := 2 ^ 42, hi := 2 ^ 42 + 8 }] }
     let bs := leBytes 8 7
     let w (k : Nat) : HostWrite := { port := 0, ro := false, launch := none, key := k, bytes := bs }
     let one := { s (2 ^ 42 + 64) bs with hostQ := [w (2 ^ 42)] }
     (s (2 ^ 42) bs).bankHeld (2 ^ 42) 8 && nexts .hostWrite (s (2 ^ 42) bs) (fun u => decide (u.hostQ = [w (2 ^ 42)]) && u.mem.isEmpty)
      && nexts .hostWrite one (fun u => decide (u.hostQ = [w (2 ^ 42), w (2 ^ 42 + 64)]) && u.mem.isEmpty)
      && nexts .hostWrite { one with cmds := [] } (fun u => u.hostQ.isEmpty && memRead u.mem (2 ^ 42) 8 == 7 && memRead u.mem (2 ^ 42 + 64) 8 == 7)
      && nexts .hostRead { s (2 ^ 42) [] with hostRead := [9] } (fun u => u.hostRead == [9] && u.mem.isEmpty)) = true := by decide +kernel

/-- R452: a link goes down and comes up; before the time-out nothing is lost, and then every operation to the device. -/
theorem test_link_loss :
    (let k : Packet := { id := 7, party := .strand 1, src := 0, dst := 32771, body := .post (.store 8 8 1 0x50008) }
     let s (dev l now : Nat) (down : Tbl Nat) : State :=
       { mk [] with now := now, spanDown := down, strands := [me], inp := { k := dev, l := l }, unacked := [k], mesh := [k] }
     gives .spanLinkTimeout (s 0 1 0 []) (s 0 1 0 []) && gives .spanLinkTimeout (s 3 1 70 []) (s 3 1 70 [(3, 70)])
      && gives .spanLinkTimeout (s 3 1 70 [(3, 5)]) (s 3 1 70 [(3, 5)]) && gives .spanLinkTimeout (s 3 2 70 [(3, 5)]) (s 3 2 70 [])
      && gives .spanLinkTimeout (s 3 0 70 []) (s 3 0 70 []) && gives .spanLinkTimeout (s 3 0 1000004 [(3, 5)]) (s 3 0 1000004 [(3, 5)])
      && nexts .spanLinkTimeout (s 3 0 1000005 [(3, 5)]) (fun u => u.mesh.isEmpty && u.unacked.isEmpty
          && (u.strandOf 1).any (fun st => st.fail == some (cHomeLost, 0x50008)))) = true := by decide +kernel

/-! ### What a controller core executes, and its accesses -/

/-- Core 0 of paddock 0, which addresses physically, beside the test strand of tile 0. -/
def sCore (l : List (Nat × Nat)) : State := { sCtl l [] none with ctls := [(0, { sv := { asp := 0xFF } })] }

/-- R60, R418: what a controller core may issue, and what it may not. -/
theorem test_core_instructions :
    ((mkCtl []).x.me.isCtl && !(mkCtl []).committed
      && [Instr.ldAcq 5 6 0 0, .amor 5 6 7 0 3, .mint 6 7, .gstop 6, .sret, .lost, .csrr 5 0, .homeof 5 6, .fence 2, .ccwaitLong 6 1].all
          (fun i => (mkCtl []).permits false i)
      && [Instr.ldfe 5 6 0, .mig 6, .spawn 5 6, .cpy 6 7 0, .mxrun 6 7 0, .selpush 6 7, .fpop 5 6, .msend 6 7, .vldW 0 6 0, .get 6 7 0].all
          (fun i => !(mkCtl []).permits false i)
      && [Instr.add 5 6 7, .fadd 5 6 7 0 0, .sel 5 6 7 8].all (fun i => (mkCtl []).permits true i)
      && [Instr.vadd true 0 1 2 0 0 false, .vredAdd false 0 1 0 0].all (fun i => !(mkCtl []).permits true i)) = true := by decide +kernel

/-- R181, R190 to R192, R418, R419: a core's accesses of a tile's memory are fetches and posted operations; with no room it waits;
misaligned, and of an address that is not. -/
theorem test_core_accesses :
    (let s (x : Nat) : State := sCore [(5, 3), (6, x), (7, 0x55)]
     let z := s 0x400
     let full : State := { z with unacked := (List.range 32).map (fun i => { id := 100 + i, party := .ctl 0 0, src := 0, dst := 1, body := .ack 0 }) }
     let away (i : Instr) (f : Body → Bool) : Bool := nexts i z (fun u => u.x.me.pc == z.x.me.pc + 1 && decide (u.mem = z.mem) && decide (u.unacked = u.mesh)
       && u.mesh.length == 1 && u.mesh.all (fun k => k.dst == 0 && decide (k.party = .ctl 0 0) && f k.body))
     decide (z.x.me.place = .ctl 0 0) && (z.ctl 0 0).sv.asp == 0xFF && decide (z.homeOf 0x400 = .tile 0) && !badPa 0x400
      && [Instr.ld 5 6 3 0, .ldp 5 6 3 0, .ldAcq 5 6 3 0].all (fun i => waits i z (.fetch 0x400 0x400 (.load 8 false 5))
          && gives i (s 0x401) ((s 0x401).trapC cAlign 0x401) && gives i (s (2 ^ 56)) ((s (2 ^ 56)).trapC cXlate (2 ^ 56)))
      && waits (.ld 5 6 1 0) z (.fetch 0x400 0x400 (.load 2 true 5))
      && posts (.st 7 6 5 0) z 2 && waits (.st 7 6 3 0) full (.acks 4) && gives (.st 7 6 3 0) (s (2 ^ 57 + 1)) ((s (2 ^ 57 + 1)).trapC cAlign (2 ^ 57 + 1))
      && waits (.amor 5 6 7 4 3) z (.fetch 0x400 0x400 (.amor 4 8 0x55 5)) && waits (.cas 5 6 7 3) z (.fetch 0x400 0x400 (.cas 8 3 0x55 5))
      && away (.amop 6 7 4 3) (fun b => decide (b = .post (.amo 4 0x400 8 0x55 0x400))) && waits (.amop 6 7 4 3) full (.acks 4)
      && away (.amoz 6 7) (fun b => decide (b = .post (.amoz 0x400 0x55 0x400))) && waits (.ccwait 6 7) z (.fetch 0x400 0x400 (.poll false 0x55))
      && posts (.ccset 6 7) z 8) = true := by decide +kernel

/-- R9, R19, R230, R367, R418, R435: control space: SRAM, the power share within 3,000 W, SPILLBASE and FOLDBASE of a tile, the limits that
they meet, a counter, and an offset that a store leaves as it is. -/
theorem test_core_control_space :
    (let at_ (t off : Nat) : Nat := 2 ^ 43 + t * 2 ^ 29 + off
     let s (t off v : Nat) : State := { sCore [(6, at_ t off), (7, v)] with paddocks := [(3, { share := 2000 })], tiles := [(2, { foldbase := 9 })] }
     let dram : Nat := 2 * 2 ^ 29 + 0x12000
     let st (t off v : Nat) (f : State → Bool) : Bool := nexts (.st 7 6 3 0) (s t off v) (fun u => u.x.me.pc == (s t off v).x.me.pc + 1 && f u)
     let same (t off v : Nat) : Bool := st t off v (fun u => decide (u = { s t off v with x := u.x }))
     let ld (z : BitVec 3) (x : State) (v : Word) : Bool := [Instr.ld 5 6 z 0, .ldp 5 6 z 0, .ldAcq 5 6 z 0].all (fun i =>
       nexts i x (fun u => regSet x.x.me u.x.me 5 v && u.x.me.pc == x.x.me.pc + 1 && u.free == x.free + 1))
     decide ((s 0x1FFF 8 0).homeOf (at_ 0x1FFF 8) = .control) && !badPa (at_ 0x1FFF 8) && decide (at_ 0x1FFF 8 < 2 ^ 56)
      && ld 3 { s 0x1FFF 16 0 with mem := memPut [] (sramKey 0 16) (leBytes 8 0x81) } 0x81
      && ld 0 { s 0x1FFF 17 0 with mem := memPut [] (sramKey 0 16) (leBytes 8 0x8100) } (0 - 127)
      && ld 3 (s 2 0x1610 0) 9 && ld 3 { s 2 0x160 0 with bad := [] } 0 && ld 3 { s 0x1FFF 0x100000 0 with paddocks := [(0, { share := 77 })] } 77
      && st 0x1FFF 24 0x1234 (fun u => memRead u.mem (sramKey 0 24) 8 == 0x1234)
      && st 0x1FFF 0x100000 1000 (fun u => (u.pad 0).share == 1000) && st 0x1FFF 0x100000 1001 (fun u => (u.pad 0).share == ((s 0 0 0).pad 0).share)
      && st 2 0x1610 dram (fun u => (u.tl 2).foldbase == wd dram) && st 2 0x1610 (2 ^ 56) (fun u => (u.tl 2).foldbase == 9)
      && st 2 0x1600 dram (fun u => (u.tl 2).spillbase == wd dram) && st 2 0x1600 (dram + 8) (fun u => (u.tl 2).spillbase == ((s 0 0 0).tl 2).spillbase)
      && same 0x1FFF 0x100008 5 && same 2 0x100 5 && same 2 0x1618 5) = true := by decide +kernel

/-- R179: TLBINV and a strand that stands at a word: where its address still leads there it keeps its place, and where it does
not its access begins again and the list drops it. -/
theorem test_places_at_words :
    (let w0 : W32 := BitVec.ofNat 32 (match encode (.ldfe 5 6 0) with | .c w => w | _ => 0)
     let g := (withRegs me [(6, 0x80100)]).g
     let at_ (pa : Nat) : Strand := { me with sid := 2, place := .slot 0 0 1, wait := some (.fullEmpty pa), pend := some { w0 := w0, w1 := 0, g := g, v := me.v } }
     let c : Strand := withRegs { place := .ctl 0 0 } []
     let s (pa : Nat) : State :=
       { sWalk (0x80000 + 0x1B) with
         x := { me := c, src := c }, ctls := [(0, { sv := { asp := 0 } })], strands := [at_ pa]
         tiles := [(0, { tlb := pages, fe := [{ pa := pa, sid := 2, kind := 0, reg := 5, val := 0 }] })] }
     nexts (.tlbinv 6 7) (s 0x80100) (fun u => decide (u.strands.map (·.wait) = [some (.fullEmpty 0x80100)]) && (u.tl 0).fe.length == 1)
      && nexts (.tlbinv 6 7) (s 0x80200) (fun u => decide (u.strands.map (·.wait) = [none]) && (u.tl 0).fe.isEmpty)) = true := by decide +kernel

/-- R449: the last held record makes way for EVQ_LOST, which takes a place more; where EVQ_LOST is the record that was held, it is not
repeated. -/
theorem test_lost_records :
    (let q (was : Bool) : Pasture :=
       { evqhead := 4, evqtail := 6, evdrop := 3, evheld := [List.replicate 32 0x11], lostHeld := was, pcb := { evqn := 2, evq := 3 * 2 ^ 42 } }
     let s (was : Bool) : State := { mk [] with pastures := [(0, q was)], inp := { k := 0, val := 6 } }
     nexts .evqheadWrite (s true) (fun u => (u.pas 0).evheld.isEmpty && !(u.pas 0).lostHeld && (u.pas 0).evqtail == 7)
      && nexts .evqheadWrite (s false) (fun u => (u.pas 0).evheld.isEmpty && (u.pas 0).evqtail == 8)) = true := by decide +kernel

/-- R174, R444: a launch whose AFFINITY is not in the TLB of its tile waits for its walk, before the host's later writes. -/
theorem test_launch_walks :
    (let z := { sLaunch (launchBytes 0x200 0 1) false {} with tiles := [(0, {})] }
     (z.xlateAt 0 0 0x200 needNone).isNone
      && nexts .launch z (fun u => u.hostQ == [{ port := 0, ro := false, launch := some (0, 1, 9), key := 0, bytes := launchBytes 0x200 0 1 }]
          && (u.pas 0).pool == 0 && u.areas.isEmpty && (u.tl 0).unitWalks.length == 1)) = true := by decide +kernel

/-- R453: twice the base point of the curve, as its standard gives it, and the order of the base point. -/
theorem test_curve_points :
    ((p256Add p256G p256G).any (fun q => q.1 == 0x7CF27B188D034F7E8A52380304B51AC3C08969E277F21B35A60B48FC47669978 && onP256 q.1 q.2)
      && p256G.any (fun g => onP256 g.1 g.2 && !onP256 g.1 (g.2 + 1) && p256Add p256G (some (g.1, p256P - g.2)) == none)
      && !ecdsaVerify 1 1 5 7 9 && !ecdsaVerify 0 0 5 0 9) = true := by decide +kernel

end Sys2Proof.Tests
end

