-- ==== Sys2Proof/Tests/Vector.lean ====
section
/-! SUPPORT. Tests of the vector instructions: short registers, elements, streams, the long unit and its sequencer (R248 to R277). -/

set_option Elab.async false

namespace Sys2Proof.Tests

open Sys2Proof Sys2Proof.Machine

/-- The image of a register with the elements listed, of w bits each. -/
def lanes (w : Nat) : List Int → Nat
  | [] => 0
  | x :: l => (x % 2 ^ w).toNat + 2 ^ w * lanes w l
/-- Short registers set. -/
def withV (s : State) (l : List (Nat × Nat)) : State :=
  onMe s (fun st => { st with v := l.foldl (fun v p => v.setIfInBounds p.1 (BitVec.ofNat 256 p.2)) st.v })
/-- A short vector instruction's next state, decided. -/
def vw (i : Instr) (s : State) (d : RegNo) (val : Nat) (fl : Flags) (n : Nat) : Bool :=
  nexts i s (fun t => t.x.me.vreg d == BitVec.ofNat 256 val
    && (List.range 8).all (fun q => BitVec.ofNat 4 q == d || t.x.me.vreg (BitVec.ofNat 4 q) == s.x.me.vreg (BitVec.ofNat 4 q))
    && decide (t = { s with x := { s.x with
        me := { s.x.me with v := t.x.me.v, sw := setBit s.x.me.sw 16 true ||| zx fl }
        aflags := s.x.aflags ||| fl, turns := n } }))

/-- Operands of type i32: va in v1, vb in v2, the old vd in v3. -/
def sVec : State := withV (mk [(5, 0xABCD1234), (6, 3), (7, 8)]) [(1, lanes 32 [5, -3, 7, 0x7FFFFFFF, 0, 0, 0, 9]),
  (2, lanes 32 [2, 5, -1, 1, 0, 0, 0, 33]), (3, lanes 32 [1, 1, 1, 1, -1, 0, 0xF0F0F0F0, 0x0F0F0F0F])]

/-- R267 to R269: the integer forms of i32. -/
theorem test_vector_integer :
    ([(.vadd false 3 1 2 2 7 false, [7, 2, 6, 0x80000000, 0, 0, 0, 42]), (.vsub false 3 1 2 2 7 false, [3, -8, 8, 0x7FFFFFFE, 0, 0, 0, -24]),
      (.vmul false 3 1 2 2 7 false, [10, -15, -7, 0x7FFFFFFF, 0, 0, 0, 297]), (.vmin false 3 1 2 2 7 false, [2, -3, -1, 1, 0, 0, 0, 9]),
      (.vmax false 3 1 2 2 7 false, [5, 5, 7, 0x7FFFFFFF, 0, 0, 0, 33]), (.vabs false 3 1 2 7, [5, 3, 7, 0x7FFFFFFF, 0, 0, 0, 9]),
      (.vneg false 3 1 2 7, [-5, 3, -7, -0x7FFFFFFF, 0, 0, 0, -9]), (.vfma false 3 1 2 2 7 false, [11, -14, -6, 0x80000000, -1, 0, 0xF0F0F0F0, 0x0F0F1038]),
      (.vfms false 3 1 2 2 7 false, [-9, 16, 8, -0x7FFFFFFE, -1, 0, 0xF0F0F0F0, 0x0F0F0F0F - 297])]
      : List (Instr × List Int)).all (fun p => vw p.1 sVec 3 (lanes 32 p.2) 0 1) = true := by decide +kernel

/-- R268 to R270: bits, shifts, compares and movement of i32. -/
theorem test_vector_bits :
    ([(.vand false 3 1 2 2 7 false, [0, 5, 7, 1, 0, 0, 0, 1]), (.vor false 3 1 2 2 7 false, [7, -3, -1, 0x7FFFFFFF, 0, 0, 0, 41]),
      (.vxor false 3 1 2 2 7 false, [7, -8, -8, 0x7FFFFFFE, 0, 0, 0, 40]), (.vshl false 3 1 2 2 7 false, [20, -96, 0x80000000, -2, 0, 0, 0, 18]),
      (.vshr false 3 1 2 2 7 false, [1, -1, 0, 0x3FFFFFFF, 0, 0, 0, 4]), (.vcmp false 3 1 2 2 7 false 0, [0, 0, 0, 0, -1, -1, -1, 0]),
      (.vcmp false 3 1 2 2 7 false 2, [0, -1, 0, 0, 0, 0, 0, -1]), (.vsel false 3 1 2 2 7 false, [3, 5, -1, 1, 0, 0, 0, 0x29]),
      (.vperm false 3 1 2 2 7 false, [7, 0, 9, -3, 5, 5, 5, -3]), (.vbcast false 3 5 2 7, List.replicate 8 0xABCD1234)]
      : List (Instr × List Int)).all (fun p => vw p.1 sVec 3 (lanes 32 p.2) 0 1) = true := by decide +kernel

/-- R272, R277: reductions and distances put their result in element 0. -/
theorem test_vector_reductions :
    (vw (.vredAdd false 3 1 2 7) sVec 3 0x80000011 0 2 && vw (.vredMin false 3 1 2 7) sVec 3 (2 ^ 32 - 3) 0 2
      && vw (.vredMax false 3 1 2 7) sVec 3 0x7FFFFFFF 0 2 && vw (.vdotIp false 3 1 2 2 7 false) sVec 3 2147483932 0 2) = true := by decide +kernel

/-- R267, R269, R274, R277: signs, a compare of bytes, packing to i16 and back, scaling by 2, and 1 by the step of VRSQN, worked out by hand. -/
theorem test_vector_formats :
    (let v : VIn := { w := 256, a := lanes 32 [0xBF800000, 0x40000000], b := lanes 32 [0x3F800000, 0x40000000] }
     let b : VIn := { w := 256, a := lanes 8 [-1, 1], b := lanes 8 [0, 1] }
     let at_ (i : Instr) (v : VIn) (w j : Nat) : Nat := (vecEval i v).val / 2 ^ (w * j) % 2 ^ w
     at_ (.vabs false 3 1 0 0) v 32 0 == 0x3F800000 && at_ (.vneg false 3 1 0 0) v 32 1 == 0xC0000000
      && at_ (.vcmp false 3 1 2 0 7 false 2) b 8 0 == 255 && at_ (.vcmp false 3 1 2 0 7 false 4) b 8 1 == 0
      && at_ (.vpack false 3 1 2 0 0 false 2) v 16 0 == 0xBF80 && at_ (.vpack false 3 1 2 0 0 false 2) v 16 9 == 0x4000
      && at_ (.vunpack false 3 1 false 0 0 2) { w := 256, a := lanes 16 [0x3FC0, 0x4000] } 32 1 == 0x40000000
      && at_ (.vscale false 3 1 2 0 0) { w := 256, a := lanes 32 [0x3FC00000], b := 128 } 32 0 == 0x40400000
      && at_ (.vrsqn false 3 1 2 0 0 false) { w := 256, a := lanes 32 [0x3F800000], b := lanes 32 [0x3F800000] } 32 0 == 0x3F800000) = true := by decide +kernel

/-- R275, R276: the reciprocal and the root's reciprocal of 4, 2^3, 2^-2, log2 8, and the special inputs. -/
theorem test_vector_special_values :
    (let four : VIn := { w := 256, a := lanes 32 [0x40800000] }
     let lane (i : Instr) (v : VIn) : Nat := (vecEval i v).val % 2 ^ 32
     lane (.vrcp false 3 1 0 0) four == 0x3E800000 && lane (.vrsq false 3 1 0 0) four == 0x3F000000
      && lane (.vexp2 false 3 1 0 0) { w := 256, a := lanes 32 [0x40400000] } == 0x41000000 && lane (.vexp2 false 3 1 0 0) { w := 256, a := lanes 32 [0xC0000000] } == 0x3E800000
      && lane (.vlog2 false 3 1 0 0) { w := 256, a := lanes 32 [0x41000000] } == 0x40400000
      && lane (.vexp2 false 3 1 0 0) { w := 256, a := 1 } == 0x3F800000
      && decide (rsqF 23 (.fin true 0 1) = (.inf true, fDZ)) && decide (log2Ex (.fin false 0 1) = (.inf true, fDZ)) && decide (exp2Ex (.inf true) = (.fin false 0 1, 0))
      && (match rsqF 23 (.fin false 2 1) with | (.fin false p q, 0) => decide (7 * q < 10 * p) && decide (p * 4 < q * 3) | _ => false)) = true := by decide +kernel

/-- R272, R273: reductions of eight elements, and distances of (3, 4) and (4, 3): 24, 2, 24 / 25, and 24 times a quarter; a zero vector, a NaN. -/
theorem test_vector_distances :
    (let v : VIn := { w := 256, a := lanes 32 [0x40400000, 0x40800000], b := lanes 32 [0x40800000, 0x40400000], d := 0x3E800000 }
     let z : VIn := { v with a := 0 }
     let n : VIn := { v with a := lanes 32 [0x7FC00000] }
     let val (i : Instr) (v : VIn) : Nat := (vecEval i v).val
     val (.vredMin false 3 1 0 0) v == 0 && val (.vredMax false 3 1 0 0) v == 0x40800000 && val (.vredAdd false 3 1 0 0) v == 0x40E00000
      && val (.vdotIp false 3 1 2 0 0 false) v == 0x41C00000 && val (.vdotL2 false 3 1 2 0 0 false) v == 0x40000000
      && val (.vdotCos false 3 1 2 0 0 false) v == 0x3F75C28F && val (.vdotCosn false 3 1 2 0 0 false) v == 0x40C00000
      && val (.vdotCos false 3 1 2 0 0 false) z == 0x7FC00000
      && val (.vdotCos false 3 1 2 0 0 false) { v with b := lanes 32 [0x40800000, 0xC0400000] } == 0
      && [.vdotIp false 3 1 2 0 0 false, .vdotL2 false 3 1 2 0 0 false, .vdotCos false 3 1 2 0 0 false, .vdotCosn false 3 1 2 0 0 false].all (fun i => val i n == 0x7FC00000)) = true := by
  decide +kernel

/-- R271: VEXT, below and beyond the last element; signed and unsigned types. -/
theorem test_vext :
    (!sVec.x.me.lmode && aw (.vext false 5 2 6 2 7) (withV sVec [(2, lanes 32 [0, 0, 0, -2])]) 5 (wd (2 ^ 64 - 2)) 1
      && aw (.vext false 5 2 6 6 7) (withV sVec [(2, lanes 32 [0, 0, 0, -2])]) 5 0xFFFFFFFE 1 && aw (.vext false 5 1 7 2 7) sVec 5 0 1) = true := by
  decide +kernel

/-- Operands of type binary32: 1.5, -2.0 and 1.0e38-like values. -/
def sVecF : State := withV (mk [(5, 0x3FC00000)]) [(1, lanes 32 [0x3FC00000, 0xC0000000, 0x7F7FFFFF, 0x3F000000]),
  (2, lanes 32 [0x40100000, 0x3F800000, 0x7F7FFFFF, 0x40000000]), (3, lanes 32 [0x3F800000])]

/-- R267, R275: floating elements, an overflow among them; the trap FP where it is enabled. -/
theorem test_vector_float :
    (vw (.vadd false 3 1 2 0 0 false) sVecF 3 (lanes 32 [0x40700000, 0xBF800000, 0x7F800000, 0x40200000]) (fOF ||| fNX) 1
      && vw (.vsub false 3 1 2 0 0 false) sVecF 3 (lanes 32 [0xBF400000, 0xC0400000, 0, 0xBFC00000]) 0 1
      && vw (.vmin false 3 1 2 0 0 false) sVecF 3 (lanes 32 [0x3FC00000, 0xC0000000, 0x7F7FFFFF, 0x3F000000]) 0 1
      && vw (.vcmp false 3 1 2 0 0 false 2) sVecF 3 (lanes 32 [-1, -1, 0, -1]) 0 1
      && vw (.vcvt false 3 1 2 0 true 0) sVecF 3 (lanes 16 [0x3FC0, 0xC000, 0x7F7F, 0x3F00]) (fOF ||| fNX) 1
      && (let s := onMe sVecF (fun st => { st with sw := wd (2 ^ 7) })
          gives (.vadd false 3 1 2 0 0 false) s (({ s with x := { s.x with turns := 1 } } : State).trapAt true cFp (zx (fOF ||| fNX))))
      && (let s := onMe sVecF (fun st => { st with sw := wd (2 ^ 17) })
          s.x.me.lmode && gives (.vadd false 3 1 2 0 0 false) s (s.trapAt true cIllegal (zx s.x.w1)))) = true := by decide +kernel

/-- R276: the Newton steps and the special functions at exact points. -/
theorem test_vector_special :
    (let s := withV (mk []) [(1, lanes 32 [0x3F000000, 0x40800000]), (2, lanes 32 [0x40000000, 0x3E800000])]
     vw (.vrcpn false 3 1 2 0 0 false) s 3 (lanes 32 [0x3F000000, 0x40800000, 0, 0, 0, 0, 0, 0]) 0 1
      && nexts (.vrcp false 3 1 0 0) s (fun t => (t.x.me.vreg 3).toNat % 2 ^ 64 == lanes 32 [0x40000000, 0x3E800000])
      && nexts (.vrsq false 3 1 0 0) s (fun t => (t.x.me.vreg 3).toNat / 2 ^ 32 % 2 ^ 32 == 0x3F000000)
      && nexts (.vexp2 false 3 1 0 0) s (fun t => (t.x.me.vreg 3).toNat / 2 ^ 32 % 2 ^ 32 == 0x41800000)
      && nexts (.vlog2 false 3 1 0 0) s (fun t => (t.x.me.vreg 3).toNat % 2 ^ 64 == lanes 32 [0xBF800000, 0x40000000])) = true := by
  decide +kernel

/-- R266, R273, R274: packing, unpacking, scaling and distances of bf16 and i8. -/
theorem test_vector_pack :
    (let s := withV (mk []) [(1, lanes 32 [0x3FC00000, 0x40000000]), (2, lanes 32 [0x3F800000]), (3, 0), (4, lanes 8 [127, 127, 128])]
     nexts (.vpack false 3 1 2 0 0 false 2) s (fun t => (t.x.me.vreg 3).toNat % 2 ^ 32 == lanes 16 [0x3FC0, 0x4000]
        && (t.x.me.vreg 3).toNat / 2 ^ 128 % 2 ^ 16 == 0x3F80)
      && nexts (.vunpack false 3 5 false 0 0 2) (withV s [(5, lanes 16 [0x3FC0, 0x4000])]) (fun t => (t.x.me.vreg 3).toNat == lanes 32 [0x3FC00000, 0x40000000])
      && nexts (.vdotL2 false 3 1 2 0 0 false) s (fun t => (t.x.me.vreg 3).toNat == 0x40880000)
      && nexts (.vdotIp false 3 1 2 0 0 false) s (fun t => (t.x.me.vreg 3).toNat == 0x3FC00000)) = true := by decide +kernel

/-! ### Short loads and stores, streams -/

/-- R263, R265: VLD and VST of the short class. -/
theorem test_short_accesses :
    (let s := withV (mkM [(6, 0x100)] [(0x100, 7), (0x138, 9)]) [(2, lanes 64 [1, 2, 3, 4])]
     localAccess s 0x100 32 needR 0x100 && localAccess s 0x100 32 needW 0x100
      && nexts (.vldV 1 6 0) s (fun t => t.x.me.vreg 1 == 7 && t.x.me.vreg 2 == s.x.me.vreg 2 && t.x.me.pc == 0x2001 && t.x.me.sw.getLsbD 16)
      && nexts (.vldV 1 6 1) s (fun t => (t.x.me.vreg 1).toNat == 9 * 2 ^ 192)
      && nexts (.vstV 2 6 0) s (fun t => memRead t.mem 0x100 32 == lanes 64 [1, 2, 3, 4] && t.mem.wf && t.x.me.pc == 0x2001
          && memRead t.mem 0x138 8 == 9 && decide (t.x.me.g = s.x.me.g) && decide (t.tiles = s.tiles))
      && (let w := onMe s (fun st => { st with sw := wd (2 ^ 17) })
          gives (.vldV 1 6 0) w w.illegalC && gives (.vstV 1 6 0) w w.illegalC && gives (.vldW 1 6 0) s s.illegalC && gives (.vstW 1 6 0) s s.illegalC)) = true := by
  decide +kernel

/-- The strand has stream 1, of 256 bytes of scratchpad, with n operands of 32 bytes ready, the first at slot 7. -/
def sStream (n : Nat) : State :=
  let s := onMe (mkM [(6, 0x100), (7, 0)] [(2 ^ 42 + 224, 10), (0x100, 0x20000), (0x108, 256)]) (fun st => { st with sw := wd (2 ^ 16) })
  let s := withV s [(1, 5)]
  { s with tiles := [(0, { tlb := pages, streams := [(1, { owner := some 1, base := 0x20000, len := 256, buf := [2 ^ 42], ready := n, rd := 7 })] })] }

/-- R261: a stream operand: taken, waited for, and refused where the stream is not the strand's. -/
theorem test_stream_operand :
    (let s := sStream 1
     nexts (.vadd false 3 1 1 2 7 true) s (fun t => t.x.me.vreg 3 == 15 && t.x.me.vreg 1 == 5 && t.x.me.pc == 0x2000
        && (t.stream 0 0 1).ready == 0 && (t.stream 0 0 1).rd == 0 && decide (t.mem = s.mem))
      && gives (.vadd false 3 1 1 2 7 true) (sStream 0) ((sStream 0).stall .stream)
      && gives (.vadd false 3 1 2 2 7 true) s (s.trapAt true cIllegal (zx s.x.w1))) = true := by decide +kernel

/-- R260, R262: SBIND of a ring, a malformed record, a stream already bound; SFREE. -/
theorem test_sbind :
    (let s := sStream 0
     let bad := { s with mem := memPut s.mem 0x108 (leBytes 4 255) }
     nexts (.sbind 2 6) s (fun t => decide (t.stream 0 0 2 = { owner := some 1, base := 0x20000, len := 256, buf := [2 ^ 42] }) && t.x.me.pc == 0x2001)
      && traps (.sbind 2 6) bad cProt 0x100 && gives (.sbind 1 6) s s.illegalC && gives (.sbind 2 6) (mk [(6, 0x100)]) (mk [(6, 0x100)]).illegalC
      && nexts (.sfree 1) s (fun t => decide (t.stream 0 0 1 = {}) && t.x.me.pc == 0x2001) && gives (.sfree 2) s s.illegalC
      && gives .vclr s s.illegalC && gives .vmodeLong s s.illegalC) = true := by decide +kernel

/-! ### The long unit -/

/-- The strand owns the long unit of its core, with the fields given. -/
def sLong (u : LongUnit) : State :=
  let s := onMe (mkM [(5, 3), (6, 0x100), (7, 2)] [(0x100, 7), (0x1F8, 9)]) (fun st => { st with sw := wd (2 ^ 17) })
  { s with tiles := [(0, { tlb := pages, long := [(0, { u with owner := some 1 })] })] }
/-- Registers w1 and w2 with elements of i32. -/
def longRegs : Vector VLong 16 := ((Vector.replicate 16 0).setIfInBounds 1 (BitVec.ofNat 2048 (lanes 32 [5, -3]))).setIfInBounds 2 (BitVec.ofNat 2048 (lanes 32 [2, 5]))
/-- Sixteen entries. -/
def fullQueue : List SeqEntry := List.replicate 16 { idx := 0, item := { op := .vclr } }

/-- R251, R252, R254, R258: the modes. -/
theorem test_vector_modes :
    (let s := mk []
     let taken := { s with tiles := [(0, { tlb := pages, long := [(0, { owner := some 9 })] })] }
     let idle := sLong { pflags := 5 }
     let busy := sLong { q := [{ idx := 0, item := { op := .vclr } }] }
     nexts .vmodeLong s (fun t => t.x.me.lmode && t.x.me.pc == 0x2001 && decide (t.unit 0 0 = { owner := some 1 }))
      && nexts .vmodeLong taken (fun t => decide (t.x = (taken.park .longUnit).x) && decide (t.unit 0 0 = { owner := some 9, waiters := [1] }))
      && goes .vmodeLong idle 0x2001 && goes .vmodeShort s 0x2001 && goes .vsync s 0x2001
      && nexts .vsync idle (fun t => t.x.me.sw == wd (2 ^ 17 + 5) && decide (t.unit 0 0 = { owner := some 1 }) && t.x.me.pc == 0x2001)
      && nexts .vmodeShort idle (fun t => t.x.me.sw == 5 && decide (t.unit 0 0 = {})) && waits .vsync busy .seq && waits .vmodeShort busy .seq
      && (let h := onMe s (fun st => { st with sw := wd (2 ^ 23) }); gives .vmodeLong h h.illegalC)
      && nexts .vclr (withV s [(3, 7)]) (fun t => t.x.me.vreg 3 == 0 && !t.x.me.sw.getLsbD 16 && t.x.me.pc == 0x2001)) = true := by decide +kernel

/-- R251: the unit goes to the first that waits. -/
theorem test_long_unit_grant :
    (let s := { mk [] with tiles := [(0, { tlb := pages, long := [(0, { waiters := [1, 7], pflags := 3 })] })], strands := [{ me with wait := some .longUnit }] }
     s.moves { me with wait := some .longUnit } && nexts .longUnitGrant s (fun t => decide (t.unit 0 0 = { owner := some 1, waiters := [7] })
        && (t.strandOf 1).any (fun st => decide (st = { me with pc := 0x2001, sw := wd (2 ^ 17) })))) = true := by decide +kernel

/-- R255, R256: a long instruction joins the queue, or waits for room in it; the accesses are translated first. -/
theorem test_long_queue :
    (let s := sLong { next := 15 }
     let f := sLong { q := fullQueue }
     nexts (.vadd true 3 1 2 2 7 false) s (fun t => decide ((t.unit 0 0).q = [{ idx := 15, item := queuedItem s (.vadd true 3 1 2 2 7 false) 0 [] }])
        && (t.unit 0 0).next == 0 && decide (t.x = s.x))
      && nexts (.vbcast true 3 5 2 7) s (fun t => (t.unit 0 0).q.map (·.item.scalar) == [3])
      && gives (.vadd true 3 1 2 2 7 false) f (f.stall .seq) && gives (.vadd true 3 1 2 2 7 false) (mk []) ((mk []).trapAt true cIllegal (zx (mk []).x.w1))
      && mapsTo s 0x100 needR 0x100 && mapsTo s 0x100 needW 0x100
      && nexts (.vldW 3 6 0) s (fun t => (t.unit 0 0).q.map (·.item.pas) == [(List.range 32).map (fun j => 0x100 + 8 * j)] && t.x.me.pc == 0x2001)
      && nexts (.vstW 3 6 0) s (fun t => (t.unit 0 0).q.length == 1 && t.x.me.pc == 0x2001) && gives (.vldW 3 6 0) f (f.stall .seq)
      && gives (.vext true 5 1 7 2 7) f (f.stall .seq)) = true := by decide +kernel

/-- R258, R259: VEXT of the long class reports, and reads element 1 of w1; a deferred exception is raised. -/
theorem test_long_vext :
    (let s := sLong { w := longRegs, pflags := 4 }
     let d := sLong { w := longRegs, deferred := some (3, 1, 0x10000) }
     s.seqIdle && nexts (.vext true 5 1 7 2 7) (onMe s (fun st => { st with g := st.g.setIfInBounds 7 1 })) (fun t => t.x.me.gr 5 == wd (2 ^ 64 - 3)
        && t.x.me.sw == wd (2 ^ 17 + 4) && (t.unit 0 0).pflags == 0)
      && d.seqIdle && nexts (.vext true 5 1 7 2 7) d (fun t => t.x.trap == some { cause := cVectorDeferred, val := wd (3 * 2 ^ 60 + 2 ^ 56 + 0x10000) })) = true := by
  decide +kernel

/-- R257: VLOOP repeats what was queued; too few, or one that may not be repeated, is ILLEGAL. -/
theorem test_vloop :
    (let x : SeqItem := { op := .vadd true 3 3 2 2 7 false }
     let s := sLong { hist := [x, x] }
     let l := sLong { hist := [{ op := .vloop 1 1 }] }
     s.aQueues == none && nexts (.vloop 5 1) s (fun t => (t.unit 0 0).q.map (fun e => (e.body, e.count)) == [([x, x], 3)] && t.x.me.pc == 0x2001)
      && nexts (.vloopLong 0 0xFFFFFFFF) s (fun t => (t.unit 0 0).q.map (fun e => (e.body, e.count)) == [([x], 0xFFFFFFFF)])
      && gives (.vloop 5 2) s s.illegalC && gives (.vloop 5 0) l l.illegalC && gives (.vloop 5 0) (mk []) (mk []).illegalC) = true := by decide +kernel

/-- R255, R258, R259, R263: the sequencer's first entry: arithmetic, a load, a store, and a pass of a loop. -/
theorem test_sequencer :
    (let add : SeqItem := { op := .vadd true 3 1 2 2 7 false }
     let fp : SeqItem := { op := .vadd true 3 1 1 0 0 false, sw := wd (2 ^ 5), bundle := 0x10000 }
     let run (q : List SeqEntry) (f : State → Bool) : Bool := nexts .sequencerEntry (sLong { q := q, w := longRegs }) f
     let pas := (List.range 32).map (fun j => 0x100 + 8 * j)
     run [{ idx := 2, item := add }] (fun t => ((t.unit 0 0).w.toArray.getD 3 0).toNat == lanes 32 [7, 2] && (t.unit 0 0).q == []
        && decide ((t.unit 0 0).deferred = none))
      && nexts .sequencerEntry (sLong { q := [{ idx := 2, item := fp }], w := longRegs.setIfInBounds 1 0x7F800001 }) (fun t =>
          (t.unit 0 0).pflags == fNV && decide ((t.unit 0 0).deferred = some (2, 1, 0x10000)))
      && run [{ idx := 0, item := { op := .vldW 3 6 0, pas := pas } }] (fun t => ((t.unit 0 0).w.toArray.getD 3 0).toNat == 7 + 9 * 2 ^ 1984)
      && run [{ idx := 0, item := { op := .vstW 1 6 0, pas := pas } }] (fun t => memRead t.mem 0x100 256 == lanes 32 [5, -3] && t.mem.wf)
      && run [{ idx := 0, item := { op := .vloop 5 0 }, body := [add, add], count := 2 }] (fun t => (t.unit 0 0).q.map (fun e => (e.pos, e.count)) == [(1, 2)])
      && run [{ idx := 0, item := { op := .vloop 5 0 }, body := [add], count := 1 }] (fun t => (t.unit 0 0).q == []
          && ((t.unit 0 0).w.toArray.getD 3 0).toNat == lanes 32 [7, 2])
      && run [{ idx := 0, item := { op := .vloop 5 0 }, body := [add], count := 0 }] (fun t => (t.unit 0 0).q == [])) = true := by decide +kernel

end Sys2Proof.Tests
end

section
/-! Where a bundle goes next: branches, jumps to a byte address, compare-skips and the two NOPs (R57 to R59, R62, R169, R173). -/

namespace Sys2Proof.Machine

open Sys2Proof

/-! ### Numbers of the next bundle -/

/-- A register moved by a sign-extended offset is its number plus the offset, modulo its width (R57). -/
theorem add_signExtend_eq_ofInt {m n : Nat} (x : BitVec n) (o : BitVec m) (h : m ≤ n) :
    x + o.signExtend n = BitVec.ofInt n (x.toNat + o.toInt) := by
  have ho : o.signExtend n = BitVec.ofInt n o.toInt := by
    rw [← BitVec.toInt_signExtend_of_le h, BitVec.ofInt_toInt]
  rw [ho, BitVec.ofInt_add, BitVec.ofInt_natCast, BitVec.ofNat_toNat, BitVec.setWidth_eq]

/-- The bundle after k annulled ones (R59). -/
theorem add_one_add_setWidth_eq_ofInt (pc : BitVec 53) (k : BitVec 2) :
    pc + 1 + k.setWidth 53 = BitVec.ofInt 53 (pc.toNat + (1 + k.toNat)) := by
  have hn : ((pc.toNat : Int) + (1 + k.toNat)) = ((pc.toNat + 1 + k.toNat : Nat) : Int) := by omega
  apply BitVec.eq_of_toNat_eq
  rw [hn, BitVec.ofInt_natCast]
  simp

/-- The link in numbers: the byte address of the next bundle, modulo 2^56 (R43). -/
theorem Strand.linkByte_eq (st : Strand) : st.linkByte = wd ((st.pc.toNat + 1) % 2 ^ 53 * 8) := by
  have hpc : (st.pc + 1).toNat = (st.pc.toNat + 1) % 2 ^ 53 := BitVec.toNat_add _ _
  apply BitVec.eq_of_toNat_eq
  simp only [Strand.linkByte, zx, wd, BitVec.toNat_shiftLeft, BitVec.toNat_setWidth, BitVec.toNat_ofNat, hpc,
    Nat.shiftLeft_eq]
  omega

/-! ### Conditions (R58) -/

/-- Two words have a bit in common. -/
theorem and_ne_zero_iff_common_bit (a b : Word) :
    a &&& b ≠ 0 ↔ ∃ i, i < 64 ∧ a.getLsbD i = true ∧ b.getLsbD i = true := by
  constructor
  · intro h
    by_contra hno
    refine h (BitVec.eq_of_getLsbD_eq fun i hi => ?_)
    rw [BitVec.getLsbD_and]
    simpa using fun ha hb => hno ⟨i, hi, ha, hb⟩
  · rintro ⟨i, -, ha, hb⟩ h
    have hi : (a &&& b).getLsbD i = true := by rw [BitVec.getLsbD_and, ha, hb]; rfl
    rw [h] at hi
    simp at hi

/-- Two words have no bit in common. -/
theorem and_eq_zero_iff_no_common_bit (a b : Word) :
    a &&& b = 0 ↔ ∀ i, i < 64 → ¬ (a.getLsbD i = true ∧ b.getLsbD i = true) := by
  have hno := not_congr (and_ne_zero_iff_common_bit a b)
  rw [not_not] at hno
  rw [hno]
  simp only [not_exists, not_and]

/-- The condition that a bundle tests is the one of R58, in numbers. -/
theorem cond_iff_holds (c : BitVec 3) (a b : Word) : cond c a b = true ↔ Holds c a b := by
  unfold cond Holds
  generalize c.toNat = n
  match n with
  | 0 => exact (beq_iff_eq : (a == b) = true ↔ a = b)
  | 1 => exact (bne_iff_ne : (a != b) = true ↔ a ≠ b)
  | 2 => exact (BitVec.slt_iff_toInt_lt : BitVec.slt a b = true ↔ a.toInt < b.toInt)
  | 3 =>
    have h : (!BitVec.slt a b) = true ↔ b.toInt ≤ a.toInt := by
      rw [Bool.not_eq_true', ← Bool.not_eq_true, BitVec.slt_iff_toInt_lt, not_lt]
    exact h
  | 4 => exact (BitVec.ult_iff_lt : BitVec.ult a b = true ↔ a < b)
  | 5 =>
    have h : (!BitVec.ult a b) = true ↔ b.toNat ≤ a.toNat := by
      rw [Bool.not_eq_true', ← Bool.not_eq_true, BitVec.ult_iff_lt, BitVec.lt_def, not_lt]
    exact h
  | 6 => exact (bne_iff_ne : (a &&& b != 0) = true ↔ a &&& b ≠ 0).trans (and_ne_zero_iff_common_bit a b)
  | _ + 7 => exact (beq_iff_eq : (a &&& b == 0) = true ↔ a &&& b = 0).trans (and_eq_zero_iff_no_common_bit a b)

/-! ### The end of a C-slot instruction (R173) -/

/-- A context that has written a register and jumped is complete, with that register's bank. -/
theorem Strand.jump_setG (st : Strand) (d : RegNo) (v : Word) (pc : BitVec 53) :
    (st.setG d v).jump pc = st.done (st.setG d v).g pc := by
  unfold Strand.setG; split <;> rfl

/-- An instruction that answers a jump of the issuing context, and no more, changes PC alone. -/
theorem goes_of_jump {i : Instr} {s : State} {pc : BitVec 53} (h : exec i s = .next (s.upd (fun st => st.jump pc))) :
    Goes i s pc := h

/-- An instruction that answers a link and a jump writes the link and PC. -/
theorem links_of_link_jump {i : Instr} {s : State} {d : RegNo} {pc : BitVec 53}
    (h : exec i s = .next ((s.link d).upd (fun st => st.jump pc))) :
    Links i s d (wd ((s.x.me.pc.toNat + 1) % 2 ^ 53 * 8)) pc := by
  rw [← Strand.linkByte_eq]
  refine ⟨_, h, RegSet.setG s.x.me d _, ?_, fun _ => rfl⟩
  exact congrArg (fun st => { s with x := { s.x with me := st } }) (Strand.jump_setG s.x.me d _ pc)

/-! ### Branches by an offset (R57, R169) -/

/-- A branch goes to PC plus its offset. -/
theorem State.branch_eq {n : Nat} (s : State) (o : BitVec n) (h : n ≤ 53) :
    s.branch o = s.upd (fun st => st.jump (BitVec.ofInt 53 (s.x.me.pc.toNat + o.toInt))) := by
  rw [← add_signExtend_eq_ofInt _ _ h]; rfl

/-- A branch that links goes to the same bundle: the link does not move PC. -/
theorem State.link_branch_eq {n : Nat} (s : State) (d : RegNo) (o : BitVec n) (h : n ≤ 53) :
    (s.link d).branch o = (s.link d).upd (fun st => st.jump (BitVec.ofInt 53 (s.x.me.pc.toNat + o.toInt))) := by
  have hpc : (s.link d).x.me.pc = s.x.me.pc := Strand.setG_pc _ _ _
  rw [State.branch_eq _ _ h, hpc]

/-- A kept skip goes on with the next bundle. -/
theorem State.skip_keep (s : State) (k : BitVec 2) : s.skip k true = s.upd (fun st => st.jump (s.x.me.pc + 1)) := rfl

/-- An annulling skip goes past the k bundles. -/
theorem State.skip_annul (s : State) (k : BitVec 2) :
    s.skip k false = s.upd (fun st => st.jump (BitVec.ofInt 53 (s.x.me.pc.toNat + (1 + k.toNat)))) := by
  rw [← add_one_add_setWidth_eq_ofInt]; rfl

/-! ### Jumps to a byte address (R57, R169) -/

/-- A misaligned target is ALIGN. -/
theorem State.jumpTo_misaligned {s : State} {t : Word} {k : State → State} (h : t.toNat % 8 ≠ 0) :
    s.jumpTo t k = s.trapC cAlign t := by
  unfold State.jumpTo; rw [if_pos (by simpa using h)]

/-- An aligned target is beyond the address space where any of its bits [63:56] is 1. -/
theorem nfield_56_8_ne_zero_iff (t : Word) : nfield t.toNat 56 8 ≠ 0 ↔ 2 ^ 56 ≤ t.toNat := by
  have ht := t.isLt
  unfold nfield
  omega

/-- An aligned target beyond the address space is XLATE. -/
theorem State.jumpTo_beyond {s : State} {t : Word} {k : State → State} (ha : t.toNat % 8 = 0) (h : 2 ^ 56 ≤ t.toNat) :
    s.jumpTo t k = s.trapC cXlate t := by
  have hx := (nfield_56_8_ne_zero_iff t).mpr h
  unfold State.jumpTo; rw [if_neg (by simpa using ha), if_pos (by simpa using hx)]

/-- Any other target is jumped to. -/
theorem State.jumpTo_inside {s : State} {t : Word} {k : State → State} (ha : t.toNat % 8 = 0) (h : t.toNat < 2 ^ 56) :
    s.jumpTo t k = (k s).upd (fun st => st.jump (BitVec.ofNat 53 (t.toNat / 8))) := by
  have hx : ¬ nfield t.toNat 56 8 ≠ 0 := by rw [nfield_56_8_ne_zero_iff]; omega
  unfold State.jumpTo; rw [if_neg (by simpa using ha), if_neg (by simpa using hx)]

/-- The three outcomes of an instruction that jumps to a byte address, for whatever its success amounts to. -/
theorem jump_outcomes {i : Instr} {s : State} {t : Word} {k : State → State} {ok : Prop}
    (hi : exec i s = .next (s.jumpTo t k))
    (hok : exec i s = .next ((k s).upd (fun st => st.jump (BitVec.ofNat 53 (t.toNat / 8)))) → ok) :
    (t.toNat % 8 ≠ 0 → exec i s = .next (s.trapC cAlign t))
      ∧ (t.toNat % 8 = 0 → 2 ^ 56 ≤ t.toNat → exec i s = .next (s.trapC cXlate t))
      ∧ (t.toNat % 8 = 0 → t.toNat < 2 ^ 56 → ok) := by
  refine ⟨fun h => ?_, fun ha h => ?_, fun ha h => hok ?_⟩
  · rw [hi, State.jumpTo_misaligned h]
  · rw [hi, State.jumpTo_beyond ha h]
  · rw [hi, State.jumpTo_inside ha h]

/-! ### The instructions -/

theorem nopC_goes (s : State) : Goes .nopC s (s.x.me.pc + 1) := goes_of_jump rfl

theorem exec_nopA (s : State) : exec .nopA s = .next s := rfl

theorem exec_br (o : BitVec 25) (s : State) : exec (.br o) s = .next (s.branch o) := rfl

theorem exec_brLong (o : W32) (s : State) : exec (.brLong o) s = .next (s.branch o) := rfl

theorem exec_call (o : BitVec 25) (s : State) : exec (.call o) s = .next ((s.link 15).branch o) := rfl

theorem exec_calll (o : W32) (s : State) : exec (.calll o) s = .next ((s.link 15).branch o) := rfl

theorem exec_brc (a b : RegNo) (c : BitVec 3) (o : BitVec 14) (s : State) :
    exec (.brc a b c o) s = if cond c (s.g a) (s.g b) then .next (s.branch o) else .next s.adv := rfl

theorem exec_cmps (a b : RegNo) (c : BitVec 3) (k : BitVec 2) (s : State) :
    exec (.cmps a b c k) s = .next (s.skip k (cond c (s.g a) (s.g b))) := rfl

theorem exec_cmpsi (a : RegNo) (c : BitVec 3) (k : BitVec 2) (i : BitVec 12) (s : State) :
    exec (.cmpsi a c k i) s = .next (s.skip k (cond c (s.g a) (sx i))) := rfl

theorem exec_jr (a : RegNo) (s : State) : exec (.jr a) s = .next (s.jumpTo (s.g a) id) := rfl

theorem exec_ret (s : State) : exec .ret s = .next (s.jumpTo (s.g 15) id) := rfl

theorem exec_brl (d a : RegNo) (i : BitVec 17) (s : State) :
    exec (.brl d a i) s = .next (s.jumpTo (s.g a + sx i) (fun s => s.link d)) := rfl

/-- A conditional branch is taken where its condition holds. -/
theorem brc_goes_of_holds {c : BitVec 3} {a b : RegNo} {s : State} (o : BitVec 14) (h : Holds c (s.g a) (s.g b)) :
    Goes (.brc a b c o) s (BitVec.ofInt 53 (s.x.me.pc.toNat + o.toInt)) :=
  goes_of_jump (by rw [exec_brc, if_pos ((cond_iff_holds _ _ _).mpr h), State.branch_eq _ _ (by decide)])

/-- It falls through where its condition fails. -/
theorem brc_goes_of_not_holds {c : BitVec 3} {a b : RegNo} {s : State} (o : BitVec 14) (h : ¬ Holds c (s.g a) (s.g b)) :
    Goes (.brc a b c o) s (s.x.me.pc + 1) :=
  goes_of_jump (by rw [exec_brc, if_neg (mt (cond_iff_holds _ _ _).mp h)]; rfl)

/-- An instruction that skips on a condition goes on with the next bundle where the condition holds. -/
theorem skip_goes_of_holds {i : Instr} {s : State} {k : BitVec 2} {c : BitVec 3} {x y : Word}
    (hi : exec i s = .next (s.skip k (cond c x y))) (h : Holds c x y) : Goes i s (s.x.me.pc + 1) :=
  goes_of_jump (by rw [hi, (cond_iff_holds _ _ _).mpr h, State.skip_keep])

/-- It annuls k bundles where the condition fails. -/
theorem skip_goes_of_not_holds {i : Instr} {s : State} {k : BitVec 2} {c : BitVec 3} {x y : Word}
    (hi : exec i s = .next (s.skip k (cond c x y))) (h : ¬ Holds c x y) :
    Goes i s (BitVec.ofInt 53 (s.x.me.pc.toNat + (1 + k.toNat))) := by
  have hc : cond c x y = false := Bool.eq_false_iff.mpr (mt (cond_iff_holds _ _ _).mp h)
  exact goes_of_jump (by rw [hi, hc, State.skip_annul])

end Sys2Proof.Machine

namespace Sys2Proof

open Sys2Proof.Machine

/-- Every branch by an offset, every skip and both NOPs. -/
theorem branchesAndSkips : BranchesAndSkips := by
  intro s a b c k o14 o25 o32 i12
  refine ⟨nopC_goes s, exec_nopA s, ?br, ?brLong, ?call, ?calll, fun h => ?taken, fun h => ?fails, ?keeps, ?annuls⟩
  case br => exact goes_of_jump (by rw [exec_br, State.branch_eq _ _ (by decide)])
  case brLong => exact goes_of_jump (by rw [exec_brLong, State.branch_eq _ _ (by decide)])
  case call => exact links_of_link_jump (by rw [exec_call, State.link_branch_eq _ _ _ (by decide)])
  case calll => exact links_of_link_jump (by rw [exec_calll, State.link_branch_eq _ _ _ (by decide)])
  case taken => exact ⟨brc_goes_of_holds o14 h, skip_goes_of_holds (exec_cmps a b c k s) h⟩
  case fails => exact ⟨brc_goes_of_not_holds o14 h, skip_goes_of_not_holds (exec_cmps a b c k s) h⟩
  case keeps => exact skip_goes_of_holds (exec_cmpsi a c k i12 s)
  case annuls => exact skip_goes_of_not_holds (exec_cmpsi a c k i12 s)

/-- Every jump to a byte address. -/
theorem jumpsToByteAddresses : JumpsToByteAddresses := by
  intro s d a i t
  refine ⟨?jr, ?ret, ?brl⟩
  case jr => rintro rfl; exact jump_outcomes (exec_jr a s) goes_of_jump
  case ret => rintro rfl; exact jump_outcomes (exec_ret s) goes_of_jump
  case brl => rintro rfl; exact jump_outcomes (exec_brl d a i s) links_of_link_jump

/-- Settles O7: the branches and skips by an offset, and the jumps to a byte address. -/
theorem controlTransfers : Obligations.ControlTransfers := ⟨branchesAndSkips, jumpsToByteAddresses⟩

end Sys2Proof
end

section
/-! The words that the integer instructions compute, in numbers and bit by bit (R155 to R159, R168). -/

namespace Sys2Proof.Machine

open Sys2Proof

/-! ### Words and numbers -/

/-- A word is the word of its own number. -/
theorem wd_toNat (a : Word) : wd a.toNat = a := by
  unfold wd; rw [BitVec.ofNat_toNat, BitVec.setWidth_eq]

/-- A sign-extended immediate is the word of its signed number (R12). -/
theorem sx_eq_ofInt {n : Nat} (i : BitVec n) (h : n ≤ 64) : sx i = BitVec.ofInt 64 i.toInt := by
  rw [← BitVec.toInt_signExtend_of_le h, BitVec.ofInt_toInt]; rfl

/-- A bit of the word of a number. -/
theorem getLsbD_wd {i : Nat} (n : Nat) (hi : i < 64) : (wd n).getLsbD i = n.testBit i := by
  rw [wd, BitVec.getLsbD_ofNat, decide_eq_true hi, Bool.true_and]

/-- A bit of a word after one bit has been set or cleared. -/
theorem getLsbD_setBit {j : Nat} (v : Word) (i : Nat) (b : Bool) (hj : j < 64) :
    (setBit v i b).getLsbD j = if j = i then b else v.getLsbD j := by
  have hbit : (BitVec.ofNat 64 (2 ^ i)).getLsbD j = decide (j = i) := by
    rw [BitVec.getLsbD_ofNat, Nat.testBit_two_pow, decide_eq_true hj, Bool.true_and]; exact decide_eq_decide.mpr eq_comm
  cases b with
  | true =>
    rw [setBit, if_pos rfl, BitVec.getLsbD_or, hbit]
    by_cases h : j = i <;> simp [h]
  | false =>
    rw [setBit, if_neg (by decide), BitVec.getLsbD_and, BitVec.getLsbD_not, hbit]
    by_cases h : j = i <;> simp [h, hj]

/-- A bit of a word after a field has been replaced. -/
theorem getLsbD_setField {i : Nat} (v : Word) (lo n f : Nat) (hi : i < 64) :
    (setField v lo n f).getLsbD i = if lo ≤ i ∧ i < lo + n then f.testBit (i - lo) else v.getLsbD i := by
  simp only [setField, BitVec.getLsbD_or, BitVec.getLsbD_and, BitVec.getLsbD_not, BitVec.getLsbD_ofNat,
    Nat.testBit_mul_two_pow, Nat.testBit_two_pow_sub_one, Nat.testBit_mod_two_pow, hi]
  by_cases hlo : lo ≤ i
  · have hn : i - lo < n ↔ i < lo + n := by omega
    by_cases h : i < lo + n <;> simp [hlo, hn, h]
  · simp [hlo]

/-- The low n + 1 bits of a word are its low n bits and bit n. -/
theorem toNat_mod_two_pow_succ (x : Word) (n : Nat) :
    x.toNat % 2 ^ (n + 1) = x.toNat % 2 ^ n + 2 ^ n * (wbit x n).toNat := by
  rw [Nat.mod_pow_succ, wbit, ← BitVec.testBit_toNat, Nat.toNat_testBit]

/-! ### Sums, differences and products -/

theorem sub_eq_ofInt (a b : Word) : a - b = BitVec.ofInt 64 (a.toInt - b.toInt) :=
  BitVec.eq_of_toInt_eq (by rw [BitVec.toInt_sub, BitVec.toInt_ofInt])

theorem add_eq_wd (a b : Word) : a + b = wd (a.toNat + b.toNat) := by
  rw [wd, BitVec.ofNat_add, ← wd, ← wd, wd_toNat, wd_toNat]

theorem mul_eq_wd (a b : Word) : a * b = wd (a.toNat * b.toNat) := by
  rw [wd, BitVec.ofNat_mul, ← wd, ← wd, wd_toNat, wd_toNat]

/-- A register plus a sign-extended immediate. -/
theorem add_sx_eq_ofInt {n : Nat} (a : Word) (i : BitVec n) (h : n ≤ 64) :
    a + sx i = BitVec.ofInt 64 (a.toInt + i.toInt) := by
  rw [BitVec.ofInt_add, BitVec.ofInt_toInt, sx_eq_ofInt i h]

/-- The high half of a signed product: bits [127:64] are those of the quotient by 2^64, whatever lies above them. -/
theorem mulHigh_signExtend (a b : Word) :
    mulHigh (a.signExtend 128) (b.signExtend 128) = BitVec.ofInt 64 (a.toInt * b.toInt / 2 ^ 64) := by
  have hx : ∀ x : Word, x.signExtend 128 = BitVec.ofInt 128 x.toInt := fun x => by
    rw [← BitVec.toInt_signExtend_of_le (by decide : 64 ≤ 128), BitVec.ofInt_toInt]
  rw [mulHigh, hx, hx, ← BitVec.ofInt_mul]
  apply BitVec.eq_of_toNat_eq
  rw [BitVec.toNat_setWidth, BitVec.toNat_ushiftRight, BitVec.toNat_ofInt, BitVec.toNat_ofInt, Nat.shiftRight_eq_div_pow]
  generalize a.toInt * b.toInt = p
  omega

/-- The high half of an unsigned product. -/
theorem mulHigh_setWidth (a b : Word) : mulHigh (a.setWidth 128) (b.setWidth 128) = wd (a.toNat * b.toNat / 2 ^ 64) := by
  have hp : a.toNat * b.toNat < 2 ^ 128 :=
    show _ < 2 ^ 64 * 2 ^ 64 from Nat.mul_lt_mul'' a.isLt b.isLt
  rw [mulHigh, ← BitVec.ofNat_toNat, ← BitVec.ofNat_toNat 128 a, ← BitVec.ofNat_toNat 128 b, ← BitVec.ofNat_mul,
    BitVec.toNat_ushiftRight, BitVec.toNat_ofNat, Nat.mod_eq_of_lt hp, Nat.shiftRight_eq_div_pow, wd]

/-! ### Shifts and rotation -/

theorem shiftLeft_eq_wd (a : Word) (n : Nat) : a <<< n = wd (a.toNat * 2 ^ n) :=
  BitVec.eq_of_toNat_eq (by rw [BitVec.toNat_shiftLeft, Nat.shiftLeft_eq]; rfl)

theorem ushiftRight_eq_wd (a : Word) (n : Nat) : a >>> n = wd (a.toNat / 2 ^ n) := by
  rw [← Nat.shiftRight_eq_div_pow, ← BitVec.toNat_ushiftRight, wd_toNat]

theorem sshiftRight_eq_ofInt (a : Word) (n : Nat) : a.sshiftRight n = BitVec.ofInt 64 (a.toInt / 2 ^ n) := by
  have h := Int.shiftRight_eq_div_pow a.toInt n
  rw [Nat.cast_pow, Nat.cast_ofNat] at h
  rw [← h, ← BitVec.toInt_sshiftRight, BitVec.ofInt_toInt]

/-- A rotation joins the bits shifted left with those that left at the top: they have no bit in common, so they add. -/
theorem rotateLeft_eq_wd (a : Word) {n : Nat} (h : n < 64) :
    a.rotateLeft n = wd (a.toNat * 2 ^ n + a.toNat / 2 ^ (64 - n)) := by
  have hlow : a.toNat / 2 ^ (64 - n) < 2 ^ n := by
    rw [Nat.div_lt_iff_lt_mul (Nat.two_pow_pos _), ← Nat.pow_add, show n + (64 - n) = 64 by omega]
    exact a.isLt
  have hor : a.toNat * 2 ^ n + a.toNat / 2 ^ (64 - n) = (a.toNat <<< n) ||| (a.toNat >>> (64 - n)) := by
    rw [Nat.shiftRight_eq_div_pow, ← Nat.shiftLeft_add_eq_or_of_lt hlow, Nat.shiftLeft_eq]
  apply BitVec.eq_of_toNat_eq
  rw [hor, BitVec.rotateLeft_eq_rotateLeftAux_of_lt h, BitVec.rotateLeftAux, wd, BitVec.toNat_or, BitVec.toNat_shiftLeft,
    BitVec.toNat_ushiftRight, BitVec.toNat_ofNat, Nat.or_mod_two_pow]
  congr 1
  rw [Nat.shiftRight_eq_div_pow, Nat.mod_eq_of_lt (lt_of_le_of_lt (Nat.div_le_self _ _) a.isLt)]

/-! ### The lesser and the greater -/

theorem ite_slt_eq_min (a b : Word) : (if b.slt a then b else a) = BitVec.ofInt 64 (min a.toInt b.toInt) := by
  by_cases h : b.toInt < a.toInt
  · rw [if_pos (BitVec.slt_iff_toInt_lt.mpr h), min_eq_right h.le, BitVec.ofInt_toInt]
  · rw [if_neg (mt BitVec.slt_iff_toInt_lt.mp h), min_eq_left (not_lt.mp h), BitVec.ofInt_toInt]

theorem ite_slt_eq_max (a b : Word) : (if a.slt b then b else a) = BitVec.ofInt 64 (max a.toInt b.toInt) := by
  by_cases h : a.toInt < b.toInt
  · rw [if_pos (BitVec.slt_iff_toInt_lt.mpr h), max_eq_right h.le, BitVec.ofInt_toInt]
  · rw [if_neg (mt BitVec.slt_iff_toInt_lt.mp h), max_eq_left (not_lt.mp h), BitVec.ofInt_toInt]

theorem ite_ult_eq_min (a b : Word) : (if b.ult a then b else a) = wd (min a.toNat b.toNat) := by
  by_cases h : b.toNat < a.toNat
  · rw [if_pos (BitVec.ult_iff_lt.mpr h), min_eq_right h.le, wd_toNat]
  · rw [if_neg (mt BitVec.ult_iff_lt.mp h), min_eq_left (not_lt.mp h), wd_toNat]

theorem ite_ult_eq_max (a b : Word) : (if a.ult b then b else a) = wd (max a.toNat b.toNat) := by
  by_cases h : a.toNat < b.toNat
  · rw [if_pos (BitVec.ult_iff_lt.mpr h), max_eq_right h.le, wd_toNat]
  · rw [if_neg (mt BitVec.ult_iff_lt.mp h), max_eq_left (not_lt.mp h), wd_toNat]

/-- The word of a decided comparison. -/
theorem boolWord_decide (p : Prop) [Decidable p] : boolWord (decide p) = if p then 1 else 0 := by
  by_cases h : p <;> simp [boolWord, h]

/-! ### Counting bits -/

/-- Of the low n bits, all are leading zeros, or the count ends at the highest that is set. -/
theorem clzN_spec (x : Word) (n : Nat) :
    if x.toNat % 2 ^ n = 0 then clzN x n = n
    else clzN x n < n ∧ 2 ^ (n - 1 - clzN x n) ≤ x.toNat % 2 ^ n ∧ x.toNat % 2 ^ n < 2 ^ (n - clzN x n) := by
  induction n with
  | zero => simp [clzN, Nat.mod_one]
  | succ n ih =>
    have hlt : x.toNat % 2 ^ n < 2 ^ n := Nat.mod_lt _ (Nat.two_pow_pos n)
    rw [clzN, toNat_mod_two_pow_succ]
    generalize x.toNat % 2 ^ n = m at ih hlt
    cases wbit x n with
    | true =>
      rw [Bool.toNat_true, Nat.mul_one, if_neg (by omega), if_pos rfl, Nat.sub_zero, Nat.sub_zero, Nat.pow_succ]
      exact ⟨Nat.succ_pos n, Nat.le_add_left _ _, by omega⟩
    | false =>
      rw [Bool.toNat_false, Nat.mul_zero, Nat.add_zero, if_neg (by decide : ¬ false = true)]
      by_cases h0 : m = 0
      · rw [if_pos h0] at ih ⊢
        rw [ih, Nat.add_comm]
      · rw [if_neg h0] at ih ⊢
        have hlo : n + 1 - 1 - (1 + clzN x n) = n - 1 - clzN x n := by omega
        have hhi : n + 1 - (1 + clzN x n) = n - clzN x n := by omega
        rw [hlo, hhi]
        exact ⟨by omega, ih.2⟩

/-- CLZ of a word. -/
theorem clzN_64 (a : Word) :
    if a = 0 then clzN a 64 = 64
    else clzN a 64 ≤ 63 ∧ 2 ^ (63 - clzN a 64) ≤ a.toNat ∧ a.toNat < 2 ^ (64 - clzN a 64) := by
  have h := clzN_spec a 64
  rw [Nat.mod_eq_of_lt a.isLt] at h
  by_cases ha : a = 0
  · rw [if_pos ha]; rwa [if_pos (by rw [ha]; rfl)] at h
  · rw [if_neg (show ¬ a.toNat = 0 from fun h0 => ha (BitVec.eq_of_toNat_eq h0))] at h
    obtain ⟨hz, hlo, hhi⟩ := h
    rw [if_neg ha]
    exact ⟨Nat.le_of_lt_succ hz, hlo, hhi⟩

/-- With n bits still to be looked at and zeros below them, the word is 0, or the count ends at the lowest that is set. -/
theorem ctzN_spec (x : Word) (n : Nat) (hn : n ≤ 64) (hx : 2 ^ (64 - n) ∣ x.toNat) :
    if x = 0 then ctzN x n = n
    else 2 ^ (64 - n + ctzN x n) ∣ x.toNat ∧ ¬ 2 ^ (64 - n + ctzN x n + 1) ∣ x.toNat := by
  induction n with
  | zero =>
    have h0 : x = 0 := BitVec.eq_of_toNat_eq (Nat.eq_zero_of_dvd_of_lt hx x.isLt)
    rw [if_pos h0, ctzN]
  | succ n ih =>
    have he : 64 - n = 64 - (n + 1) + 1 := by omega
    have hbit : 2 ^ (64 - n) ∣ x.toNat ↔ wbit x (63 - n) = false := by
      have hs := toNat_mod_two_pow_succ x (64 - (n + 1))
      rw [Nat.dvd_iff_mod_eq_zero] at hx ⊢
      rw [he, hs, hx, Nat.zero_add, show 64 - (n + 1) = 63 - n by omega]
      cases wbit x (63 - n) <;> simp
    rw [ctzN]
    cases hb : wbit x (63 - n) with
    | true =>
      have hnd : ¬ 2 ^ (64 - n) ∣ x.toNat := by rw [hbit, hb]; decide
      have h0 : ¬ x = 0 := by rintro rfl; exact hnd (dvd_zero _)
      rw [if_neg h0, if_pos rfl, Nat.add_zero, ← he]
      exact ⟨hx, hnd⟩
    | false =>
      have h := ih (by omega) (hbit.mpr hb)
      rw [if_neg (by decide : ¬ false = true), Nat.add_comm 1, ← Nat.add_assoc, Nat.add_right_comm, ← he]
      split
      · next h0 => rw [if_pos h0] at h; rw [h]
      · next h0 => rwa [if_neg h0] at h

/-- CTZ of a word. -/
theorem ctzN_64 (a : Word) :
    if a = 0 then ctzN a 64 = 64 else 2 ^ ctzN a 64 ∣ a.toNat ∧ ¬ 2 ^ (ctzN a 64 + 1) ∣ a.toNat := by
  simpa only [Nat.sub_self, Nat.zero_add] using ctzN_spec a 64 le_rfl (one_dvd _)

/-- POPC counts the positions whose bit is set. -/
theorem popN_eq_length_filter (x : Word) (n : Nat) :
    popN x n = ((List.range n).filter (fun i => x.getLsbD i)).length := by
  induction n with
  | zero => rfl
  | succ n ih =>
    rw [popN, ih, List.range_succ, List.filter_append, List.length_append, Nat.add_comm]
    cases h : x.getLsbD n <;> simp [wbit, h]

/-! ### Division (R156) -/

theorem divS_eq (a b : Word) :
    divS a b = if b = 0 then BitVec.ofInt 64 (-1) else BitVec.ofInt 64 (a.toInt.tdiv b.toInt) := by
  have h : a.sdiv b = BitVec.ofInt 64 (a.toInt.tdiv b.toInt) :=
    BitVec.eq_of_toInt_eq (by rw [BitVec.toInt_sdiv, BitVec.toInt_ofInt])
  rw [divS, h]; rfl

theorem divU_eq (a b : Word) : divU a b = if b = 0 then BitVec.ofInt 64 (-1) else wd (a.toNat / b.toNat) := by
  rw [← BitVec.toNat_udiv, wd_toNat]; rfl

theorem remS_eq (a b : Word) : remS a b = if b = 0 then a else BitVec.ofInt 64 (a.toInt.tmod b.toInt) := by
  rw [← BitVec.toInt_srem, BitVec.ofInt_toInt]; rfl

theorem remU_eq (a b : Word) : remU a b = if b = 0 then a else wd (a.toNat % b.toNat) := by
  rw [← BitVec.toNat_umod, wd_toNat]; rfl

/-! ### Bit fields (R157, R168) -/

/-- A bit of an extracted field: the word's bit at the field's place, and 0 above the field. -/
theorem getLsbD_bitExtract {i : Nat} (a : Word) (l p : BitVec 6) (hi : i < 64) :
    (bitExtract a l p).getLsbD i = (decide (i < l.toNat + 1) && a.getLsbD (p.toNat + i)) := by
  rw [bitExtract, getLsbD_wd _ hi, nfield, Nat.testBit_mod_two_pow, Nat.testBit_div_two_pow, Nat.add_comm i]; rfl

/-- A bit of a word into which a field has been put. -/
theorem getLsbD_bitInsert {i : Nat} (old a : Word) (l p : BitVec 6) (hi : i < 64) :
    (bitInsert old a l p).getLsbD i =
      if p.toNat ≤ i ∧ i < p.toNat + (l.toNat + 1) then a.getLsbD (i - p.toNat) else old.getLsbD i :=
  getLsbD_setField old _ _ _ hi

/-- The upper half replaced, in numbers (R168). -/
theorem setField_upper_eq_wd (v : Word) (i : W32) : setField v 32 32 i.toNat = wd (v.toNat % 2 ^ 32 + i.toNat * 2 ^ 32) := by
  have hlow : v.toNat % 2 ^ 32 < 2 ^ 32 := Nat.mod_lt _ (by decide)
  refine BitVec.eq_of_getLsbD_eq fun j hj => ?_
  rw [getLsbD_setField _ _ _ _ hj, getLsbD_wd _ hj, Nat.add_comm (v.toNat % _), Nat.mul_comm, Nat.testBit_two_pow_mul_add _ hlow,
    Nat.testBit_mod_two_pow]
  by_cases h : j < 32
  · rw [if_neg (by omega), if_pos h, decide_eq_true h, Bool.true_and]; rfl
  · rw [if_pos (by omega), if_neg h]

end Sys2Proof.Machine
end

section
/-! The words of the A slot's integer formats, read field by field (R45, R67). -/

namespace Sys2Proof

open Sys2Proof.Machine

/-- A field reads x where the word has the bits of x at its place. -/
theorem fld_eq {n w lo : Nat} {x : BitVec n} (h : w / 2 ^ lo % 2 ^ n = x.toNat) : fld n w lo = x :=
  BitVec.eq_of_toNat_eq ((BitVec.toNat_ofNat _ _).trans h)

theorem accept_eq_ok {i : Instr} (h : i.wf = true) : accept i = .ok i := if_pos h

theorem accept_eq_error {i : Instr} (h : i.wf = false) : accept i = .error .illegalField := if_neg (by rw [h]; decide)

/-- Zero extension keeps the number (R12). -/
theorem toNat_zx {n : Nat} (x : BitVec n) (h : n ≤ 64) : (zx x).toNat = x.toNat := BitVec.toNat_setWidth_of_le h

/-- A word with a scalar major opcode is decoded by the scalar map. -/
theorem decodeA_eq_decS {w major : Nat} (h : w / 67108864 = major) (hm : major < 24) : decodeA w = decS w :=
  if_pos (by omega)

/-! ### AR format -/

section
variable {f : Nat} (major : Nat) (d a b : RegNo)

@[simp] theorem arWord_major (hf : f < 2 ^ 14) : arWord major d a b f / 67108864 = major := by unfold arWord; omega

@[simp] theorem decodeA_arWord (hm : major < 24) (hf : f < 2 ^ 14) :
    decodeA (arWord major d a b f) = decS (arWord major d a b f) :=
  decodeA_eq_decS (arWord_major major d a b hf) hm

@[simp] theorem fld_arWord_d (hf : f < 2 ^ 14) : fld 4 (arWord major d a b f) 22 = d := fld_eq (by unfold arWord; omega)

@[simp] theorem fld_arWord_a (hf : f < 2 ^ 14) : fld 4 (arWord major d a b f) 18 = a := fld_eq (by unfold arWord; omega)

@[simp] theorem fld_arWord_b (hf : f < 2 ^ 14) : fld 4 (arWord major d a b f) 14 = b := fld_eq (by unfold arWord; omega)

/-- The function field of major 0x01 has 6 bits. -/
@[simp] theorem arWord_mod_64 : arWord major d a b f % 64 = f % 64 := by unfold arWord; omega

/-- The reserved field of a three-register instruction of major 0x01. -/
@[simp] theorem arWord_div_64_mod_256 : arWord major d a b f / 64 % 256 = f / 64 % 256 := by unfold arWord; omega

/-- The reserved field of a two-register instruction of major 0x01 takes in the second source. -/
@[simp] theorem arWord_div_64_mod_4096 (hf : f < 2 ^ 14) :
    arWord major d a b f / 64 % 4096 = 0 ↔ b = 0 ∧ f / 64 = 0 := by
  have hb : b = 0 ↔ b.toNat = 0 := BitVec.toNat_inj.symm
  rw [hb]; unfold arWord; omega

/-- The function field of major 0x02 has 2 bits. -/
@[simp] theorem arWord_mod_4 : arWord major d a b f % 4 = f % 4 := by unfold arWord; omega

/-- The reserved field of major 0x02. -/
@[simp] theorem arWord_div_4_mod_4096 : arWord major d a b f / 4 % 4096 = f / 4 % 4096 := by unfold arWord; omega

end

/-! ### Bit fields (major 0x03) and SEL (major 0x04) -/

/-- A word of major 0x03 with selector h (R157). -/
def bitFieldWord (d a : RegNo) (l p : BitVec 6) (h : Nat) : Nat := arWord 3 d a 0 (h * 2 ^ 12 + l.toNat * 2 ^ 6 + p.toNat)

section
variable {h : Nat} (d a : RegNo) (l p : BitVec 6)

theorem decodeA_bitFieldWord (hh : h < 4) : decodeA (bitFieldWord d a l p h) = decS3 (bitFieldWord d a l p h) := by
  have hf : h * 2 ^ 12 + l.toNat * 2 ^ 6 + p.toNat < 2 ^ 14 := by omega
  unfold bitFieldWord
  rw [decodeA_arWord 3 d a 0 (by decide) hf]
  simp only [decS, arWord_major 3 d a 0 hf]

@[simp] theorem bitFieldWord_selector (hh : h < 4) : bitFieldWord d a l p h / 4096 % 4 = h := by
  unfold bitFieldWord arWord; omega

@[simp] theorem bitFieldWord_reserved (hh : h < 4) : bitFieldWord d a l p h / 16384 % 16 = 0 := by
  have h0 : (0 : RegNo).toNat = 0 := rfl
  unfold bitFieldWord arWord; omega

@[simp] theorem fld_bitFieldWord_d (hh : h < 4) : fld 4 (bitFieldWord d a l p h) 22 = d :=
  fld_arWord_d 3 d a 0 (by omega)

@[simp] theorem fld_bitFieldWord_a (hh : h < 4) : fld 4 (bitFieldWord d a l p h) 18 = a :=
  fld_arWord_a 3 d a 0 (by omega)

@[simp] theorem fld_bitFieldWord_l : fld 6 (bitFieldWord d a l p h) 6 = l :=
  fld_eq (by unfold bitFieldWord arWord; omega)

@[simp] theorem fld_bitFieldWord_p : fld 6 (bitFieldWord d a l p h) 0 = p :=
  fld_eq (by unfold bitFieldWord arWord; omega)

theorem decodeA_bitFieldWord_zero : decodeA (bitFieldWord d a l p 0) = accept (.bext d a l p) := by
  simp [decodeA_bitFieldWord, decS3]

theorem decodeA_bitFieldWord_one : decodeA (bitFieldWord d a l p 1) = accept (.bins d a l p) := by
  simp [decodeA_bitFieldWord, decS3]

theorem decodeA_bitFieldWord_two : decodeA (bitFieldWord d a l p 2) = .error .unassigned := by
  simp [decodeA_bitFieldWord, decS3]

theorem decodeA_bitFieldWord_three : decodeA (bitFieldWord d a l p 3) = .error .unassigned := by
  simp [decodeA_bitFieldWord, decS3]

/-- A bit-field instruction is well formed where its field ends within the register (R157). -/
theorem bext_wf : (Instr.bext d a l p).wf = decide (p.toNat + l.toNat + 1 ≤ 64) := rfl

theorem bins_wf : (Instr.bins d a l p).wf = decide (p.toNat + l.toNat + 1 ≤ 64) := rfl

end

theorem decodeA_sel (d a b c : RegNo) : decodeA (arWord 4 d a b c.toNat) = accept (.sel d a b c) := by
  have hc : c.toNat < 16384 := by omega
  have hz : arWord 4 d a b c.toNat / 16 % 1024 = 0 := by unfold arWord; omega
  have hs : fld 4 (arWord 4 d a b c.toNat) 0 = c := fld_eq (by unfold arWord; omega)
  simp [decS, decS4, hc, hz, hs]

/-! ### AI format -/

section
variable {i : Nat} (major : Nat) (d a : RegNo)

@[simp] theorem aiWord_major (hi : i < 2 ^ 18) : aiWord major d a i / 67108864 = major := by unfold aiWord; omega

@[simp] theorem decodeA_aiWord (hm : major < 24) (hi : i < 2 ^ 18) : decodeA (aiWord major d a i) = decS (aiWord major d a i) :=
  decodeA_eq_decS (aiWord_major major d a hi) hm

@[simp] theorem fld_aiWord_d (hi : i < 2 ^ 18) : fld 4 (aiWord major d a i) 22 = d := fld_eq (by unfold aiWord; omega)

@[simp] theorem fld_aiWord_a (hi : i < 2 ^ 18) : fld 4 (aiWord major d a i) 18 = a := fld_eq (by unfold aiWord; omega)

@[simp] theorem fld_aiWord_imm (x : BitVec 18) : fld 18 (aiWord major d a x.toNat) 0 = x :=
  fld_eq (by unfold aiWord; omega)

/-- The field of the source register, which MOVI reserves. -/
@[simp] theorem aiWord_div_262144_mod_16 (hi : i < 2 ^ 18) : aiWord major d a i / 262144 % 16 = a.toNat := by
  unfold aiWord; omega

end

/-- The 18 bits of an immediate fit an AI word. -/
theorem toNat_zx_18 (i : BitVec 18) : (zx i).toNat = i.toNat := toNat_zx i (by decide)

theorem decodeA_addi (d a : RegNo) (i : BitVec 18) : decodeA (aiWord 5 d a (zx i).toNat) = accept (.addi d a i) := by
  simp [toNat_zx_18, decS, decS5, i.isLt]

theorem decodeA_andi (d a : RegNo) (i : BitVec 18) : decodeA (aiWord 6 d a (zx i).toNat) = accept (.andi d a i) := by
  simp [toNat_zx_18, decS, decS6, i.isLt]

theorem decodeA_ori (d a : RegNo) (i : BitVec 18) : decodeA (aiWord 7 d a (zx i).toNat) = accept (.ori d a i) := by
  simp [toNat_zx_18, decS, decS7, i.isLt]

theorem decodeA_xori (d a : RegNo) (i : BitVec 18) : decodeA (aiWord 8 d a (zx i).toNat) = accept (.xori d a i) := by
  simp [toNat_zx_18, decS, decS8, i.isLt]

/-- A word of major 0x09 with selector k (R159). -/
def shiftWord (d a : RegNo) (h : BitVec 6) (k : Nat) : Nat := aiWord 9 d a (k * 2 ^ 16 + h.toNat)

section
variable {k : Nat} (d a : RegNo) (h : BitVec 6)

theorem decodeA_shiftWord (hk : k < 4) : decodeA (shiftWord d a h k) = decS9 (shiftWord d a h k) := by
  have hi : k * 2 ^ 16 + h.toNat < 2 ^ 18 := by omega
  unfold shiftWord
  rw [decodeA_aiWord 9 d a (by decide) hi]
  simp only [decS, aiWord_major 9 d a hi]

@[simp] theorem shiftWord_selector (hk : k < 4) : shiftWord d a h k / 65536 % 4 = k := by
  unfold shiftWord aiWord; omega

@[simp] theorem shiftWord_reserved : shiftWord d a h k / 64 % 1024 = 0 := by unfold shiftWord aiWord; omega

@[simp] theorem fld_shiftWord_d (hk : k < 4) : fld 4 (shiftWord d a h k) 22 = d := fld_aiWord_d 9 d a (by omega)

@[simp] theorem fld_shiftWord_a (hk : k < 4) : fld 4 (shiftWord d a h k) 18 = a := fld_aiWord_a 9 d a (by omega)

@[simp] theorem fld_shiftWord_amount : fld 6 (shiftWord d a h k) 0 = h := fld_eq (by unfold shiftWord aiWord; omega)

theorem decodeA_shli : decodeA (aiWord 9 d a (zx h).toNat) = accept (.shli d a h) := by
  have hw : aiWord 9 d a (zx h).toNat = shiftWord d a h 0 := by
    rw [shiftWord, toNat_zx h (by decide), Nat.zero_mul, Nat.zero_add]
  rw [hw, decodeA_shiftWord d a h (by decide)]
  simp [decS9]

theorem decodeA_shri : decodeA (aiWord 9 d a (wd (2 ^ 16 + h.toNat)).toNat) = accept (.shri d a h) := by
  have hw : (wd (2 ^ 16 + h.toNat)).toNat = 1 * 2 ^ 16 + h.toNat := by rw [wd, BitVec.toNat_ofNat]; omega
  rw [hw, ← shiftWord, decodeA_shiftWord d a h (by decide)]
  simp [decS9]

theorem decodeA_srai : decodeA (aiWord 9 d a (wd (2 ^ 17 + h.toNat)).toNat) = accept (.srai d a h) := by
  have hw : (wd (2 ^ 17 + h.toNat)).toNat = 2 * 2 ^ 16 + h.toNat := by rw [wd, BitVec.toNat_ofNat]; omega
  rw [hw, ← shiftWord, decodeA_shiftWord d a h (by decide)]
  simp [decS9]

end

/-- MOVI's word reserves the source field. -/
theorem decodeA_aiWord_ten (d a : RegNo) (i : BitVec 18) :
    decodeA (aiWord 10 d a i.toNat) = if a = 0 then accept (.movi d i) else .error .reserved := by
  have ha : a.toNat = 0 ↔ a = 0 := BitVec.toNat_inj (y := 0)
  simp [decS, decS10, i.isLt, ha]

end Sys2Proof
end

section
/-! The integer instructions of the A slot (R155 to R159). -/

namespace Sys2Proof.Machine

open Sys2Proof

/-- A write to a register changes the bank of registers and nothing else of a context. -/
theorem Strand.setG_eq_with_g (st : Strand) (d : RegNo) (v : Word) : st.setG d v = { st with g := (st.setG d v).g } := by
  unfold Strand.setG; split <;> rfl

/-- An instruction that ends with its result in a bundle of n turns changes the destination alone. -/
theorem aWrites_of_intOp {i : Instr} {s : State} {d : RegNo} {v : Word} {n : Nat} (h : exec i s = intOp d v (s.takes n)) :
    AWrites i s d v n := by
  refine ⟨_, h, RegSet.setG s.x.me d v, ?_, fun _ => rfl⟩
  exact congrArg (fun st => { s with x := { s.x with me := st, turns := n } }) (Strand.setG_eq_with_g s.x.me d v)

/-- The code and the effect of an integer instruction: its word is accepted, and it writes the value v. -/
theorem decodes_and_writes {w : Nat} {i : Instr} {s : State} {d : RegNo} {x v : Word} {n : Nat}
    (hw : decodeA w = accept i) (hwf : i.wf = true) (hx : exec i s = intOp d x (s.takes n)) (hv : x = v) :
    decodeA w = .ok i ∧ AWrites i s d v n :=
  ⟨hw.trans (accept_eq_ok hwf), hv ▸ aWrites_of_intOp hx⟩

/-- The same for an instruction whose second source field is reserved. -/
theorem decodes_and_writes_reserved {w w' : Nat} {i : Instr} {s : State} {d rb : RegNo} {x v : Word} {n : Nat}
    (hw : decodeA w = accept i) (hwf : i.wf = true) (hx : exec i s = intOp d x (s.takes n)) (hv : x = v)
    (hr : ¬ rb = 0#4 → decodeA w' = .error .reserved) :
    decodeA w = .ok i ∧ AWrites i s d v n ∧ (rb ≠ 0 → decodeA w' = .error .reserved) :=
  ⟨hw.trans (accept_eq_ok hwf), hv ▸ aWrites_of_intOp hx, hr⟩

end Sys2Proof.Machine

namespace Sys2Proof

open Sys2Proof.Machine

/-- Settles O3: each three-register instruction's code, result and frame. -/
theorem integerResults : Obligations.IntegerResults := by
  intro s d ra rb a b n op op1
  refine ⟨?add, ?sub, ?and, ?or, ?xor, ?andn, ?shl, ?shr, ?sra, ?rot, ?mul, ?mulh, ?mulhn, ?min, ?max, ?minn, ?maxn,
    ⟨clzN a 64, ?clz, clzN_64 a⟩, ⟨ctzN a 64, ?ctz, ctzN_64 a⟩, ?popc, ?slt, ?sltn, ?seq⟩
  case add => exact decodes_and_writes (by simp [decS, decS1]) rfl rfl (add_eq_wd a b)
  case sub => exact decodes_and_writes (by simp [decS, decS1]) rfl rfl (sub_eq_ofInt a b)
  case and => exact decodes_and_writes (by simp [decS, decS1]) rfl rfl rfl
  case or => exact decodes_and_writes (by simp [decS, decS1]) rfl rfl rfl
  case xor => exact decodes_and_writes (by simp [decS, decS1]) rfl rfl rfl
  case andn => exact decodes_and_writes (by simp [decS, decS1]) rfl rfl rfl
  case shl => exact decodes_and_writes (by simp [decS, decS1]) rfl rfl (shiftLeft_eq_wd a n)
  case shr => exact decodes_and_writes (by simp [decS, decS1]) rfl rfl (ushiftRight_eq_wd a n)
  case sra => exact decodes_and_writes (by simp [decS, decS1]) rfl rfl (sshiftRight_eq_ofInt a n)
  case rot => exact decodes_and_writes (by simp [decS, decS1]) rfl rfl (rotateLeft_eq_wd a (Nat.mod_lt _ (by decide)))
  case mul => exact decodes_and_writes (by simp [decS, decS1]) rfl rfl (mul_eq_wd a b)
  case mulh => exact decodes_and_writes (by simp [decS, decS1]) rfl rfl (mulHigh_signExtend a b)
  case mulhn => exact decodes_and_writes (by simp [decS, decS1]) rfl rfl (mulHigh_setWidth a b)
  case min => exact decodes_and_writes (by simp [decS, decS1]) rfl rfl (ite_slt_eq_min a b)
  case max => exact decodes_and_writes (by simp [decS, decS1]) rfl rfl (ite_slt_eq_max a b)
  case minn => exact decodes_and_writes (by simp [decS, decS1]) rfl rfl (ite_ult_eq_min a b)
  case maxn => exact decodes_and_writes (by simp [decS, decS1]) rfl rfl (ite_ult_eq_max a b)
  case clz => exact decodes_and_writes_reserved (by simp [decS, decS1]) rfl rfl rfl (fun h => by simp [decS, decS1, h])
  case ctz => exact decodes_and_writes_reserved (by simp [decS, decS1]) rfl rfl rfl (fun h => by simp [decS, decS1, h])
  case popc =>
    exact decodes_and_writes_reserved (by simp [decS, decS1]) rfl rfl (congrArg wd (popN_eq_length_filter a 64))
      (fun h => by simp [decS, decS1, h])
  case slt => exact decodes_and_writes (by simp [decS, decS1]) rfl rfl (boolWord_decide (a.toInt < b.toInt))
  case sltn => exact decodes_and_writes (by simp [decS, decS1]) rfl rfl (boolWord_decide (a.toNat < b.toNat))
  case seq => exact decodes_and_writes (by simp [decS, decS1]) rfl rfl (boolWord_decide (a = b))

/-- Settles O4: the four divisions, each in a bundle of 8 turns. -/
theorem divisionResults : Obligations.DivisionResults := by
  intro s d ra rb a b op
  refine ⟨?div, ?divn, ?rem, ?remn⟩
  case div => exact decodes_and_writes (by simp [decS, decS2]) rfl rfl (divS_eq a b)
  case divn => exact decodes_and_writes (by simp [decS, decS2]) rfl rfl (divU_eq a b)
  case rem => exact decodes_and_writes (by simp [decS, decS2]) rfl rfl (remS_eq a b)
  case remn => exact decodes_and_writes (by simp [decS, decS2]) rfl rfl (remU_eq a b)

/-- Settles O5: the words of BEXT and BINS, the field that ends beyond the register, and every bit of their results. -/
theorem bitFieldResults : Obligations.BitFieldResults := by
  intro s d ra l p len pos word
  refine ⟨fun h => ?beyond, decodeA_bitFieldWord_two d ra l p, decodeA_bitFieldWord_three d ra l p, fun h => ?within⟩
  case beyond =>
    have hwf : decide (p.toNat + l.toNat + 1 ≤ 64) = false := decide_eq_false (by omega)
    exact ⟨(decodeA_bitFieldWord_zero d ra l p).trans (accept_eq_error ((bext_wf d ra l p).trans hwf)),
      (decodeA_bitFieldWord_one d ra l p).trans (accept_eq_error ((bins_wf d ra l p).trans hwf))⟩
  case within =>
    have hwf : decide (p.toNat + l.toNat + 1 ≤ 64) = true := decide_eq_true (by omega)
    obtain ⟨hbext, hxt⟩ := decodes_and_writes (decodeA_bitFieldWord_zero d ra l p) ((bext_wf d ra l p).trans hwf)
      (rfl : exec (.bext d ra l p) s = intOp d (bitExtract (s.g ra) l p) (s.takes s.x.turns)) rfl
    obtain ⟨hbins, hns⟩ := decodes_and_writes (decodeA_bitFieldWord_one d ra l p) ((bins_wf d ra l p).trans hwf)
      (rfl : exec (.bins d ra l p) s = intOp d (bitInsert (s.g d) (s.g ra) l p) (s.takes s.x.turns)) rfl
    exact ⟨hbext, hbins, ⟨_, hxt, fun i hi => getLsbD_bitExtract (s.g ra) l p hi⟩,
      ⟨_, hns, fun i hi => getLsbD_bitInsert (s.g d) (s.g ra) l p hi⟩⟩

/-- SEL's code and result. -/
theorem selectResult : SelectResult := fun s d ra rb rc =>
  decodes_and_writes (decodeA_sel d ra rb rc) rfl rfl (by simp only [bne_iff_ne])

/-- The code and the result of each immediate form. -/
theorem immediateResults : ImmediateResults := by
  intro s d ra i h a op
  have hi : sx i = BitVec.ofInt 64 i.toInt := sx_eq_ofInt i (by decide)
  refine ⟨?addi, ?andi, ?ori, ?xori, ?shli, ?shri, ?srai, ?movi, fun ha => ?moviReserved, ?moviWrites⟩
  case addi => exact decodes_and_writes (decodeA_addi d ra i) rfl rfl (add_sx_eq_ofInt a i (by decide))
  case andi => exact decodes_and_writes (decodeA_andi d ra i) rfl rfl (congrArg (a &&& ·) hi)
  case ori => exact decodes_and_writes (decodeA_ori d ra i) rfl rfl (congrArg (a ||| ·) hi)
  case xori => exact decodes_and_writes (decodeA_xori d ra i) rfl rfl (congrArg (a ^^^ ·) hi)
  case shli => exact decodes_and_writes (decodeA_shli d ra h) rfl rfl (shiftLeft_eq_wd a h.toNat)
  case shri => exact decodes_and_writes (decodeA_shri d ra h) rfl rfl (ushiftRight_eq_wd a h.toNat)
  case srai => exact decodes_and_writes (decodeA_srai d ra h) rfl rfl (sshiftRight_eq_ofInt a h.toNat)
  case movi => rw [decodeA_aiWord_ten, if_pos rfl]; exact accept_eq_ok rfl
  case moviReserved => rw [decodeA_aiWord_ten, if_neg ha]
  case moviWrites => rw [← hi]; exact aWrites_of_intOp rfl

/-- Settles O6: SEL and the immediate forms. -/
theorem selectAndImmediates : Obligations.SelectAndImmediates := ⟨selectResult, immediateResults⟩

end Sys2Proof
end

section
/-! LEA, LIW, LIH and HOMEOF (R166 to R168), with the words of the C slot's CI format and of the long instructions (R44, R46). -/

namespace Sys2Proof

open Sys2Proof.Machine

/-! ### CI format and word 0 of a long instruction -/

section
variable {i : Nat} (major : Nat) (d a : RegNo)

theorem ciWord_major (hi : i < 2 ^ 17) : ciWord major d a i / 33554432 = major := by unfold ciWord; omega

@[simp] theorem fld_ciWord_d (hi : i < 2 ^ 17) : fld 4 (ciWord major d a i) 21 = d := fld_eq (by unfold ciWord; omega)

@[simp] theorem fld_ciWord_a (hi : i < 2 ^ 17) : fld 4 (ciWord major d a i) 17 = a := fld_eq (by unfold ciWord; omega)

@[simp] theorem fld_ciWord_imm (x : BitVec 17) : fld 17 (ciWord major d a x.toNat) 0 = x :=
  fld_eq (by unfold ciWord; omega)

/-- Below bit 31 the first word of a long instruction is in CI format (R46). -/
theorem longWord_mod (hm : major < 2 ^ 6) : longWord major d a % 2147483648 = ciWord major d a 0 := by
  unfold longWord ciWord; omega

/-- No immediate stands in the first word of a long instruction. -/
@[simp] theorem ciWord_zero_mod_131072 : ciWord major d a 0 % 131072 = 0 := by unfold ciWord; omega

/-- A long instruction without a source register reserves its field. -/
@[simp] theorem ciWord_zero_mod_2097152 : ciWord major d 0#4 0 % 2097152 = 0 := by
  have h0 : (0#4).toNat = 0 := rfl
  unfold ciWord; omega

end

/-- The second word of a long instruction is its immediate. -/
@[simp] theorem fld_32_zero (w : W32) : fld 32 w.toNat 0 = w := fld_eq (by omega)

theorem decodeC_lea (d a : RegNo) (i : BitVec 17) : decodeC (ciWord 1 d a i.toNat) = accept (.lea d a i) := by
  simp [decodeC, decC, decC1, ciWord_major, i.isLt]

theorem decodeLong_leaLong (d a : RegNo) (w : W32) : decodeLong (longWord 5 d a) w.toNat = accept (.leaLong d a w) := by
  simp [decodeLong, longWord_mod, ciWord_major]

theorem decodeLong_liw (d : RegNo) (w : W32) : decodeLong (longWord 0 d 0) w.toNat = accept (.liw d w) := by
  simp [decodeLong, longWord_mod, ciWord_major]

theorem decodeLong_lih (d : RegNo) (w : W32) : decodeLong (longWord 1 d 0) w.toNat = accept (.lih d w) := by
  simp [decodeLong, longWord_mod, ciWord_major]

end Sys2Proof

namespace Sys2Proof.Machine

open Sys2Proof

/-- A context that has written a register and is complete, with that register's bank. -/
theorem Strand.advance_setG (st : Strand) (d : RegNo) (v : Word) :
    (st.setG d v).advance = st.done (st.setG d v).g (st.pc + 1) := by
  have hpc : (st.setG d v).pc = st.pc := Strand.setG_pc st d v
  rw [← Strand.jump_setG, ← hpc]; rfl

/-- A C-slot instruction that ends with its result changes the destination and PC. -/
theorem cWrites_of_wg_adv {i : Instr} {s : State} {d : RegNo} {v : Word} (h : exec i s = .next (s.wg d v).adv) :
    CWrites i s d v := by
  refine ⟨_, h, RegSet.setG s.x.me d v, ?_, fun _ => rfl⟩
  exact congrArg (fun st => { s with x := { s.x with me := st } }) (Strand.advance_setG s.x.me d v)

/-- HOMEOF of a mapped address. -/
theorem exec_homeof_of_mapsTo {d a : RegNo} {s : State} {pa : Nat} (h : mapsTo s (s.g a) needNone pa = true) :
    exec (.homeof d a) s = .next (s.wg d (s.homeInfo pa)).adv :=
  congrArg Host.Outcome.next (State.withPa_maps h)

end Sys2Proof.Machine

namespace Sys2Proof

open Sys2Proof.Machine

/-- LEA, LIW and LIH: each code, each result, and no trap. -/
theorem addressesAndLongImmediates : AddressesAndLongImmediates := by
  intro s d a i w
  refine ⟨(decodeC_lea d a i).trans (accept_eq_ok rfl), ?lea, (decodeLong_leaLong d a w).trans (accept_eq_ok rfl), ?leaLong,
    (decodeLong_liw d w).trans (accept_eq_ok rfl), ?liw, (decodeLong_lih d w).trans (accept_eq_ok rfl), ?lih⟩
  case lea => rw [← add_sx_eq_ofInt _ i (by decide)]; exact cWrites_of_wg_adv rfl
  case leaLong => rw [← add_sx_eq_ofInt _ w (by decide)]; exact cWrites_of_wg_adv rfl
  case liw => rw [← sx_eq_ofInt w (by decide)]; exact cWrites_of_wg_adv rfl
  case lih => rw [← setField_upper_eq_wd]; exact cWrites_of_wg_adv rfl

/-- HOMEOF of a mapped address gives the fields of its physical address. -/
theorem homeofResult : HomeofResult := fun _ _ _ _ h => cWrites_of_wg_adv (exec_homeof_of_mapsTo h)

/-- Settles O8: LEA, LIW and LIH, and HOMEOF. -/
theorem addressesAndHomes : Obligations.AddressesAndHomes := ⟨addressesAndLongImmediates, homeofResult⟩

end Sys2Proof
end

section
/-! TRAP, the return from a user handler, and the declined trap (R151, R152, R172). -/

namespace Sys2Proof.Machine

open Sys2Proof

/-! ### URET -/

theorem exec_uret_of_not_inTrap {s : State} (h : s.x.me.inTrap = false) : exec .uret s = .next s.illegalC := by
  show execUret s = _
  unfold execUret; rw [if_pos (by rw [h]; rfl)]

/-- In a handler, URET goes where a jump to UTPC would, but for what it does at the end. -/
theorem exec_uret_of_inTrap {s : State} (h : s.x.me.inTrap = true) :
    exec .uret s =
      if s.x.me.utpc.toNat % 8 ≠ 0 then .next (s.trapC cAlign s.x.me.utpc)
      else if 2 ^ 56 ≤ s.x.me.utpc.toNat then .next (s.trapC cXlate s.x.me.utpc)
      else .next (s.upd Strand.uret) := by
  show execUret s = _
  unfold execUret
  simp only [h, Bool.not_true, Bool.false_eq_true, if_false, bne_iff_ne, nfield_56_8_ne_zero_iff]

/-! ### UDECLINE -/

/-- The state after a trap has been declined: the trap as the strand took it goes to the supervisor (R152). -/
def State.declined (s : State) : State :=
  let st := s.x.me
  let t := s.escalate (nfield st.utc.toNat 0 8) st.utpc st.utval (wbit st.utc 8)
  { t with x := { t.x with trap := some { cause := 0, val := st.utval } } }

theorem exec_udecline_of_not_inTrap {s : State} (h : s.x.me.inTrap = false) : exec .udecline s = .next s.illegalC := by
  show execUdecline s = _
  unfold execUdecline; rw [if_pos (by rw [h]; rfl)]

theorem exec_udecline_of_inTrap {s : State} (h : s.x.me.inTrap = true) : exec .udecline s = .next s.declined := by
  show execUdecline s = _
  unfold execUdecline; rw [if_neg (by rw [h]; decide)]; rfl

/-- The strand whose trap is escalated stops; its handler state and its registers stand. -/
def Strand.escalated (st : Strand) : Strand :=
  { st.leave with stop := some .escalated, wait := none, cOnly := false, pend := none, arrived := false }

theorem Strand.escalated_eq (st : Strand) :
    st.escalated = { st with sw := setBit st.sw 22 false, follow := none, stop := some .escalated, wait := none, cOnly := false
                             pend := none, arrived := false } := by
  unfold Strand.escalated Strand.leave
  dsimp only
  split <;> rfl

theorem State.declined_me (s : State) : s.declined.x.me = s.x.me.escalated := rfl

theorem Strand.escalated_inTrap (st : Strand) : st.escalated.inTrap = st.inTrap := by
  rw [Strand.escalated_eq]
  exact getLsbD_setBit st.sw 22 false (by decide)

/-- An event that a paddock's supervisor is sent stands last in its queue (R421). -/
theorem State.svq_supervise (s : State) (p : Nat) (e : SvEvent) :
    ((s.supervise p e).pad p).svq = (s.pad p).svq ++ [e] :=
  congrArg Paddock.svq ((State.pad_updPad s p p _).trans (if_pos rfl))

/-- The supervisor of the strand's paddock has one event more, with CONLY and the cause of UTC. -/
theorem State.declined_svq (s : State) :
    (s.declined.pad (paddockOf s.x.me.tile)).svq = (s.pad (paddockOf s.x.me.tile)).svq ++
      [{ cause := wd (2 ^ 16 + (if s.x.me.utc.getLsbD 8 then 256 else 0) + s.x.me.utc.toNat % 256), sid := s.x.me.sid
         spc := s.x.me.utpc, val := s.x.me.utval, past := s.x.me.pasture }] := by
  have hc : nfield s.x.me.utc.toNat 0 8 = s.x.me.utc.toNat % 256 := by rw [nfield, Nat.pow_zero, Nat.div_one]; rfl
  rw [← hc]
  exact State.svq_supervise _ _ _

end Sys2Proof.Machine

namespace Sys2Proof

open Sys2Proof.Machine

/-- TRAP's word: SUB 4 of major 0x00, with the value in AUX (R172). -/
theorem decodeC_trap (i : BitVec 8) : decodeC (crWord 0 0 0 0 4 i.toNat) = accept (.trap i) := by
  have hw : crWord 0 0 0 0 4 i.toNat = 2048 + i.toNat := by
    simp [crWord, ciWord]
  have hmajor : (2048 + i.toNat) / 33554432 = 0 := by omega
  have hsub : (2048 + i.toNat) / 512 % 16 = 4 := by omega
  have hres : (2048 + i.toNat) / 256 % 2 = 0 ∧ (2048 + i.toNat) / 8192 % 4096 = 0 := by omega
  have hval : fld 8 (2048 + i.toNat) 0 = i := fld_eq (by omega)
  rw [hw]
  simp only [decodeC, decC, decC0, hmajor, hsub, hres, hval, and_self, if_true]

/-- Settles O14: TRAP, URET with its checks, and UDECLINE. -/
theorem trapAndReturn : Obligations.TrapAndReturn := by
  intro s i _ st
  refine ⟨(decodeC_trap i).trans (accept_eq_ok rfl), rfl, fun h => ⟨exec_uret_of_not_inTrap h, exec_udecline_of_not_inTrap h⟩,
    fun h ha => ?misaligned, fun h ha hx => ?beyond, fun h ha hx => ?returns, fun h => ?declines⟩
  case misaligned => rw [exec_uret_of_inTrap h, if_pos ha]
  case beyond => rw [exec_uret_of_inTrap h, if_neg (not_not.mpr ha), if_pos hx]
  case returns =>
    refine ⟨setBit st.sw 21 false, ?_, fun j hj => getLsbD_setBit st.sw 21 false hj⟩
    rw [exec_uret_of_inTrap h, if_neg (not_not.mpr ha), if_neg (not_le.mpr hx)]
    rfl
  case declines =>
    refine ⟨s.declined, exec_udecline_of_inTrap h, ?_⟩
    rw [State.declined_me, Strand.escalated_inTrap, State.declined_svq, Strand.escalated_eq]
    exact ⟨rfl, h, rfl, rfl, rfl, rfl, rfl, fun _ => rfl, rfl⟩

end Sys2Proof
end
